-- ==== Sys2Proof/Word.lean ====
section
/-! DEFINITION. The word types of the Welard Balnis model, and the operand forms that its commands carry. -/

namespace Sys2Proof

abbrev Byte := BitVec 8
abbrev Half := BitVec 16
abbrev Word := BitVec 32

/-- Sparse bytes keyed by address, in one canonical form: keys strictly rising and no byte 00h.
An unlisted address reads as 00h. -/
abbrev Bytes := List Host.Cell

/-- The second operand of a byte instruction of formats RR and RI (R88): byte 2 of the instruction,
raw, as a register field or as an immediate. -/
inductive ByteSrc where
  | reg (b2 : Byte)
  | imm (n8 : Byte)
deriving DecidableEq, Repr

/-- The second operand of a pair instruction of formats RR and PI (R88). -/
inductive PairSrc where
  | pair (b2 : Byte)
  | imm (n16 : Half)
deriving DecidableEq, Repr

/-- A memory operand of format M (R89): the mode field and the raw bytes 2 and 3. -/
structure MemOp where
  mode : BitVec 3
  b2 : Byte
  b3 : Byte
deriving DecidableEq, Repr

/-- The destination of JMP and CALL: `label`, `(ps)` with raw byte 1, or `addr16` (R90). -/
inductive JumpDst where
  | rel (d16 : Half)
  | pair (b1 : Byte)
  | abs (a16 : Half)
deriving DecidableEq, Repr

/-- The count of LOOP: `n16`, or the pair of raw byte 1 (R103). -/
inductive LoopCount where
  | imm (n16 : Half)
  | pair (b1 : Byte)
deriving DecidableEq, Repr

/-- The eight operations of opcodes 20h to 23h (R91). -/
inductive AluOp where
  | add | adc | sub | sbc | and | or | xor | cmp
deriving DecidableEq, Repr

/-- The operations of opcode 24h (R91). -/
inductive UnOp where
  | inc | dec | neg | not | clr | tst | swapn
deriving DecidableEq, Repr

/-- The operations of opcode 25h (R91). -/
inductive UnwOp where
  | inc | dec | neg | not | clr | tst | sex | zex
deriving DecidableEq, Repr

/-- The shift and rotate operations of opcodes 26h to 29h (R91). -/
inductive ShOp where
  | shl | shr | sar | rol | ror | rcl | rcr
deriving DecidableEq, Repr

/-- A Voleth instruction with its operand bytes as encoded: a reserved value of a field is
kept, so that the machine raises the illegal-instruction exception that R87 gives it. -/
inductive VInstr where
  | nop | ret | rte | setm | clrm | usr | wait
  | trap (n : Byte)
  | spillw (b1 : Byte) | fillw (b1 : Byte)
  | mvb (b1 : Byte) | cmb (b1 : Byte) | flb (b1 : Byte)
  | mov (b1 : Byte) (src : ByteSrc)
  | movw (b1 : Byte) (src : PairSrc)
  | ld (rd : BitVec 5) (m : MemOp) | st (m : MemOp) (rs : BitVec 5)
  | ldw (pd : BitVec 5) (m : MemOp) | stw (m : MemOp) (ps : BitVec 5)
  | lea (pd : BitVec 5) (m : MemOp)
  | push (b1 : Byte) | pop (b1 : Byte) | pushw (b1 : Byte) | popw (b1 : Byte)
  | mfs (b1 : Byte) (s : Byte) | mts (s : Byte) (b1 : Byte)
  | xch (b1 : Byte) (b2 : Byte)
  | alu (op : AluOp) (rd : BitVec 5) (src : ByteSrc)
  | aluw (op : AluOp) (pd : BitVec 5) (src : PairSrc)
  | un (op : UnOp) (rd : BitVec 5)
  | unw (op : UnwOp) (pd : BitVec 5)
  | sh (op : ShOp) (rd : BitVec 5) (count : ByteSrc)
  | shw (op : ShOp) (pd : BitVec 5) (count : ByteSrc)
  | mul (signed : Bool) (pd : BitVec 5) (b2 : Byte)
  | div (signed : Bool) (pd : BitVec 5) (b2 : Byte)
  | bfx (b1 b2 b3 : Byte) | bfi (b1 b2 b3 : Byte)
  | clz (b1 b2 : Byte)
  | bpermI (b1 : Byte) (sel : Byte) | bpermR (b1 : Byte) (b2 : Byte)
  | jmp (dst : JumpDst) | call (dst : JumpDst)
  | loop (count : LoopCount) (u8 : Byte)
  | bcc (cond : BitVec 4) (d8 : Byte)
  | bccL (b1 : Byte) (d16 : Half)
  | uop (n : BitVec 5) (b1 b2 b3 : Byte)
  | reservedOpcode (op : Byte)
  /-- An instruction of `len` bytes whose op field or fixed bits hold a reserved value (R91). -/
  | reservedField (len : Nat)
deriving DecidableEq, Repr

/-- A mould (R45). Register values are keyed by their I/O-page address, with the PIO program store and
the engines' set-up among them. -/
structure Mould where
  index : Nat
  name : List Byte
  memory : Bytes
  decodeTable : Bytes
  microcode : Bytes
  paceTable : Bytes
  /-- SSP and USP after a cast (R58). -/
  ssp : Half
  usp : Half
  /-- The value F of R477 for each clock. -/
  coreFreq : Nat
  ioFreq : Nat
  regs : Bytes
  /-- The initial pin values and directions of each engine. -/
  pioValues : List (BitVec 16)
  pioDirs : List (BitVec 16)
  palette : Bytes
  tables : Bytes
  /-- NODE_GAIN and MUTE of each node (R298). -/
  nodes : List (Nat × Int × Bool)
  /-- Each output's limiter enable, threshold, release and ten coefficients (R300, R301). -/
  outs : List (Bool × Nat × Nat × List Int)
deriving DecidableEq, Repr

/-- A key of a card, wrapped under the image key, with the usage bits ENC, DEC, MAC and WRAP in bits
3 to 0 (R46, R454). -/
structure WrappedKey where
  usage : Nat
  bytes : List Byte
deriving DecidableEq, Repr

/-- A channel card (R46). -/
structure Card where
  channel : Nat
  mould : Nat
  auto : Nat
  /-- The pin of CP0 to CP15, or FFFFh. -/
  pins : List Nat
  die : Nat
  locks : BitVec 16
  /-- Each pin's stop state: 0 hold, 1 float, 2 drive 0, 3 drive 1. -/
  stops : List Nat
  lockupPin : Option Nat
  keys : List (Option WrappedKey)
  share : Nat
  interval : Nat
  identityAt : Nat
  identity : List Byte
deriving DecidableEq, Repr

/-- The device section (R44, R260). -/
structure Device where
  /-- The alarm level of each sensor: 0 NOTE, 1 WIPE_CHANNEL_KEYS, 2 WIPE_ALL, 3 WIPE_AND_HOLD. -/
  levels : List Nat
  /-- The NETLOW_N threshold of dies 1 to 7. -/
  thresholds : List Nat
  /-- The channels whose lockups do not pull LOCKUP_N low. -/
  masked : List Nat
  svcChannel : Option Nat
  panelW : Nat
  panelH : Nat
  /-- Mbit/s per lane. -/
  laneRate : Nat
  teEn : Bool
  wakeMs : Nat
deriving DecidableEq, Repr

/-- The decrypted payload of an image (R43). -/
structure Image where
  device : Device
  moulds : List Mould
  cards : List Card
deriving DecidableEq, Repr

/-- What the bytes of a slot's sections say, in the order of its directory (R43); `none` when they say nothing.
The manual gives the fields of a section and no byte layout of them (assumption 113), so that this comes with the
command; the header, the signature, the tag, the payload and its directory are computed from the slot. -/
structure SlotReading where
  payload : Option Image
deriving DecidableEq, Repr

/-- A queue of the host port: queue q of a channel's VF, or a management queue of PF0 (R377, R398). -/
inductive QueueId where
  | vf (ch q : Nat)
  | mcq
  | mrq
deriving DecidableEq, Repr

/-- A unit of the kiln: a cell, or a hub block of R447. -/
inductive KilnUnit where
  | cell (die cell : Nat)
  | hub (block : Nat)
deriving DecidableEq, Repr

/-- The outcome of a test (R452). -/
inductive TestOutcome where
  | pass | repaired | memory | logic
deriving DecidableEq, Repr

/-- A test's result with the details of its kiln record (R452). -/
structure TestResult where
  outcome : TestOutcome
  memory : Nat
  bit : Nat
  address : Nat
  shape : Nat
  spare : Nat
  chain : Nat
  sigDiff : Nat
  /-- In units of 10 µs. -/
  duration : Nat
deriving DecidableEq, Repr

/-- What a host read carries: an entry of an inbound queue of a VF, the samples of an AIQ entry, source lines of a
layer, or the next entry of MCQ (R380, R385, R221, R398). -/
inductive ReadTarget where
  | entry (q : Nat)
  | samples
  | layer (l : Nat)
  | command
deriving DecidableEq, Repr

/-- What DBG_READ and DBG_WRITE reach (R132). -/
inductive DebugSpace where
  | memory | ioPage | registers | special | file
deriving DecidableEq, Repr

/-- A register write that has no row of its own (R6): by a channel's program or DMA in the I/O page, by
the host in a VF's BAR0, in PF0's BAR0, or in configuration space: PF0's power-management capability, the Enable Relaxed
Ordering bit of a function (R370), half of BAR k (0 PF0 BAR0, 1 PF0 BAR2, 2 VF BAR0; R373), and dword `reg` of the
association registers of a Selective IDE stream: one RID association of two, and two address association blocks of three
each (R375). -/
inductive RegWrite where
  | io (ch addr : Nat) (v : Byte)
  | vf (ch off : Nat) (v : Word)
  | pf0 (off : Nat) (v : Word)
  | power (d3hot : Bool)
  | relax (fn : Nat) (enable : Bool)
  | bar (k : Nat) (high : Bool) (v : Word)
  | ide (stream reg : Nat) (v : Word)
deriving DecidableEq, Repr

/-- What a configuration request reads (R372, R373): the Device and Vendor ID, the class code and the Revision ID, half
of a BAR as `RegWrite.bar` numbers them, the fields of the SR-IOV capability, the power state, or another dword. -/
inductive ConfigReg where
  | id | classRevision
  | bar (k : Nat) (high : Bool)
  | vfDeviceId | firstVfOffset | vfStride | totalVfs | pageSizes | powerState
  | other (off : Nat)
deriving DecidableEq, Repr

/-- A configuration request: the function it asks (0 PF0, n + 1 the VF of channel n) and what it reads. -/
structure ConfigAsk where
  fn : Nat := 0
  reg : ConfigReg := .id
deriving DecidableEq, Repr

/-- What a planned catch's pause shows of channel `ch`: the edges that the pads' latches caught in the pause, and the
pins at its end (R345). -/
structure PauseSight where
  ch : Nat
  rising : BitVec 16
  falling : BitVec 16
  levels : BitVec 16
deriving DecidableEq, Repr

/-- How a nap ends: the dot ticks from the last event of the nap to the wake cause, and the pins with which the filters
are loaded (R344, R368). -/
structure NapWake where
  ticks : Nat
  levels : BitVec 16
deriving DecidableEq, Repr

/-- A cycle of engine `n` that tests flags: `same` when the latest request to the flags falls on the same I/O clock
(R324). -/
structure FlagCycle where
  n : Nat
  same : Bool
deriving DecidableEq, Repr

/-- The three bytes that follow an opcode at the PC. -/
structure OpcodeRest where
  b1 : Byte
  b2 : Byte
  b3 : Byte
deriving DecidableEq, Repr

/-- What fails in the always-on or the security phase (R32, R36). -/
inductive BootFault where
  | none | alwaysOn | refclk
deriving DecidableEq, Repr

end Sys2Proof
end

