-- ==== Sys2Proof/Syntax.lean ====
section
/-! DEFINITION. The commands of a Balnis part: one constructor for each row of the table of operations and
events. An operation carries its operands. An event carries what the world outside the part decides
of it: which unit it falls on, and the values that arrive with it. `ch` is a channel number. -/

namespace Sys2Proof

inductive Instr where
  /-- R480. PWRGD rises and the device resets everything outside the always-on domain, then starts
  the always-on phase of start-up. -/
  | powerOnReset (fault : BootFault)
  /-- R480. RESET_N held low for at least 1 µs resets the device as power-on reset does and restarts
  start-up from phase 0h. -/
  | resetN (fault : BootFault)
  /-- R471. PWRGD falls, and the device disarms the glitch detectors, stops every island and sets
  every pad high-impedance with the link down. -/
  | pwrgdFalling
  /-- R480. Loss of both VBAT and main power resets the always-on domain and empties the key store,
  ending any WIPE_AND_HOLD hold. -/
  | vbatAndMainPowerRemoved
  /-- R481. PERST# goes low, so the endpoint, configuration spaces, queue registers, DOE sessions
  and IDE streams reset and every queue is disarmed. -/
  | perstAsserted
  /-- R34. PERST# is released and the link trains within 20 ms, once start-up has passed the
  security phase. -/
  | perstReleased
  /-- R31. After the always-on phase completes, tamper sensors are read, logged alarms are applied
  and the key store is checked for the image key. -/
  | securityPhase (fault : BootFault)
  /-- R444. After the security phase completes, the kiln tests and repairs the hub and every cell of
  every populated die. -/
  | selfTestPhase (hubFail : Option TestOutcome) (cells : List (Nat × Nat × TestResult))
  /-- R42. After self-test completes, both slot headers are read and the chosen slot is streamed,
  decrypted and verified, and the rollback floor is raised. -/
  | imageReadPhase (octal : Bool) (a b : SlotReading)
  /-- R46. After the image read completes, moulds and channel cards are checked and placed in the
  image store. -/
  | imageLoadPhase
  /-- R31. After the image load completes, cells are assigned, GPIO bank rails are sensed and every
  channel marked for automatic cast is cast. -/
  | castingPhase (banks : List (List Nat))
  /-- R31. When the casting phase completes, READY rises and configuration requests complete
  normally. -/
  | ready
  /-- R34. The host's configuration request is completed normally or with Retry Status, depending on
  READY. It reads a register of one function. -/
  | configurationRequest (ask : ConfigAsk := {})
  /-- R371. A host request addressed outside the BARs and configuration space is completed with
  Unsupported Request. -/
  | unsupportedRequest
  /-- R372. PF0 enters D3hot, which disables its requests without stopping any channel. -/
  | d3hot
  /-- R394. A VF function-level reset clears its queue and status registers and MSI-X table,
  discards unaccepted inbound items and stops layer reads. -/
  | functionLevelReset (ch : Nat)
  /-- R394. A PF0 function-level reset resets the management rings and PF0's MSI-X table, and
  responses not yet written are lost. -/
  | pf0FunctionLevelReset
  /-- R378. A CTL write that changes ARM from 0 to 1 arms the queue and zeroes PROD and CONS, or is
  refused with ERRC 5h. -/
  | queueArm (q : QueueId) (ctl : Word)
  /-- R378. A CTL write of ARM = 0 disarms the queue. -/
  | queueDisarm (q : QueueId) (ctl : Word)
  /-- R380. The host writes a new PROD to an inbound doorbell, which is accepted if it stays within
  the ring or else sets ERRC 1h and disarms the queue. -/
  | inboundDoorbell (q : QueueId) (prod : Word)
  /-- R381. The host writes a new CONS to an outbound doorbell, which is accepted if it covers only
  written units or else sets ERRC 2h and disarms the queue. -/
  | outboundDoorbell (q : QueueId) (cons : Word)
  /-- R382. A queue's message holdoff expires and one deferred MSI-X message is sent. -/
  | holdoffEnd (q : QueueId)
  /-- R403. The carousel visits a channel with pending work, adds its quantum to the deficit and
  moves items in the order of R404. -/
  | carouselVisit (ch : Nat)
  /-- R49. The CAST command is checked for state, epoch, argument and a free cell and either starts
  a cast, is held pending during a drain, or is refused. -/
  | cast (ch tag epoch mould : Nat)
  /-- R53. The cast's loading completes, the first checkpoint is taken, channel time starts and the
  core fetches through vector 0 as the channel enters RUNNING. -/
  | castComplete (ch : Nat)
  /-- R51. The STOP command is checked and, if accepted, starts a drain that halts the core and
  every block of the cell. -/
  | stop (ch tag epoch : Nat)
  /-- R51. A drain completes: pins take their stop states, key slots are erased, the power switch
  opens, queues are disarmed, the channel enters STOPPED and any pending CAST is carried out. -/
  | drainEnd (ch : Nat)
  /-- R245. The CLONE command switches cloning to CLQ on or off at a frame boundary, or is refused
  with WRONG_STATE. -/
  | clone (ch tag epoch : Nat) (on : Bool)
  /-- R242. The STREAM_REFRESH command requests a full refresh of the named streams. -/
  | streamRefresh (ch tag epoch : Nat) (streams : Byte)
  /-- R263. The SVC_SELECT command selects a channel, or none, for the service panel and starts the
  panel sequence. -/
  | svcSelect (tag sel : Nat)
  /-- R263. WAKE_MS after exit_sleep_mode expires, and the panel is written black and the full
  refresh is pushed. -/
  | svcWakeWaitEnd
  /-- R261. A service-stream sherd is sent to the panel as a column, page and memory-write packet
  sequence. -/
  | servicePush
  /-- R262. A rising tearing-effect edge of at least 1 µs starts pushing the sherds of the next
  sealed frame when TE_EN is 1. -/
  | tearingEffectEdge
  /-- R133. DBG_ATTACH suspends the safety net for the channel and records NET_OFF with cause DEBUG.
  -/
  | dbgAttach (ch tag epoch : Nat)
  /-- R132. DBG_HALT requests that the core halts at the next interruptible boundary. -/
  | dbgHalt (ch tag epoch : Nat)
  /-- R134. The core halts for debug at an interruptible boundary, or at a WAIT or at the wake of a
  nap, while every other block runs on. -/
  | debugHaltTaken (ch : Nat)
  /-- R137. The core halts before an instruction at a breakpoint address, or before the preceding
  jump or mode change. -/
  | breakpointHalt (ch : Nat) (v : VInstr)
  /-- R135. DBG_STEP executes one step of R135, restarts the pace schedule and halts again. -/
  | dbgStep (ch tag epoch : Nat)
  /-- R136. DBG_RESUME resumes the core and restarts the pace schedule with SLIP 0. -/
  | dbgResume (ch tag epoch : Nat)
  /-- R132. DBG_READ reads registers, P0–P239, cell memory or the I/O page without side effects. -/
  | dbgRead (ch tag epoch : Nat) (space : DebugSpace) (addr len buf : Nat)
  /-- R132. DBG_WRITE writes registers, special registers or cell memory of a halted or locked-up
  core. -/
  | dbgWrite (ch tag epoch : Nat) (space : DebugSpace) (addr : Nat) (data : List Byte)
  /-- R132. DBG_BREAK sets or clears the four breakpoints. -/
  | dbgBreak (ch tag epoch : Nat) (addrs : List Half)
  /-- R133. DBG_DETACH clears breakpoints, resumes a debug-halted core and restores the net from the
  next checkpoint. -/
  | dbgDetach (ch tag epoch : Nat)
  /-- R54. IMAGE_BEGIN opens an image update of the slot not in use, or is refused with BUSY. -/
  | imageBegin (tag : Nat)
  /-- R54. IMAGE_WRITE writes a piece of the new image from a host buffer into the target slot. -/
  | imageWrite (tag off : Nat) (data : List Byte)
  /-- R54. IMAGE_COMMIT checks the written slot by R41 and reports the result and the new SEQUENCE.
  -/
  | imageCommit (tag : Nat) (r : SlotReading)
  /-- R436. READ_CATCH_LOG returns the latest catch-log records, oldest first. -/
  | readCatchLog (tag buf len : Nat)
  /-- R130. READ_LOCKUP returns a channel's lockup record, whatever epoch it carries. -/
  | readLockup (ch tag buf len : Nat)
  /-- R437. READ_HEALTH returns 16 bytes of health data for each cell. -/
  | readHealth (tag buf len : Nat)
  /-- R438. READ_FORECAST returns the reserve forecast for each populated channel die. -/
  | readForecast (tag buf len : Nat)
  /-- R467. READ_SECURITY returns key-store status and the alarm history, and may release ALARM_N.
  -/
  | readSecurity (tag buf len : Nat)
  /-- R258. READ_COUNTERS returns the per-channel, per-stream publication and discard counts. -/
  | readCounters (tag buf len : Nat)
  /-- R401. A management command with an undefined opcode completes with STATUS UNDEFINED. -/
  | undefinedOpcode (op : Byte) (ch tag : Nat)
  /-- R397. VF_CMD REFRESH, checked against the epoch, requests a full refresh of SHQ and/or CLQ. -/
  | refresh (ch : Nat) (arg : Byte)
  /-- R395. A read of VF_STATE returns the VF's view of the state and latches VF_EPOCH. -/
  | vfStateRead (ch : Nat)
  /-- R407. SMBus Read Byte returns the health register that the command code selects. -/
  | readByte (cmd : Nat)
  /-- R407. SMBus Read Word returns a 16-bit health register. -/
  | readWord (cmd : Nat)
  /-- R407. SMBus Block Read returns the registers from the command code onwards as one consistent
  snapshot. -/
  | blockRead (cmd count : Nat)
  /-- R407. SMBus Write Byte writes a writable health register such as ALERT_MASK. -/
  | writeByte (cmd : Nat) (v : Byte)
  /-- R407. A read of the Alert Response Address identifies the device as asserting SMBALERT#. -/
  | alertResponseAddress
  /-- R492. SMBCLK held low for more than 35 ms makes the device release the bus. -/
  | smbusTimeout
  /-- R376. A DOE Discovery request on the mailbox is answered with the supported protocols. -/
  | doeDiscovery
  /-- R376. The SPDM responder answers GET_VERSION. -/
  | getVersion
  /-- R376. The SPDM responder answers GET_CAPABILITIES. -/
  | getCapabilities
  /-- R376. The SPDM responder negotiates ECDSA P-384, SHA-384, ECDHE secp384r1 and AES-256-GCM. -/
  | negotiateAlgorithms
  /-- R376. The SPDM responder returns certificate chain digests. -/
  | getDigests
  /-- R376. The SPDM responder returns its certificate chain. -/
  | getCertificate (off len : Nat)
  /-- R376. The SPDM responder answers a CHALLENGE with its device identity key. -/
  | challenge (nonce : List Byte)
  /-- R464. The SPDM responder returns the measurements of R464. -/
  | getMeasurements (index : Nat)
  /-- R376. The SPDM responder starts a secured session by KEY_EXCHANGE. -/
  | keyExchange (session : Nat)
  /-- R376. The SPDM responder completes session establishment by FINISH. -/
  | finish (session : Nat) (mutualAuth : Bool)
  /-- R376. The SPDM responder answers a session HEARTBEAT. -/
  | heartbeat (session : Nat)
  /-- R376. The SPDM responder updates the session keys. -/
  | keyUpdate (session : Nat)
  /-- R376. The SPDM responder ends a secured session. -/
  | endSession (session : Nat)
  /-- R375. An IDE_KM message over a secured session programs an IDE stream's key set in the key
  store. -/
  | ideKm (session stream keySet : Nat) (key : List Byte)
  /-- R375. K_SET_GO switches an IDE stream between key sets 0 and 1 without losing traffic. -/
  | kSetGo (session stream keySet : Nat)
  /-- R468. A vendor-defined request over a mutually authenticated session installs the image key
  and, if lost, the signing key and floor, clearing KEY_NEEDED. -/
  | keyProvision (session : Nat) (key : List Byte) (keyGen : Nat) (signing : List Byte) (floor : Nat)
  /-- R466. A tamper sensor trips and its configured level acts: recording, key erasure, link drop
  or hold, with ALARM_N and PF0 vector 2. -/
  | tamperAlarm (sensor mask : Nat)
  /-- R410. The two copies of a lockstep pair differ, outputs not yet passed are discarded and the
  cell's island is stopped. -/
  | lockstepMismatch (die cell block : Nat) (lost : Bool)
  /-- R409. An uncorrectable ECC error in main memory, line buffer, block hashes or microcode store
  is reported as a hardware fault. -/
  | uncorrectableError (die cell memory addr : Nat) (lost : Bool)
  /-- R409. A residue check of the pixel, encoder or audio datapath fails and is reported as a
  hardware fault. -/
  | residueMismatch (die cell : Nat) (lost : Bool)
  /-- R420. The checkpoint, log, keys and stream counts reach the reserve and the replay begins in
  dry mode. -/
  | catchReserveLoaded (ch : Nat)
  /-- R420. The replay reaches the channel time of the fault and the chase begins, accepting new
  inputs and sending records. -/
  | faultPointReached (ch : Nat)
  /-- R424. Channel time reaches the due time: pads take their functions, latched edges are
  delivered, RUNNING is restored, CATCHES increments and the encoder resumes. -/
  | goingLive (ch elapsed : Nat) (levels : BitVec 16)
  /-- R426. The active ringmaster fails and the standby takes over management, restarting any catch
  from step 2. -/
  | ringmasterFailover
  /-- R437. The aging monitor reports a timing margin below the limit, now or within 90 days, and a
  planned catch falls due. -/
  | agingMarginLow (die cell margin trend : Nat)
  /-- R428. At a frame boundary with no copy in progress the island pauses, its written pages, state
  record and hashes move to the reserve, and the reserve starts at that tick. -/
  | plannedCatchPause (sight : PauseSight)
  /-- R412. At the I-th frame boundary, or when a nap begins, the dirty-page epoch is switched and a
  checkpoint copy starts. -/
  | checkpointSnapshot (ch : Nat)
  /-- R417. With 40 KB of log records in use, a snapshot is taken at the next line start and the
  interval count restarts. -/
  | forcedCheckpoint (ch : Nat)
  /-- R413. The copy of written pages and the state record completes, the new checkpoint replaces
  the old and older log records are freed. -/
  | checkpointCopyComplete (ch : Nat) (bad : Bool)
  /-- R418. The once-a-second scrub reads the checkpoint slot and log, and an uncorrectable error
  turns the net off for SLOT_ERROR. -/
  | slotScrub (ch : Nat) (bad : Bool)
  /-- R445. The kiln's schedule starts the daily test of a cell or hub block, by rotation or at
  block or cell scope. -/
  | kilnDailyTest (u : KilnUnit)
  /-- R446. An isolated unit is tested by logic and memory BIST, repaired and re-initialised. -/
  | blockScopeTest (u : KilnUnit)
  /-- R446. A block-scope test ends and the unit rejoins its pool, is retired, or the device is
  held. -/
  | kilnTestComplete (u : KilnUnit) (r : TestResult)
  /-- R449. At a frame boundary the channel's island pauses in TESTING and its cell is tested in
  place. -/
  | cellScopeTest (ch : Nat)
  /-- R449. A cell-scope test finishes, state is restored, the island resumes with TESTS incremented
  and a full refresh, or a planned catch or SAFE follows. -/
  | cellScopeTestEnd (ch : Nat) (r : TestResult) (levels : BitVec 16)
  /-- R443. A repair or retirement record is written to the flash within 1 s, waiting for any
  IMAGE_WRITE in progress. -/
  | repairRecordWrite (ok : Bool)
  /-- R161. LINE returns to 0, FRAME increments, the sequencer restarts and the FRAME source is
  raised. -/
  | frameBoundary (ch : Nat)
  /-- R165. The beam reaches (V_ACTIVE, 0) and VBL is set and raised. -/
  | vbl (ch : Nat)
  /-- R189. The blink counter reaches BLINK_HALF, returns to 0 and PHASE toggles. -/
  | blinkToggle (ch : Nat)
  /-- R164. The beam reaches an enabled compare position, BCn is set and its source raised. -/
  | beamCompareMatch (ch n : Nat)
  /-- R171. A write of 1 to BEAM_CTL.COMMIT places a commit on time, late or merged into a pending
  one. -/
  | commit (ch : Nat)
  /-- R173. At (CUT_LINE, 0) a pending commit's snapshot is taken and checked, and refused with
  COMMIT_BAD if any limit is broken. -/
  | cut (ch : Nat)
  /-- R174. A transfer installs the snapshot: horizontal timing and dot clock at (COMMIT_LINE, 0),
  every other framed value at the install tick. -/
  | transfer (ch : Nat)
  /-- R174. At the install tick the framed values take effect and DONE is raised. -/
  | installTick (ch : Nat)
  /-- R177. A raster sequencer WAIT holds until its beam position, then releases. -/
  | rsWait (ch : Nat)
  /-- R177. A raster sequencer WRITE writes a live register at its tick. -/
  | rsWrite (ch : Nat)
  /-- R177. A raster sequencer SKIP skips the next entry when the masked source equals the compare
  value. -/
  | rsSkip (ch : Nat)
  /-- R177. A raster sequencer BRANCH continues at the target entry. -/
  | rsBranch (ch : Nat)
  /-- R177. A raster sequencer END stops the sequencer until the next frame boundary. -/
  | rsEnd (ch : Nat)
  /-- R194. During dots 0 to 63 the sprite search reads the attribute table for the line after next
  and resolves drops at dot 64. -/
  | spriteSearch (ch : Nat)
  /-- R200. Two shown colliding sprites are opaque at one dot, setting COLL_HIT, COLL_PAIR and
  COLL_SS. -/
  | spriteSpriteCollision (ch line dot : Nat)
  /-- R201. A colliding sprite is opaque over a tested opaque plane pixel, setting SP_HIT and
  COLL_SP. -/
  | spritePlaneCollision (ch line dot : Nat)
  /-- R221. A needed source line is not complete at (y, 0), so the previous line is reused, counted,
  raised and logged. -/
  | layerUnderrun (ch l y : Nat)
  /-- R228. The main and guard CRCs of a band are compared and each mismatch updates the guard
  status, may hold the region and notifies the host. -/
  | guardCompare (ch b : Nat)
  /-- R237. 16 dots after the band's last active dot, hashes are compared, the published set is
  coded and sherds leave on each stream. -/
  | bandClose (ch b : Nat)
  /-- R242. A write of 1 to OUT_CTL.REFRESH_ALL requests a full refresh of every stream in the next
  frame. -/
  | refreshAll (ch : Nat)
  /-- R365. A write of 1 to NAP_CTL.REQ requests a nap, and a write of 0 withdraws it. -/
  | napRequest (ch : Nat) (v : Byte)
  /-- R365. At a frame boundary with the core in WAIT, the channel enters NAPPING, or the nap is
  refused if the blitter or DMA is busy. -/
  | napEntry (ch : Nat)
  /-- R344. During a nap an armed pin edge latch catches its edge. -/
  | pinWakeLatch (ch cp : Nat) (rising : Bool)
  /-- R366. During a nap a host arrival for the event FIFO or a line sets a latch. -/
  | hostArrivalLatch (ch : Nat) (line : Bool)
  /-- R368. At the second dot tick after a wake cause, WOKE and NAP_CAUSE are set, NAP is raised and
  the channel is RUNNING from the next tick. -/
  | wake (ch : Nat) (how : NapWake)
  /-- R345. During CATCHING or TESTING a pad's edge latch catches an edge on either polarity. -/
  | pinPauseLatch (ch cp : Nat) (rising : Bool)
  /-- R117. An interrupt, fault or trap is entered in six cycles: window move, frame push on SSP and
  PC loaded from the vector. -/
  | exceptionEntry (ch : Nat)
  /-- R109. A source becomes deliverable while the core waits in WAIT, so the core takes it or
  continues after WAIT and the pace schedule restarts. -/
  | waitEnd (ch : Nat)
  /-- R109. The core executes NOP and changes nothing. -/
  | nop (ch : Nat)
  /-- R60. The core returns to I3:I2 after a delay slot, moving the window back, or raises window
  underflow. -/
  | ret (ch : Nat)
  /-- R121. The core restores PC and STATUS from the frame in four cycles and moves the window back.
  -/
  | rte (ch : Nat)
  /-- R109. The core sets STATUS.GM, with a mode-change shadow. -/
  | setm (ch : Nat)
  /-- R109. The core clears STATUS.GM, with a mode-change shadow. -/
  | clrm (ch : Nat)
  /-- R109. The core enters user mode, with USP in use from the next instruction. -/
  | usr (ch : Nat)
  /-- R109. The core stops fetching until a source of the interrupt controller is deliverable. -/
  | wait (ch : Nat)
  /-- R109. The core enters the handler through vector 128 + n. -/
  | trap (ch : Nat) (n : Byte)
  /-- R63. The core stores the base window's ins and locals on the selected stack. -/
  | spillw (ch : Nat) (b1 : Byte)
  /-- R63. The core loads the window below the base window from the selected stack. -/
  | fillw (ch : Nat) (b1 : Byte)
  /-- R106. The core copies a block of bytes step by step from the globals' source to destination.
  -/
  | mvb (ch : Nat) (b1 : Byte) (stop : Option Nat)
  /-- R107. The core compares two blocks byte by byte and stops at the first difference. -/
  | cmb (ch : Nat) (b1 : Byte) (stop : Option Nat)
  /-- R106. The core fills a block with G6. -/
  | flb (ch : Nat) (b1 : Byte) (stop : Option Nat)
  /-- R90. The core moves a register or immediate byte into a register. -/
  | mov (ch : Nat) (b1 : Byte) (src : ByteSrc)
  /-- R90. The core moves a pair or immediate word into a pair. -/
  | movw (ch : Nat) (b1 : Byte) (src : PairSrc)
  /-- R81. The core loads a byte from a memory operand. -/
  | ld (ch : Nat) (rd : BitVec 5) (m : MemOp)
  /-- R81. The core stores a byte to a memory operand. -/
  | st (ch : Nat) (m : MemOp) (rs : BitVec 5)
  /-- R502. The core loads a pair from a memory operand, low byte first. -/
  | ldw (ch : Nat) (pd : BitVec 5) (m : MemOp)
  /-- R502. The core stores a pair to a memory operand, low byte first. -/
  | stw (ch : Nat) (m : MemOp) (ps : BitVec 5)
  /-- R504. The core writes an effective address into a pair, applying the mode's side effect. -/
  | lea (ch : Nat) (pd : BitVec 5) (m : MemOp)
  /-- R69. The core pushes a byte onto the stack. -/
  | push (ch : Nat) (b1 : Byte)
  /-- R69. The core pops a byte from the stack. -/
  | pop (ch : Nat) (b1 : Byte)
  /-- R69. The core pushes a pair onto the stack. -/
  | pushw (ch : Nat) (b1 : Byte)
  /-- R69. The core pops a pair from the stack. -/
  | popw (ch : Nat) (b1 : Byte)
  /-- R110. The core copies a special register into a register or pair. -/
  | mfs (ch : Nat) (b1 sr : Byte)
  /-- R110. The core copies a register or pair into a special register, under its access rules. -/
  | mts (ch : Nat) (sr b1 : Byte)
  /-- R92. The core exchanges two registers. -/
  | xch (ch : Nat) (b1 b2 : Byte)
  /-- R91. The core adds a byte operand. -/
  | add (ch : Nat) (rd : BitVec 5) (src : ByteSrc)
  /-- R91. The core adds a byte operand with carry. -/
  | adc (ch : Nat) (rd : BitVec 5) (src : ByteSrc)
  /-- R91. The core subtracts a byte operand. -/
  | sub (ch : Nat) (rd : BitVec 5) (src : ByteSrc)
  /-- R91. The core subtracts a byte operand with borrow. -/
  | sbc (ch : Nat) (rd : BitVec 5) (src : ByteSrc)
  /-- R91. The core ANDs a byte operand. -/
  | and (ch : Nat) (rd : BitVec 5) (src : ByteSrc)
  /-- R91. The core ORs a byte operand. -/
  | or (ch : Nat) (rd : BitVec 5) (src : ByteSrc)
  /-- R91. The core XORs a byte operand. -/
  | xor (ch : Nat) (rd : BitVec 5) (src : ByteSrc)
  /-- R91. The core compares bytes and writes only the flags. -/
  | cmp (ch : Nat) (rd : BitVec 5) (src : ByteSrc)
  /-- R91. The core adds a pair operand. -/
  | addw (ch : Nat) (pd : BitVec 5) (src : PairSrc)
  /-- R91. The core adds a pair operand with carry. -/
  | adcw (ch : Nat) (pd : BitVec 5) (src : PairSrc)
  /-- R91. The core subtracts a pair operand. -/
  | subw (ch : Nat) (pd : BitVec 5) (src : PairSrc)
  /-- R91. The core subtracts a pair operand with borrow. -/
  | sbcw (ch : Nat) (pd : BitVec 5) (src : PairSrc)
  /-- R91. The core ANDs a pair operand. -/
  | andw (ch : Nat) (pd : BitVec 5) (src : PairSrc)
  /-- R91. The core ORs a pair operand. -/
  | orw (ch : Nat) (pd : BitVec 5) (src : PairSrc)
  /-- R91. The core XORs a pair operand. -/
  | xorw (ch : Nat) (pd : BitVec 5) (src : PairSrc)
  /-- R91. The core compares pairs and writes only the flags. -/
  | cmpw (ch : Nat) (pd : BitVec 5) (src : PairSrc)
  /-- R91. The core increments a register. -/
  | inc (ch : Nat) (rd : BitVec 5)
  /-- R91. The core decrements a register. -/
  | dec (ch : Nat) (rd : BitVec 5)
  /-- R94. The core negates a register. -/
  | neg (ch : Nat) (rd : BitVec 5)
  /-- R91. The core inverts a register. -/
  | not (ch : Nat) (rd : BitVec 5)
  /-- R91. The core clears a register. -/
  | clr (ch : Nat) (rd : BitVec 5)
  /-- R91. The core sets the flags from a register. -/
  | tst (ch : Nat) (rd : BitVec 5)
  /-- R91. The core exchanges the nibbles of a register. -/
  | swapn (ch : Nat) (rd : BitVec 5)
  /-- R91. The core increments a pair. -/
  | incw (ch : Nat) (pd : BitVec 5)
  /-- R91. The core decrements a pair. -/
  | decw (ch : Nat) (pd : BitVec 5)
  /-- R94. The core negates a pair. -/
  | negw (ch : Nat) (pd : BitVec 5)
  /-- R91. The core inverts a pair. -/
  | notw (ch : Nat) (pd : BitVec 5)
  /-- R91. The core clears a pair. -/
  | clrw (ch : Nat) (pd : BitVec 5)
  /-- R91. The core sets the flags from a pair. -/
  | tstw (ch : Nat) (pd : BitVec 5)
  /-- R91. The core sign-extends the low register of a pair. -/
  | sexw (ch : Nat) (pd : BitVec 5)
  /-- R91. The core clears the high register of a pair. -/
  | zexw (ch : Nat) (pd : BitVec 5)
  /-- R95. The core shifts a register left by a byte count. -/
  | shl (ch : Nat) (rd : BitVec 5) (count : ByteSrc)
  /-- R95. The core shifts a register right logically. -/
  | shr (ch : Nat) (rd : BitVec 5) (count : ByteSrc)
  /-- R95. The core shifts a register right arithmetically. -/
  | sar (ch : Nat) (rd : BitVec 5) (count : ByteSrc)
  /-- R95. The core rotates a register left. -/
  | rol (ch : Nat) (rd : BitVec 5) (count : ByteSrc)
  /-- R95. The core rotates a register right. -/
  | ror (ch : Nat) (rd : BitVec 5) (count : ByteSrc)
  /-- R95. The core rotates a register left through C. -/
  | rcl (ch : Nat) (rd : BitVec 5) (count : ByteSrc)
  /-- R95. The core rotates a register right through C. -/
  | rcr (ch : Nat) (rd : BitVec 5) (count : ByteSrc)
  /-- R95. The core shifts a pair left. -/
  | shlw (ch : Nat) (pd : BitVec 5) (count : ByteSrc)
  /-- R95. The core shifts a pair right logically. -/
  | shrw (ch : Nat) (pd : BitVec 5) (count : ByteSrc)
  /-- R95. The core shifts a pair right arithmetically. -/
  | sarw (ch : Nat) (pd : BitVec 5) (count : ByteSrc)
  /-- R95. The core rotates a pair left. -/
  | rolw (ch : Nat) (pd : BitVec 5) (count : ByteSrc)
  /-- R95. The core rotates a pair right. -/
  | rorw (ch : Nat) (pd : BitVec 5) (count : ByteSrc)
  /-- R95. The core rotates a pair left through C. -/
  | rclw (ch : Nat) (pd : BitVec 5) (count : ByteSrc)
  /-- R95. The core rotates a pair right through C. -/
  | rcrw (ch : Nat) (pd : BitVec 5) (count : ByteSrc)
  /-- R96. The core multiplies unsigned into a pair. -/
  | mul (ch : Nat) (pd : BitVec 5) (b2 : Byte)
  /-- R96. The core multiplies signed into a pair. -/
  | muls (ch : Nat) (pd : BitVec 5) (b2 : Byte)
  /-- R96. The core divides a pair by a register, unsigned, with the edge results of R94. -/
  | div (ch : Nat) (pd : BitVec 5) (b2 : Byte)
  /-- R96. The core divides a pair by a register, signed, truncating towards zero. -/
  | divs (ch : Nat) (pd : BitVec 5) (b2 : Byte)
  /-- R97. The core extracts a bit field. -/
  | bfx (ch : Nat) (b1 b2 b3 : Byte)
  /-- R97. The core inserts a bit field. -/
  | bfi (ch : Nat) (b1 b2 b3 : Byte)
  /-- R98. The core counts leading zeros. -/
  | clz (ch : Nat) (b1 b2 : Byte)
  /-- R99. The core permutes the bytes of a quad. -/
  | bperm (ch : Nat) (b1 : Byte) (sel : ByteSrc)
  /-- R100. The core jumps after one delay slot. -/
  | jmp (ch : Nat) (dst : JumpDst)
  /-- R60. The core writes the return address, moves the window and jumps after a delay slot, or
  raises window overflow. -/
  | call (ch : Nat) (dst : JumpDst)
  /-- R103. The core starts a hardware loop, setting LSTART, LEND, LCNT and LP. -/
  | loop (ch : Nat) (count : LoopCount) (u8 : Byte)
  /-- R102. The core takes a short conditional branch when its condition holds. -/
  | bcc (ch : Nat) (cond : BitVec 4) (d8 : Byte)
  /-- R102. The core takes a long conditional branch when its condition holds. -/
  | bccL (ch : Nat) (b1 : Byte) (d16 : Half)
  /-- R142. The core executes a customer opcode by running its microcode until END, ENDJ or ENDR. -/
  | uop (ch : Nat) (n : BitVec 5) (b1 b2 b3 : Byte)
  /-- R140. A write to DT_ENTRY's high byte writes both bytes into decode-table entry DT_INDEX. -/
  | dtEntryWrite (ch : Nat) (v : Byte)
  /-- R140. A write to UC_DATA byte 3 writes the microcode word at UC_ADDR and increments UC_ADDR.
  -/
  | ucDataWrite (ch : Nat) (v : Byte)
  /-- R140. A read of UC_DATA byte 0 latches bytes 1 to 3, and a read of byte 3 increments UC_ADDR.
  -/
  | ucDataRead (ch k : Nat)
  /-- R139. A write of 1 to UC_CTL.LOCK makes the decode, microcode and pace tables read-only until
  the next cast. -/
  | ucCtlLock (ch : Nat)
  /-- R156. A write to PT_DATA sets the pace cost of opcode PT_INDEX and increments PT_INDEX. -/
  | ptDataWrite (ch : Nat) (v : Byte)
  /-- R150. A write of PACE_NUM or PACE_DEN clears the accumulator at the next dot tick and restarts
  the schedule. -/
  | paceRateWrite (ch : Nat) (den : Bool) (v : Byte)
  /-- R152. A write that sets PACE_CTL.PACED from 0 to 1 restarts the schedule. -/
  | pacedWrite (ch : Nat) (v : Byte)
  /-- R213. A write of PAL_HI writes palette entry PAL_INDEX in both renderers and increments
  PAL_INDEX. -/
  | palHiWrite (ch : Nat) (v : Byte)
  /-- R214. A write of TBL_DATA writes entry TBL_INDEX of table TBL_SEL and increments TBL_INDEX. -/
  | tblDataWrite (ch : Nat) (v : Byte)
  /-- R274. A write of 1 to GO starts a register-mode command or a list, or sets GO_LOST while busy.
  -/
  | bltGo (ch : Nat)
  /-- R274. In list mode the blitter fetches the next 32-byte command and checks it. -/
  | bltCommandFetch (ch : Nat)
  /-- R268. The blitter runs NOP and draws nothing. -/
  | bltNop (ch : Nat)
  /-- R272. The blitter copies a source rectangle in the overlap-safe order. -/
  | copy (ch : Nat) (units : Option Nat)
  /-- R268. The blitter fills a rectangle with FG. -/
  | fill (ch : Nat) (units : Option Nat)
  /-- R268. The blitter fills a rectangle from an 8 × 8 pattern. -/
  | patfill (ch : Nat) (units : Option Nat)
  /-- R271. The blitter draws a line with FG. -/
  | line (ch : Nat) (units : Option Nat)
  /-- R268. The blitter copies a rectangle, leaving pixels equal to FG unwritten. -/
  | keycopy (ch : Nat) (units : Option Nat)
  /-- R268. The blitter expands a 1 bpp source into FG and BG. -/
  | expand (ch : Nat) (units : Option Nat)
  /-- R270. The blitter sets a clip rectangle. -/
  | setclip (ch : Nat)
  /-- R268. The blitter continues the list at SBASE. -/
  | bltJump (ch : Nat)
  /-- R274. A blitter command completes, raising BLT if IRQ is set, and the list goes on or stops.
  -/
  | bltCommandEnd (ch : Nat)
  /-- R274. A write of 1 to ABORT ends the blit at the current word or pixel and clears BUSY. -/
  | bltAbort (ch : Nat)
  /-- R277. A write to a stream's DESC_PTR while enabled and not busy starts the descriptor written.
  -/
  | descPtrWrite (ch n : Nat) (v : BitVec 24)
  /-- R279. A DMA stream fetches its next descriptor and runs it or rejects it with cause 5h. -/
  | dmaDescriptorFetch (ch n : Nat)
  /-- R278. A stream's request source latches an event or its level holds, and one unit moves. -/
  | dmaRequest (ch n : Nat)
  /-- R280. A DMA unit of pieces completes, and the stream waits for its next request. -/
  | dmaUnitComplete (ch n : Nat) (bad : Option Nat)
  /-- R281. A descriptor completes, a completion record is written and the stream goes on to NEXT or
  idles. -/
  | dmaDescriptorComplete (ch n : Nat)
  /-- R281. A write to CR_RD frees ring entries, letting a stream waiting on CR_FULL continue. -/
  | crRdWrite (ch n : Nat) (v : Half)
  /-- R284. A write to CR_BASE or CR_SIZE sets CR_WR to 0 and PHASE to 1. -/
  | crBaseWrite (ch n : Nat) (toSize : Bool) (v : BitVec 24)
  /-- R283. A write of 0 to CTL.EN drops the stream at once and starts the drop drain. -/
  | dmaStreamDrop (ch n : Nat)
  /-- R283. The drop drain ends, STREAM_BUSY clears and a held EN restarts the stream. -/
  | dmaDropDrainEnd (ch n : Nat)
  /-- R352. The prescaler accumulator reaches Q and the timer count advances. -/
  | timerCountingTick (ch n : Nat)
  /-- R350. The count equals the reload and wraps to 0, installing held values and driving wrap
  triggers. -/
  | timerWrap (ch n : Nat)
  /-- R354. The count arrives at a compare value, setting MATCHA or MATCHB and driving outputs and
  triggers. -/
  | timerMatch (ch n : Nat) (unitB : Bool)
  /-- R355. A capture event copies the count into the capture register, or holds it pending during a
  read. -/
  | timerCapture (ch n : Nat) (unitB duringRead : Bool)
  /-- R355. A pending capture value is written at the first I/O clock after the read's core cycle.
  -/
  | capturePendingWrite (ch n : Nat)
  /-- R353. Another timer's sync trigger sets the count to 0, clears the accumulator and installs
  held values. -/
  | timerResync (ch n : Nat)
  /-- R362. A write of a source number to EOI clears its ACTIVE bit, or counts a spurious EOI. -/
  | eoi (ch : Nat) (v : Byte)
  /-- R359. A write of 1 to a SOFT bit raises SOFTn. -/
  | soft (ch : Nat) (v : Byte)
  /-- R363. A moderated source's hold ends at its MOD_N-th raise or MOD_T-th reference tick. -/
  | moderationHoldEnd (ch src : Nat) (byTick : Bool)
  /-- R290. A tone counter reaches 0, reloads from PER and advances its phase. -/
  | toneReload (ch v : Nat)
  /-- R291. The noise counter reloads and steps the shift register. -/
  | noiseStep (ch : Nat)
  /-- R292. A wave counter reloads and advances POS. -/
  | waveAdvance (ch w : Nat)
  /-- R293. A CLICK write is accepted at the next chip tick and sets the click level. -/
  | clickAccept (ch : Nat)
  /-- R294. A write to PCM_DATA pushes one byte into the PCM FIFO, or sets OVR when full. -/
  | pcmData (ch : Nat) (v : Byte)
  /-- R294. A sample-conversion trigger pops one PCM sample, or is ignored, or repeats the last
  sample on underrun. -/
  | pcmTrigger (ch clocks : Nat)
  /-- R294. 250 µs pass without an accepted trigger, setting SLOW. -/
  | pcmSlow (ch : Nat)
  /-- R298. A change of a node's target starts a 32-tick gain ramp. -/
  | nodeGainWrite (ch : Nat) (v : Half)
  /-- R299. A write of ROUTE_MOVE moves a route from one output to another over 32 ticks. -/
  | routeMove (ch : Nat) (v : Half)
  /-- R300. A write to BQ_APPLY installs an output's shadow biquad coefficients at the next mix
  tick. -/
  | bqApply (ch : Nat) (v : Byte)
  /-- R306. 48 mix ticks complete a host-out packet, which leaves for the AUQ ring after its checks.
  -/
  | audioPacket (ch : Nat)
  /-- R305. A 48-tick pin-in window ends, and too many empty or full ticks refuse the input. -/
  | pinInWindow (ch : Nat)
  /-- R308. A read of LB_DATA byte 0 pops a loopback frame and latches the rest. -/
  | lbDataRead (ch : Nat)
  /-- R319. A PIO engine jumps when its condition holds. -/
  | pioJmp (ch n : Nat)
  /-- R319. A PIO engine stalls until a pin, flag or timer trigger holds. -/
  | pioWait (ch : Nat) (cycle : FlagCycle)
  /-- R320. A PIO engine shifts bits into RS, with automatic push. -/
  | pioIn (ch n : Nat)
  /-- R320. A PIO engine shifts bits out of TS to a destination, with automatic pull. -/
  | pioOut (ch n : Nat)
  /-- R319. A PIO engine writes RS into its receive queue. -/
  | pioPush (ch n : Nat)
  /-- R319. A PIO engine loads TS from its transmit queue. -/
  | pioPull (ch n : Nat)
  /-- R319. A PIO engine moves a value between registers, pins or PC. -/
  | pioMov (ch n : Nat)
  /-- R319. A PIO engine sets pins, directions or a register from immediate data. -/
  | pioSet (ch n : Nat)
  /-- R319. A PIO engine sets, clears, inverts or waits on a flag. -/
  | pioIrq (ch : Nat) (cycle : FlagCycle)
  /-- R319. A PIO engine exchanges two registers. -/
  | pioExch (ch n : Nat)
  /-- R317. A write of a program word's high byte writes the word and may set TORN for enabled
  engines. -/
  | programStoreWrite (ch word : Nat) (v : Byte)
  /-- R326. A write of PIO_CTL enables, disables or restarts engines. -/
  | pioCtlWrite (ch : Nat) (v : Byte)
  /-- R314. A write of CLKSYNC clears the named engines' divider accumulators. -/
  | clksync (ch : Nat) (v : Byte)
  /-- R324. A write of PIO_IRQ_FORCE sets flags. -/
  | pioIrqForce (ch : Nat) (v : Byte)
  /-- R323. A write of TXF byte 3 appends a word to the transmit queue, or sets TX_OVR. -/
  | txf (ch n : Nat) (v : Byte)
  /-- R323. A read of RXF byte 0 removes the oldest receive entry, or sets RX_UNDER. -/
  | rxf (ch n : Nat)
  /-- R338. N equal samples differ from the delivered level, so the level changes, is logged and may
  set IRQ_PEND. `samples` are the pin's latest 16 samples, latest in bit 0, `tick` the sample tick and `window` the storm
  window (R342) in which they end. -/
  | pinLevelChange (ch cp : Nat) (samples : BitVec 16) (tick window : Nat)
  /-- R341. An armed level-mode pin is active at a sample tick, setting IRQ_PEND and disarming. -/
  | pinLevelIrq (ch cp : Nat)
  /-- R343. The masked pin word meets the PM_CTL condition at a sample tick, setting MATCH and
  capturing PIN_IN. `first` marks the first tick after a write of the pattern's registers. -/
  | patternMatch (ch tick : Nat) (first : Bool)
  /-- R337. A write to GPIO_SET sets GPIO_OUT bits. -/
  | gpioSet (ch : Nat) (hi : Bool) (v : Byte)
  /-- R337. A write to GPIO_CLR clears GPIO_OUT bits. -/
  | gpioClr (ch : Nat) (hi : Bool) (v : Byte)
  /-- R337. A write to GPIO_TGL inverts GPIO_OUT bits. -/
  | gpioTgl (ch : Nat) (hi : Bool) (v : Byte)
  /-- R336. A write that changes a pin's FUNC, OD, PULL or DRIVE switches the pad through its hold
  latch without a glitch. -/
  | functionChange (ch n : Nat) (v : Byte)
  /-- R346. A write to PINLOCK advances or completes the 5Ah, A5h lock sequence. -/
  | pinlock (ch : Nat) (v : Byte)
  /-- R389. A read of EVF_DATA byte 0 removes the oldest event and latches bytes 1 to 7. -/
  | evfDataRead (ch : Nat)
  /-- R390. A read of a line's DATA removes one receive byte, or sets RX_UNDER. -/
  | lineDataRead (ch l : Nat)
  /-- R390. A write of a line's DATA appends a transmit byte, or sets TX_OVR. -/
  | lineDataWrite (ch l : Nat) (v : Byte)
  /-- R457. A write of 1 to CR_CTL.GO starts the operation that OP selects, unless busy. -/
  | crGo (ch : Nat) (v : Byte)
  /-- R457. The crypto unit encrypts in ECB mode. -/
  | ecbEncrypt (ch : Nat)
  /-- R457. The crypto unit decrypts in ECB mode. -/
  | ecbDecrypt (ch : Nat)
  /-- R457. The crypto unit encrypts in CBC mode. -/
  | cbcEncrypt (ch : Nat)
  /-- R457. The crypto unit decrypts in CBC mode. -/
  | cbcDecrypt (ch : Nat)
  /-- R457. The crypto unit processes data in AES CTR mode. -/
  | ctr (ch : Nat)
  /-- R457. The crypto unit computes an AES CMAC. -/
  | cmac (ch : Nat)
  /-- R457. The crypto unit computes a TDES MAC Algorithm 3. -/
  | macAlgorithm3 (ch : Nat)
  /-- R458. The crypto unit unwraps a key into slot KEY2 by RFC 3394. -/
  | unwrap (ch : Nat)
  /-- R457. The crypto unit empties slot KEY. -/
  | erase (ch : Nat)
  /-- R460. A crypto operation completes, setting DONE and raising CRYPTO. -/
  | cryptoDone (ch : Nat)
  /-- R462. A write of 1 to CR_CTL.ABORT ends the operation and clears both FIFOs. -/
  | crAbort (ch : Nat)
  /-- R462. A write to CR_DIN pushes a byte into the input FIFO, or sets OVR. -/
  | crDin (ch : Nat) (v : Byte)
  /-- R462. A read of CR_DOUT pops a byte from the output FIFO. -/
  | crDout (ch : Nat)
  /-- R6. A write to a register without a row of its own acts by its access code, including hold
  writes by R500. -/
  | registerWrite (w : RegWrite)
  /-- R87. The core fetches a reserved opcode (07h, 0Eh, 0Fh, 3Ah–6Fh, 80h–DFh), fetches no further
  byte and raises the illegal-instruction exception. The command carries the bytes at the PC, so that it also stands
  for an opcode with a reserved op field (R91) and for a UOP that is not defined, whose length R505 gives. -/
  | reservedOpcode (ch : Nat) (op : Byte) (rest : OpcodeRest)
  /-- R287. At each 48 kHz mix tick the bridges deliver samples, the crosspoint, ramps, biquads and
  limiters run, host-in and pin-in each take a frame or word (or set UNDER), and the loopback FIFO
  is pushed (or sets OVR) and may raise AUD_LB. -/
  | mixTick (ch since : Nat)
  /-- R307. A PWM period of PWM_PER I/O clocks starts, takes the output's latest sample and drives
  the pin high for the computed number of clocks, then low. -/
  | pwmPeriod (ch n : Nat)
  /-- R465. A tripped tamper sensor clears. After 1 ms it may raise a new alarm, and with no sensor
  tripped ALARM_N is released if READ_SECURITY has returned every record. -/
  | sensorClear (sensor : Nat)
  /-- R370. A PCI Express lane fails and the link down-trains to the widest of ×16, ×8 and ×4 whose
  lanes all work. -/
  | laneFailure (lanes : BitVec 16)
  /-- R380. A completion for a host memory read issued by the hub arrives with data or with an
  error, and the entry, samples or source lines it carries are delivered or the read is treated as
  failed. -/
  | readCompletion (ch : Nat) (t : ReadTarget) (data : Option (List Byte))
  /-- R380. A host read that does not complete is abandoned, setting ERRC 3h and disarming the
  queue, or counting as an underrun and fetch error for a layer. -/
  | readDoesNotComplete (ch : Nat) (t : ReadTarget)
deriving DecidableEq, Repr

end Sys2Proof
end

