-- ==== Sys2Proof/Decode.lean ====
section
/-! DEFINITION. The command that a word spells by the table's bits, and the reading of Voleth
instruction bytes by R88 to R91 (which DBG_STEP uses). -/

namespace Sys2Proof

/-- No row of the table gives bits, so no word spells a command. -/
def decodeTableWord (_nbits _w : Nat) : Option Instr := none

/-- The ALU operation of an op field (R91). -/
def aluOfField (f : BitVec 3) : AluOp :=
  match f.toNat with
  | 0 => .add
  | 1 => .adc
  | 2 => .sub
  | 3 => .sbc
  | 4 => .and
  | 5 => .or
  | 6 => .xor
  | _ => .cmp

def unOfField (f : BitVec 3) : Option UnOp :=
  match f.toNat with
  | 0 => some .inc
  | 1 => some .dec
  | 2 => some .neg
  | 3 => some .not
  | 4 => some .clr
  | 5 => some .tst
  | 6 => some .swapn
  | _ => none

def unwOfField (f : BitVec 3) : UnwOp :=
  match f.toNat with
  | 0 => .inc
  | 1 => .dec
  | 2 => .neg
  | 3 => .not
  | 4 => .clr
  | 5 => .tst
  | 6 => .sex
  | _ => .zex

def shOfField (f : BitVec 3) : Option ShOp :=
  match f.toNat with
  | 0 => some .shl
  | 1 => some .shr
  | 2 => some .sar
  | 3 => some .rol
  | 4 => some .ror
  | 5 => some .rcl
  | 6 => some .rcr
  | _ => none

/-- The Voleth instruction that starts with opcode byte `b0` and goes on with `b1`, `b2` and `b3`,
by the opcode map of R90 and the op fields of R91. Bytes beyond the instruction's length are
not used. -/
def decodeVoleth (b0 b1 b2 b3 : Byte) : VInstr :=
  let op : BitVec 3 := b1.extractLsb' 5 3
  let r1 : BitVec 5 := b1.setWidth 5
  let n16 : Half := b3 ++ b2
  let d16 : Half := b2 ++ b1
  let m : MemOp := { mode := op, b2 := b2, b3 := b3 }
  match b0.toNat with
  | 0x00 => .nop
  | 0x01 => .ret
  | 0x02 => .rte
  | 0x03 => .setm
  | 0x04 => .clrm
  | 0x05 => .usr
  | 0x06 => .wait
  | 0x08 => .trap b1
  | 0x09 => .spillw b1
  | 0x0A => .fillw b1
  | 0x0B => .mvb b1
  | 0x0C => .cmb b1
  | 0x0D => .flb b1
  | 0x10 => .mov b1 (.reg b2)
  | 0x11 => .mov b1 (.imm b2)
  | 0x12 => .movw b1 (.pair b2)
  | 0x13 => .movw b1 (.imm n16)
  | 0x14 => .ld r1 m
  | 0x15 => .st m r1
  | 0x16 => .ldw r1 m
  | 0x17 => .stw m r1
  | 0x18 => .lea r1 m
  | 0x19 => .push b1
  | 0x1A => .pop b1
  | 0x1B => .pushw b1
  | 0x1C => .popw b1
  | 0x1D => .mfs b1 b2
  | 0x1E => .mts b2 b1
  | 0x1F => .xch b1 b2
  | 0x20 => .alu (aluOfField op) r1 (.reg b2)
  | 0x21 => .alu (aluOfField op) r1 (.imm b2)
  | 0x22 => .aluw (aluOfField op) r1 (.pair b2)
  | 0x23 => .aluw (aluOfField op) r1 (.imm n16)
  | 0x24 => match unOfField op with
    | some u => .un u r1
    | none => .reservedField 2
  | 0x25 => .unw (unwOfField op) r1
  | 0x26 => match shOfField op with
    | some o => .sh o r1 (.imm b2)
    | none => .reservedField 3
  | 0x27 => match shOfField op with
    | some o => .sh o r1 (.reg b2)
    | none => .reservedField 3
  | 0x28 => match shOfField op with
    | some o => .shw o r1 (.imm b2)
    | none => .reservedField 3
  | 0x29 => match shOfField op with
    | some o => .shw o r1 (.reg b2)
    | none => .reservedField 3
  | 0x2A => if op.toNat < 2 then .mul (op == 1#3) r1 b2 else .reservedField 3
  | 0x2B => if op.toNat < 2 then .div (op == 1#3) r1 b2 else .reservedField 3
  | 0x2C => .bfx b1 b2 b3
  | 0x2D => .bfi b1 b2 b3
  | 0x2E => .clz b1 b2
  | 0x2F => .bpermI b1 b2
  | 0x30 => .jmp (.rel d16)
  | 0x31 => .jmp (.pair b1)
  | 0x32 => .jmp (.abs d16)
  | 0x33 => .call (.rel d16)
  | 0x34 => .call (.pair b1)
  | 0x35 => .call (.abs d16)
  | 0x36 => .loop (.imm d16) b3
  | 0x37 => .loop (.pair b1) b2
  | 0x38 => .bccL b1 n16
  | 0x39 => .bpermR b1 b2
  | n =>
    if 0x70 ≤ n ∧ n ≤ 0x7F then .bcc (b0.setWidth 4) b1
    else if 0xE0 ≤ n then .uop (b0.setWidth 5) b1 b2 b3
    else .reservedOpcode b0

end Sys2Proof
end

