-- ==== Sys2Proof/Config.lean ====
section
/-! DEFINITION. What the manual leaves open: one opaque constant for each value, applied to what it
may depend on. Nothing can be proved of the value of any of them. -/

namespace Sys2Proof.Config

/-- Bytes OPB1 to OPB3 beyond a UOP's length (R145 states none); assumption 11. -/
opaque unfetchedOperand : Nat → Byte

/-- A bridge's Q1.23 sample (R295 gives masks, not coefficients): the linear-phase decimator or the minimum-phase
bridge, the counts of mix ticks and chip ticks, and the changes of the source's value by chip tick; assumption 30. -/
opaque bridge : (linear : Bool) → (mixTick chipTick : Nat) → (history : List (Nat × Int)) → BitVec 24

/-- The 4-point cubic of R296, whose coefficients are not given: the four latest samples, latest
first, and the fraction in 64ths; assumption 31. -/
opaque cubic : (samples : List Int) → (fraction : Nat) → BitVec 24

/-- Which neighbour a rounding to nearest takes on a tie (R297, R300); assumption 32. -/
opaque tieUp : Int → Bool

/-- Whether an inexact quotient or product of the limiter is rounded up (R301); assumption 32. -/
opaque limiterUp : (num den : Int) → Bool

/-- A 16-bit count that passes FFFFh, where the manual states neither a wrap nor a saturation (R294,
R301, R302, R304): by register and count; assumption 33. -/
opaque countPast : (addr count : Nat) → Half

/-- Pieces of the current unit that a dropped DMA stream has still moved (R283); assumption 27. -/
opaque droppedPieces : Nat → Nat

/-- Whether a dropped DMA stream keeps a pending request (R283); assumption 27. -/
opaque keepsRequest : Nat → Bool

/-- SIDE in the record of a descriptor that was not run (R281 states none); assumption 28. -/
opaque sideNotRun : Nat → Bool

/-- A service sample during a fade of 32 samples (R309 gives no curve): the sample, the step; assumption 34. -/
opaque fade : (sample : Int) → (step : Nat) → (rising : Bool) → BitVec 24

/-- CR_ERRC of a MAC Algorithm 3 refused for its padding method (R462 gives no code); assumption 41. -/
opaque padCode : BitVec 4

/-- Whether MAC Algorithm 3 under a three-key slot ends with the third key (R457); assumption 41. -/
opaque macUsesThirdKey : Bool

/-- Seconds of uptime that pass between two readings, the hottest junction and the package power (R408): values of
the world that no command carries; assumption 42. -/
opaque secondsPassed : Nat → Nat
opaque junction : Nat → Half
opaque packagePower : Nat → Half

/-- Errors corrected in a cell since the reading before, and the days since its last test (R437): by
reading, die and cell; assumption 42. -/
opaque corrections : (reading die cell : Nat) → Nat
opaque daysSinceTest : (reading die cell : Nat) → Half

/-- RATE and DAYS of the forecast (R438 states no formula): by reading and die; assumption 43. -/
opaque forecastRate : (reading die : Nat) → Half
opaque forecastDays : (reading die : Nat) → Half

/-- A health register at a command code that R408 does not list; assumption 44. -/
opaque unlistedHealth : (reading code : Nat) → Byte

/-- How READ_COUNTERS lays out the counts of R258, which states none: each channel with its streams' sherds,
blocks, payload bytes, discards and full refreshes; assumption 45. -/
opaque countsLayout : List (Nat × List (List Nat)) → List Byte

/-- How the status of READ_SECURITY names the items present in the key store (R467 gives no bits); assumption 46. -/
opaque itemsPresent : List Bool → Word

/-- What attestation uses and the manual does not give (R376, R464): the device's certificate chain, its
signature, and the firmware and fuse bytes that are measured; assumption 47. -/
opaque certificateChain : List Byte
opaque deviceSignature : List Byte → List Byte
opaque firmware : (kiln : Bool) → List Byte
opaque fuses : List Byte

/-- A dword of a function's configuration space whose value the manual does not give (R372); assumption 121. -/
opaque configSpace : (fn off : Nat) → Word

end Sys2Proof.Config
end

