-- ==== Sys2Proof/Machine/State.lean ====
section
/-! DEFINITION. The state of a Balnis part as plain data: the cells, the channels, the hub and the dies, with
what each holds after reset. -/

namespace Sys2Proof.Machine

/-- The kind of jump whose delay slot comes next (R100). -/
inductive JumpKind where
  | jmp | call | ret
deriving DecidableEq, Repr

/-- A jump that waits for its delay slot: its target, the address of the jump itself (the saved PC
of a fault in the slot, R123) and its kind. -/
structure Slot where
  target : Half
  jumpPc : Half
  kind : JumpKind
deriving DecidableEq, Repr

/-- The Voleth core: R56 to R69, R109, R125, R128, R134, R137, R138, R149 to R156. -/
structure Core where
  /-- G0 to G7, keyed 0 to 7 (R56). -/
  g : Bytes
  /-- P0 to P239 (R59). -/
  p : Bytes
  pc : Half
  status : Byte
  /-- CWP, 0 to 19 (R65). -/
  cwp : Nat
  wsaved : Byte
  /-- WRES, 1 to 19 (R61). -/
  wres : Nat
  ssp : Half
  usp : Half
  lcnt : Half
  lstart : Half
  lend : Half
  excInfo : Byte
  /-- The jump whose delay slot is the next instruction (R100). -/
  slot : Option Slot
  /-- The next instruction is a mode-change shadow (R125). -/
  shadow : Bool
  /-- The core waits in WAIT (R109). -/
  waiting : Bool
  /-- The core is locked up by a double fault (R128). -/
  lockup : Bool
  /-- The core is halted by debug (R134). -/
  debugHalt : Bool
  /-- A DBG_HALT waits for the next interruptible boundary (R132). -/
  haltRequest : Bool
  /-- The breakpoint address that the core resumes from without halting again (R137). -/
  resumeAt : Option Half
  /-- The decode table, entry n at bytes 2n and 2n + 1 (R138). -/
  decodeTable : Bytes
  /-- The microcode store, word n at bytes 4n to 4n + 3 (R139). -/
  microcode : Bytes
  /-- The pace table, one cost for each opcode (R156). -/
  paceTable : Bytes
  /-- The pace accumulator of R149. -/
  paceAcc : Nat
  /-- The pace count P of R149. -/
  paceCount : Word
  /-- PACE_NUM or PACE_DEN was written, and the next dot tick clears the accumulator (R150). -/
  paceRestart : Bool
  /-- The scheduled start S of the next instruction (R151). -/
  sched : Word
  /-- SLIP exceeded SLIP_THRESH at the previous instruction start (R153). -/
  slipOver : Bool
  /-- Busy core cycles of this frame; the core cycles of its part before the latest transfer, and the channel time
  from which the rest counts (R155). -/
  busy : Nat
  spent : Nat
  spentFrom : Nat
  /-- An exception entry came last: its last cycle is no interruptible boundary (R118). -/
  afterEntry : Bool
  /-- A debug step whose delay slot or shadow still waits for its pace (R135). -/
  stepping : Bool
  /-- The instruction in progress has restarted the schedule by PACE_CTL (R152). -/
  repaced : Bool
deriving DecidableEq, Repr

/-- What a live write does when it takes effect at a fetch boundary (R167, R213, R214). -/
inductive LiveOp where
  | byte (addr : Nat) (v : Byte)
  | palette (index : Nat) (colour : Word)
  | table (sel index : Nat) (v : Half)
deriving DecidableEq, Repr

/-- A live write that no fetch boundary has applied yet: the channel time of its acceptance, whether
the raster sequencer made it, and its effect. -/
structure LiveWrite where
  accepted : Nat
  bySequencer : Bool
  op : LiveOp
deriving DecidableEq, Repr

/-- A write to a framed register's shadow: when it is accepted, the address, and the byte before it.
The cut excludes writes accepted at its own tick (R173). -/
structure ShadowWrite where
  accepted : Nat
  addr : Nat
  old : Byte
deriving DecidableEq, Repr

/-- The beam's counters and commits: R161 to R174. -/
structure Beam where
  line : Nat
  dot : Nat
  ctime : Nat
  frame : Nat
  /-- The tick of a frame boundary is in progress; the (0, 0) of the cast and that of a wake are none (R53, R366). -/
  boundary : Bool
  /-- The actions of the present tick's start have been made; false at tick (0, 0) until the beam
  leaves it, because the events of the frame boundary come first. -/
  entered : Bool
  /-- The events already made at the present tick. -/
  done : List Nat
  /-- The frames f for whose transfer T(f) a commit is pending (R171). -/
  commits : List Nat
  /-- Framed writes accepted at the present tick or later. -/
  shadowLog : List ShadowWrite
  /-- The snapshot taken at the cut, until the install tick (R173). -/
  snap : Option Bytes
  /-- The channel time of the install tick of the transfer in progress (R174). -/
  installAt : Option Nat
  /-- The frame ends at the end of this line (R174). -/
  endFrame : Bool
  /-- That end is before V_TOTAL - 1, so that lines 0 and 1 have had no sprite search (R196). -/
  earlyEnd : Bool
  /-- The transfer in progress changes H_ACTIVE or V_ACTIVE, and any geometry register. -/
  resized : Bool
  geometry : Bool
  /-- The channel times from which BC0 and BC1 as last written are accepted (R164). -/
  bcAccepted : List Nat
  /-- BC0 and BC1 as they were before that write, compared up to the tick of its acceptance (R164). -/
  bcOld : List Nat
  /-- The frame counter of the blink generator (R189). -/
  blinkCount : Nat
  /-- Live writes not yet in effect. -/
  pendLive : List LiveWrite
deriving DecidableEq, Repr

/-- The raster sequencer: R175 to R179. -/
structure Sequencer where
  run : Bool
  /-- The entry to execute next, or the WAIT holding (RS_PC). -/
  pc : Nat
  /-- The channel time at which that entry executes. -/
  ready : Nat
  /-- The entry as read at that tick (R179), and the beam position there. -/
  word : Option Word
  posLine : Nat
  posDot : Nat
  /-- The position of a WAIT exists under the geometry of the tick at which it executes (R177). -/
  reachable : Bool
  /-- Entries begun in this frame (R178). -/
  count : Nat
deriving DecidableEq, Repr

/-- A sprite kept for a line (R191, R195), with its pattern bytes once they are fetched. -/
structure SpriteHit where
  index : Nat
  x : Int
  wc : Nat
  d8 : Bool
  hf : Bool
  pal : Nat
  prio : Nat
  coll : Bool
  grp : Nat
  /-- PAT × 32 + v × W × d / 8: the pattern line's offset from SPR_PATBASE × 8 (R192). -/
  patOffset : Nat
  bytes : List Byte
deriving DecidableEq, Repr

/-- The sprites of one active line. -/
structure SpriteRow where
  y : Nat
  hits : List SpriteHit
deriving DecidableEq, Repr

/-- What the sprites and planes show at one dot, for the collision rules R200 and R201. -/
structure DotHits where
  sprites : List (Nat × Nat)
  plane : Bool
deriving DecidableEq, Repr

/-- The sprite engine: R191 to R202. -/
structure Sprites where
  /-- The attribute entries read by the search in progress, keyed as the table (R194). -/
  latch : Bytes
  /-- The active line that this search is for. -/
  target : Option Nat
  /-- With H_TOTAL = 64: the search of the line before, resolved at dot 0 of this one (R199). -/
  due : Option (Nat × Bytes)
  /-- The rows found for the present line and the two after it. -/
  rows : List SpriteRow
  /-- The opaque colliding sprites at each dot of the present 8-dot group. -/
  group : List DotHits
deriving DecidableEq, Repr

/-- One composed dot: the main renderer's colour, the guard renderer's, and whether a video-layer
pixel changed A (R243). -/
structure Dot where
  main : Word
  guarded : Word
  video : Bool
deriving DecidableEq, Repr

/-- A composed line of the present band, last dot first. -/
structure DotLine where
  y : Nat
  dots : List Dot
deriving DecidableEq, Repr

/-- A video-layer descriptor (R216). -/
structure LayerDesc where
  base0 : Nat
  base1 : Nat
  pitch : Nat
  sw : Nat
  sh : Nat
  format : Nat
  xfer : Nat
  prim : Nat
  range : Nat
  tag : Nat
deriving DecidableEq, Repr

/-- A source line complete in the line buffer, as R'G'B' codes (R217). -/
structure SourceLine where
  n : Nat
  /-- The channel time at which the line completed (R221). -/
  arrived : Nat
  codes : List (Nat × Nat × Nat)
deriving DecidableEq, Repr

/-- A video layer: R216 to R222. -/
structure Layer where
  accepted : Option LayerDesc
  /-- A descriptor that passed the cut and takes effect with the snapshot's transfer. -/
  next : Option LayerDesc
  effect : Option LayerDesc
  lines : List SourceLine
  /-- The source lines counted as underruns in this frame. -/
  missing : List Nat
deriving DecidableEq, Repr

/-- The encoder's streams (R245). -/
inductive Stream where
  | shq | clq | svc
deriving DecidableEq, Repr

/-- What the encoder has produced for a stream in this frame (R248). -/
structure StreamCount where
  stream : Stream
  sherds : Nat
  blocks : Nat
deriving DecidableEq, Repr

/-- The compositor, the guards and the encoder: R205 to R259. -/
structure Picture where
  /-- The palette, entry i at bytes 4i to 4i + 3, and the guard renderer's copy (R213, R227). -/
  palette : Bytes
  guardPalette : Bytes
  /-- The tables, entry i of table t at bytes 1000h × t + 2i, and the guard renderer's copies
  (R214). -/
  tables : Bytes
  guardTables : Bytes
  /-- The composed lines of the present band, latest first. -/
  lines : List DotLine
  layers : List Layer
  /-- The block CRCs of this frame (R228, R231). -/
  crcs : List (Nat × Word)
  /-- The regions that mismatched in this frame, and those whose release republishes them (R229). -/
  missed : Byte
  releasing : Byte
  /-- Some block of this frame was not compared, because the output stage did not run (R422). -/
  unguarded : Bool
  /-- The regions whose notification has gone in this frame (R228). -/
  notified : Byte
  /-- The signatures of the previous frame, when a comparison may be made with them (R232). -/
  prevSig : Option (Word × Word)
  /-- The stored hashes of the blocks whose hash is valid (R238). -/
  hashes : List (Nat × BitVec 64)
  /-- The refresh counter RC (R241). -/
  rc : Nat
  /-- Full refreshes requested, and those of the present frame (R242). -/
  refreshNext : List Stream
  refreshNow : List Stream
  clone : Bool
  /-- A cloning change that waits for the frame boundary (R245). -/
  cloneNext : Option Bool
  /-- The service stream is selected, and was selected after a band of this frame had closed (R248). -/
  service : Bool
  joined : Bool
  counts : List StreamCount
  /-- The first band encoded in this frame: above 0 only in the frame in which the encoder resumes
  after a catch (R248). -/
  firstBand : Nat
  /-- The encoder publishes nothing: lockup, CATCHING, TESTING or NAPPING (R248). -/
  held : Bool
deriving DecidableEq, Repr

/-- One timer: R350 to R357. -/
structure Timer where
  count : Nat
  /-- The prescaler accumulator (R352). -/
  acc : Nat
  /-- RELOAD, PSC, SRC, EDGE, SRC_TMR and SRC_CP as in effect: the register bytes T + 04h to 0Fh
  keyed by their offset (R353). -/
  cur : Bytes
  /-- The count has arrived at its value, and compare A or B has not been tested there (R354). -/
  freshA : Bool
  freshB : Bool
  /-- Capture values held pending during a read (R355). -/
  pendA : Option Nat
  pendB : Option Nat
  /-- A sync trigger of another timer waits (R353). -/
  resync : Bool
  /-- Events of a source of code 3 to 6 not yet counted, and the channel time up to which dot ticks have been counted
  (R351, R352). -/
  events : Nat
  from_ : Nat
  /-- Capture events of units A and B that wait for their capture (R355). -/
  capA : Nat
  capB : Nat
deriving DecidableEq, Repr

/-- A moderation hold: its source, the raises counted, and the channel time of the first (R363). -/
structure ModHold where
  src : Nat
  raises : Nat
  start : Nat
deriving DecidableEq, Repr

/-- The interrupt controller: R359 to R363. -/
structure Intc where
  /-- PEND of the event sources. -/
  pend : BitVec 48
  /-- The requests of the level sources, as last presented. -/
  request : BitVec 48
  active : BitVec 48
  holds : List ModHold
deriving DecidableEq, Repr

/-- The nap: R365 to R368. -/
structure Nap where
  napping : Bool
  /-- Pin wake latches that have caught an edge. -/
  pins : BitVec 16
  /-- Timer sources raised during the nap with EN and WAKE 1. -/
  timers : BitVec 4
  /-- A host arrival for the event FIFO, and for a line. -/
  evq : Bool
  line : Bool
deriving DecidableEq, Repr

/-- A clip rectangle: first column and line, and the column and line after the last (R270). -/
structure Clip where
  x0 : Nat
  y0 : Nat
  xEnd : Nat
  yEnd : Nat
deriving DecidableEq, Repr

/-- What the blitter does next (R274). -/
inductive BlitPhase where
  | idle | fetch | run | finished
deriving DecidableEq, Repr

/-- The blitter: R267 to R276. -/
structure Blitter where
  phase : BlitPhase
  /-- The command being run, as its 32 bytes. -/
  cmd : List Byte
  /-- The cell address of that command in list mode. -/
  pc : Nat
  /-- PATFILL's pattern, read at the start (R275). -/
  pattern : List Byte
  /-- The destination words or line pixels completed. -/
  pos : Nat
  clips : List Clip
deriving DecidableEq, Repr

/-- What a DMA stream does next (R277 to R283). -/
inductive DmaPhase where
  | idle | fetch | waiting | moving | record | drain
deriving DecidableEq, Repr

/-- One DMA stream: R277 to R284. -/
structure DmaStream where
  phase : DmaPhase
  /-- The descriptor as fetched, 16 bytes. -/
  desc : List Byte
  /-- Current addresses, and whether each lies in the I/O page (R279, R280). -/
  src : Nat
  dst : Nat
  /-- Bytes completed. -/
  done : Nat
  /-- The cause of an error, and whether the destination access failed (R281). -/
  cause : Nat
  side : Bool
  /-- An event request waits (R278). -/
  request : Bool
  /-- PHASE of the completion ring (R281). -/
  ringPhase : Bool
  /-- A write of 1 to EN is held while a drop drains (R283). -/
  restart : Bool
deriving DecidableEq, Repr

/-- A voice's counter with its phase or position (R290 to R292). -/
structure Voice where
  count : Nat
  phase : Nat
deriving DecidableEq, Repr

/-- A change of a source's value: the input, the chip ticks and the mix ticks since the cast, and the value (R286,
R303). -/
structure SourceEdge where
  input : Nat
  tick : Nat
  mix : Nat
  value : Int
deriving DecidableEq, Repr

/-- A crosspoint node (R298, R299). -/
structure Node where
  /-- NODE_GAIN and MUTE. -/
  gain : Int
  mute : Bool
  /-- The target T, the gain at the start of the ramp, and the ramp's ticks completed. -/
  target : Int
  from_ : Int
  k : Nat
  /-- A node whose gain is G minus this node's during a move (R299). -/
  move : Option (Nat × Int)
deriving DecidableEq, Repr

/-- One biquad stage's inputs and outputs of the two ticks before (R300). -/
structure Biquad where
  x1 : Int
  x2 : Int
  y1 : Int
  y2 : Int
deriving DecidableEq, Repr

/-- One output of the mixer (R297 to R302). -/
structure MixOut where
  limEn : Bool
  limThr : Nat
  limRel : Nat
  /-- The ten coefficients in use, and their shadows. -/
  coef : List Int
  shadow : List Int
  bq0 : Biquad
  bq1 : Biquad
  /-- The buses F and Y and the second biquad's output, each a tick old (R303). -/
  busF : Int
  busY : Int
  filtered : Int
  delay : List Int
  /-- The limiter's gain in units of 2⁻²³. -/
  limGain : Int
  /-- The output sample computed at the previous tick. -/
  next : Int
  /-- The output's latest sample. -/
  sample : Int
  clip : Nat
  sat : Nat
deriving DecidableEq, Repr

/-- A write to a mix-domain register that waits for the mix tick (R288). -/
inductive MixWrite where
  | gain (node : Nat) (v : Int)
  | mute (node : Nat) (b : Bool)
  | move (input src dst : Nat)
  | limEn (o : Nat) (b : Bool)
  | limThr (o v : Nat)
  | limRel (o v : Nat)
  | coef (o k : Nat) (v : Int)
  | apply (o : Nat)
  | byte (addr : Nat) (v : Byte)
deriving DecidableEq, Repr

/-- Pin-in: R305. -/
structure PinIn where
  ticks : Nat
  empties : Nat
  fulls : Nat
  refused : Bool
  value : Int
  /-- The value at the refusal, and the ticks of its ramp completed. -/
  from_ : Int
  k : Nat
deriving DecidableEq, Repr

/-- A PWM period: its length, the clocks for which the pin is high, and the channel time of its start (R307). -/
structure Pwm where
  length : Nat
  high : Nat
  start : Nat
deriving DecidableEq, Repr

/-- The audio block: R286 to R311. -/
structure Audio where
  /-- Dot ticks since the latest chip tick, and chip ticks since the cast (R287). -/
  chipPhase : Nat
  chipTicks : Nat
  /-- A write to a chip-domain register, or to CLICK, waits for its chip tick (R288, R293). -/
  chipDirty : Bool
  clickDirty : Bool
  tones : List Voice
  noise : Voice
  /-- The noise shift register N (R291). -/
  shift : BitVec 18
  waves : List Voice
  /-- The value changes of the chip-domain sources since the cast (R286, R295). -/
  history : List SourceEdge
  /-- The PCM FIFO (R294), the four latest samples, latest first, the interval between the last two
  triggers in I/O clocks, and the triggers of timers that wait, by timer. -/
  pcmFifo : List Byte
  pcmSamples : List Int
  pcmInterval : Nat
  pcmTrigger : Nat
  pcmSlow : Bool
  /-- The channel time of the last accepted trigger (R294). -/
  pcmAt : Option Nat
  /-- The mix ticks since the cast (R287). -/
  mixTicks : Nat
  mixWrites : List MixWrite
  nodes : List (Nat × Node)
  outs : List MixOut
  /-- Host-in: the buffered packets' frames, and whether playing has started (R304). -/
  ain : List (List (Int × Int))
  playing : Bool
  pinIn : PinIn
  pwm : List Pwm
  /-- The loopback FIFO (R308). -/
  loopback : List Word
  /-- The host-out packet in progress: its frames, first frame first, and its stamp (R306). -/
  packet : List (Int × Int)
  packetStamp : Nat
  /-- The hub takes the outputs 6 and 7 for the service panel (R309). -/
  service : Bool
deriving DecidableEq, Repr

/-- One PIO engine: R313. -/
structure Engine where
  pc : Nat
  a : Word
  k0 : Word
  k1 : Word
  rs : Word
  rn : Nat
  ts : Word
  tn : Nat
  cyc : Word
  latch : Option Half
  values : BitVec 16
  dirs : BitVec 16
  acc : Nat
  tx : List Word
  rx : List Word
  /-- The timer triggers presented since the last cycle that completed an instruction (R319). -/
  triggers : BitVec 4
deriving DecidableEq, Repr

/-- The four engines and the eight flags; the flags as the present I/O clock found them, and those that a request of
this clock has set (R324). -/
structure Pio where
  engines : List Engine
  flags : Byte
  before : Byte
  sets : Byte
deriving DecidableEq, Repr

/-- The pin block: R330 to R348. -/
structure Pins where
  /-- The owned pins and the locked ones (R330, R346). -/
  owned : BitVec 16
  locked : BitVec 16
  /-- The pin whose FUNC is fixed at 7 by the card, if any (R334). -/
  lockupPin : Option Nat
  delivered : BitVec 16
  /-- The latest 16 samples of each pin, latest in bit 0 (R338). -/
  samples : List (BitVec 16)
  armed : BitVec 16
  /-- Delivered changes of each pin in the storm window, and that window (R342). -/
  storms : List Nat
  window : Nat
  /-- The pins whose storm guard has acted in that window. -/
  stormed : BitVec 16
  /-- The sample tick of the latest pin event, and the level word before it (R343). -/
  tick : Nat
  before : BitVec 16
  /-- 2 from a write to PM_CTL, PM_MASK or PM_VALUE to the next tick with a pin event, 1 at that tick, else 0 (R343). -/
  fresh : Nat
  /-- A key 5Ah has been written to PINLOCK (R346). -/
  lockKey : Bool
  /-- Pins that deliver a pulse after a pause, and those in its first half (R345). -/
  pulse : BitVec 16
  pulsing : BitVec 16
  /-- The sample tick at which each pin's pulse began. -/
  pulseTick : List Nat
deriving DecidableEq, Repr

/-- What a pad shows: what it drives, `none` for high-impedance, and its pull (R333, R347). -/
structure Pad where
  drive : Option Bool
  pull : Nat
deriving DecidableEq, Repr

/-- A key in a slot: its type (1 AES-128, 2 AES-256, 3 TDES), its usage bits ENC, DEC, MAC and WRAP
(bits 3 to 0), its origin, its bytes, and the TDES blocks processed (R454, R459). -/
structure SlotKey where
  type : Nat
  usage : Nat
  fromUnwrap : Bool
  bytes : List Byte
  count : Nat
deriving DecidableEq, Repr

/-- The crypto unit: R457 to R463. -/
structure Crypto where
  busy : Bool
  /-- The operation has done its work, and CRYPTO_DONE comes next. -/
  finished : Bool
  op : Nat
  key : Nat
  key2 : Nat
  mode : Nat
  /-- Message bytes not yet taken. -/
  left : Nat
  blocks : Nat
  chain : List Byte
  inBuf : List Byte
  outBuf : List Byte
  wrapped : List Byte
  din : List Byte
  dout : List Byte
deriving DecidableEq, Repr

/-- The fields of a lockup record that the cell knows (R130). -/
structure LockupInfo where
  time : Nat
  first : Byte
  second : Nat
  cycle : Nat
  savedPc : Half
  ssp : Half
  status : Byte
  cwp : Nat
  wres : Nat
  wsaved : Byte
deriving DecidableEq, Repr

/-- What a line's transmit FIFO holds: a byte, or a change of OUT_SIG between bytes (R384). -/
inductive LineOut where
  | byte (v : Byte)
  | status (v : Nat)
deriving DecidableEq, Repr

/-- One legacy line (R389, R390). -/
structure Line where
  rx : List Byte
  tx : List LineOut
  /-- The channel time at which each entry of `tx` was written (R404). -/
  txAt : List Nat
deriving DecidableEq, Repr

/-- What a cell hands to the hub side: a lockup (R128), a notification of R388, an input-log record
of R415, at the present channel time or at one given, a descriptor that took effect (R386), a record of a stream with its blocks, an audio packet
(R387), the start or end of a nap, and a service sample (R309). -/
inductive Emit where
  | lockup (r : LockupInfo)
  | notify (code detail time : Nat)
  | logRecord (kind : Nat) (payload : List Byte)
  | logAt (time kind : Nat) (payload : List Byte)
  | layerTaken (l tag : Nat) (refused : Bool)
  | record (st : Stream) (blocks : Nat) (bytes : List Byte)
  | audio (k stamp : Nat) (w24 : Bool) (bytes : List Byte)
  | nap (begins : Bool)
  | service (l r : Int)
deriving DecidableEq, Repr

/-- A cell as the channel on it sees it: R56 to R369, R389 to R391 and R454 to R463. -/
structure Cell where
  core : Core
  /-- Main memory, cell addresses 00000h to 7FFFFh (R17). -/
  mem : Bytes
  /-- Main memory as the present dot tick found it, from which the picture is fetched (R179, R190, R194). -/
  tickMem : Bytes
  /-- The I/O page as written and as the blocks set it, keyed by I/O address (R76). -/
  io : Bytes
  /-- The values in effect of the registers whose effect waits for a tick (R166, R288). -/
  eff : Bytes
  /-- The holds of R500: low bytes written and not yet applied. -/
  holds : Bytes
  /-- The companion bytes latched by reads (R8). -/
  latched : Bytes
  beam : Beam
  seq : Sequencer
  sprites : Sprites
  picture : Picture
  timers : List Timer
  intc : Intc
  nap : Nap
  audio : Audio
  blitter : Blitter
  dma : List DmaStream
  pio : Pio
  pins : Pins
  crypto : Crypto
  slots : List (Option SlotKey)
  /-- The event FIFO, oldest first, 8 bytes each (R389). -/
  evf : List (List Byte)
  lines : List Line
  /-- The four breakpoints (R132). -/
  breakpoints : List Half
  /-- The value F of R477 for the core clock and the I/O clock. -/
  coreFreq : Nat
  ioFreq : Nat
  /-- The island runs: not CASTING, draining, TESTING or stopped by a catch. -/
  runs : Bool
  /-- The chase of a catch: the output stage, the guard renderer, the encoder and the video-layer
  fetches do not run (R422). -/
  dry : Bool
  /-- What waits to be handed to the hub side, oldest first. -/
  outq : List Emit
  /-- The model's own counter for free values (assumption 2). -/
  free : Nat
deriving DecidableEq, Repr

/-- The states of R48. -/
inductive ChanState where
  | uncast | casting | running | napping | halted | stopped | safe | catching | testing
deriving DecidableEq, Repr

/-- A queue's registers (R379), and what the hub holds for it. -/
structure Queue where
  base : Nat
  log2 : Nat
  wb : Nat
  arm : Bool
  wbEn : Bool
  ie : Bool
  vec : Nat
  holdoff : Nat
  prod : Nat
  cons : Nat
  errc : Nat
  skipped : Nat
  dropped : Nat
  /-- A message went in the last HOLDOFF µs, and another waits for its end (R382). -/
  quiet : Bool
  deferred : Bool
  /-- Inbound: units whose host read has been issued, since the arming. -/
  issued : Nat
  /-- Inbound: the doorbells accepted and not yet passed, oldest first, each with its order among all of the hub's
  (R404). -/
  bells : List (Nat × Nat)
  /-- Inbound: a host read of a unit is outstanding. -/
  reading : Bool
  /-- Inbound: the entry read and not yet accepted by the cell (R380, R394). -/
  inHand : Option (List Byte)
  /-- The samples that the AIQ entry in hand names (R385). -/
  samples : Option (List Byte)
  /-- LYQ: the entries accepted and not yet passed by CONS, oldest first: the TAG, whether it has
  taken effect, and whether it is retired (R386). -/
  live : List (Nat × Bool × Bool)
deriving DecidableEq, Repr

/-- An outbound record that the hub holds, with the bytes of it already moved (R392, R404). -/
structure Held where
  bytes : List Byte
  moved : Nat
deriving DecidableEq, Repr

/-- What the hub holds and counts for one sherd stream (R257, R258, R392). -/
structure StreamHold where
  held : List Held
  /-- The frame of which a record was discarded, until its seal (R248). -/
  partialFrame : Option Nat
  sherds : Nat
  blocks : Nat
  payload : Nat
  dropped : Nat
  refreshes : Nat
deriving DecidableEq, Repr

/-- The VF status registers (R395). -/
structure VfRegs where
  epochLatch : Nat
  cmdEpoch : Nat
  stale : Bool
  done : Bool
  staleCount : Nat
  msix : Bytes
deriving DecidableEq, Repr

/-- A record of the input log (R415, R416). -/
structure LogRecord where
  time : Nat
  kind : Nat
  payload : List Byte
deriving DecidableEq, Repr

/-- The causes of running without a net (R418). -/
inductive NetCause where
  | logFull | slotError | debug
deriving DecidableEq, Repr

/-- The steps of a catch (R420): the reserve is being loaded, it replays, it chases; and the pause of
a planned catch. -/
inductive CatchStep where
  | none | loading | replay | chase
deriving DecidableEq, Repr

/-- A management command that waits for its response: a CAST or a STOP (R401). -/
structure Waiting where
  /-- `none` once its response is lost (R394, R481). -/
  tag : Option Nat
  mould : Nat
deriving DecidableEq, Repr

/-- A lockup record on PF0 (R130). -/
structure LockupRecord where
  epoch : Nat
  info : LockupInfo
deriving DecidableEq, Repr

/-- One channel as the ringmaster, the carousel and the safety net see it. -/
structure Chan where
  n : Nat
  state : ChanState
  /-- VF_STATE and VF_EPOCH (R395, R396). -/
  view : ChanState
  epoch : Nat
  viewEpoch : Nat
  /-- The cause shown in the channel table (R402). -/
  cause : Nat
  draining : Bool
  /-- A hardware fault was found during the drain (R503). -/
  drainFault : Bool
  pendingCast : Option Waiting
  /-- The CAST in progress and the STOPs of the drain in progress (R401). -/
  castTag : Option Nat
  stopTags : List Nat
  stale : Nat
  castReplaced : Nat
  audDropped : Nat
  ntqDiscarded : Nat
  catches : Nat
  /-- u of the last checkpoint interval, and the largest UTIL since the latest snapshot (R402, R425). -/
  lastU : Byte
  u : Byte
  mould : Nat
  share : Nat
  interval : Nat
  /-- The cell held: die and cell. -/
  place : Option (Nat × Nat)
  /-- A CLONE accepted while the channel is CASTING, for the first frame boundary after the cast (R245). -/
  cloneWait : Option Bool
  /-- The state before the cast in progress, for R503. -/
  before : ChanState
  cell : Option Cell
  /-- The pads as they stand, CP0 to CP15 (R332). -/
  pads : List Pad
  /-- Edges caught by the pads' latches during a pause: rising and falling (R345). -/
  rising : BitVec 16
  falling : BitVec 16
  attached : Bool
  /-- The latest checkpoint, and the snapshot whose copy is in progress (R412, R413). -/
  checkpoint : Option Cell
  snapshot : Option Cell
  /-- Frame boundaries since the last regular or forced snapshot (R412). -/
  sinceSnap : Nat
  snapDue : Bool
  forced : Bool
  log : List LogRecord
  /-- Records of the log older than the snapshot in progress. -/
  logOld : Nat
  logFull : Bool
  /-- The causes in effect, each with the channel time at which it began (R418). -/
  netOff : List (NetCause × Nat)
  /-- A LOG_FULL or DEBUG cause ends with the copy of the next snapshot taken. -/
  netEnds : List NetCause
  /-- DBG_DETACH asked for the checkpoint at the next frame boundary (R133). -/
  detached : Bool
  step : CatchStep
  /-- The catch's fault: its channel time, its cause and block, and the cell left. -/
  faultTime : Nat
  faultCause : Nat
  faultBlock : Nat
  oldPlace : Nat × Nat
  /-- A planned catch that has fallen due, by its cause: 4 wear, 5 rotation (R428, R448). -/
  planned : Option Nat
  /-- The kiln waits for a frame boundary to test the cell in place (R448, R449). -/
  testDue : Bool
  lockup : Option LockupRecord
  vf : VfRegs
  queues : List Queue
  /-- The deficit D (R403). -/
  deficit : Int
  shq : StreamHold
  clq : StreamHold
  svc : StreamHold
  auq : List Held
  ntq : List Held
  /-- Records of NTQ lost since the ring last took records (R392). -/
  ntqLost : Nat
  /-- Host refresh requests that wait for the channel to go live or to wake (R397). -/
  refreshWait : List Stream
  /-- Of each video layer: the next source line to read, the bytes of it already requested, and the
  reads outstanding, oldest first, each by its first line and its number of lines (R221). -/
  layerNext : List Nat
  layerOff : List Nat
  layerReads : List (List (Nat × Nat))
  /-- Reads of each layer still outstanding that were issued before the latest cut (R386). -/
  layerOld : List Nat
  /-- A function-level reset stopped the layers' host reads (R394). -/
  layerStopped : List Bool
deriving DecidableEq, Repr

/-- The roles of a cell (R430, R437). -/
inductive CellRole where
  | pool | hosting (ch : Nat) | retired | testing
deriving DecidableEq, Repr

/-- A cell of a die as the ringmaster knows it (R430, R437). -/
structure CellUnit where
  role : CellRole
  tested : Bool
  /-- The SCOPE of the test that waits or runs (R452), whether it runs, and whether the cell was a
  reserve when it was taken for the test (R446). -/
  scope : Nat
  inTest : Bool
  reserve : Bool
  margin : Nat
  trend : Nat
  corrected : Nat
  uncorrectable : Nat
  days : Nat
deriving DecidableEq, Repr

/-- A channel die: its cells, its GPIO banks as sensed (0 unpowered, 1 1.8 V, 2 3.3 V; R475), and its
reserves consumed since shipment (R438). -/
structure Die where
  cells : List CellUnit
  banks : List Nat
  consumed : Nat
deriving DecidableEq, Repr

/-- A repair or retirement record that waits for the flash (R442, R443). -/
structure RepairRecord where
  type : Nat
  die : Nat
  unit : Nat
  memory : Nat
  spare : Nat
  address : Nat
  bit : Nat
  uptime : Nat
deriving DecidableEq, Repr

/-- A record of the kiln log (R452). -/
structure KilnRecord where
  seq : Nat
  die : Nat
  unit : Nat
  scope : Nat
  outcome : Nat
  uptime : Nat
  result : TestResult
deriving DecidableEq, Repr

/-- A record of the catch log (R436). -/
structure CatchRecord where
  seq : Nat
  kind : Nat
  cause : Nat
  channel : Nat
  epoch : Nat
  oldCell : Nat
  newCell : Nat
  ctime : Nat
  block : Nat
  u : Byte
  detail : Nat
  delay : Nat
  lag : Nat
deriving DecidableEq, Repr

/-- An alarm record (R465, R467). -/
structure AlarmRecord where
  seq : Nat
  sensor : Nat
  level : Nat
  dies : Nat
  onVbat : Bool
  uptime : Nat
  erased : Nat
deriving DecidableEq, Repr

/-- The key store (R453). -/
structure KeyStore where
  imageKey : Option (List Byte)
  keyGen : Nat
  signingKey : Option (List Byte)
  floor : Nat
  levels : Option (List Nat)
  /-- IDE keys: stream and key set (R375). -/
  ideKeys : List (Nat × Nat × List Byte)
  /-- The escrow of each channel's slots (R456). -/
  escrow : List (Nat × List (Option SlotKey))
  alarms : List AlarmRecord
  alarmSeq : Nat
deriving DecidableEq, Repr

/-- A secured SPDM session (R376, R468). -/
structure Session where
  id : Nat
  finished : Bool
  /-- The requester's chain verified to the signing key, or to the provisioning root. -/
  mutualAuth : Bool
  updates : Nat
deriving DecidableEq, Repr

/-- The DOE mailbox's SPDM responder (R376): how far the connection has come, and its sessions. -/
structure Spdm where
  version : Bool
  capabilities : Bool
  algorithms : Bool
  sessions : List Session
deriving DecidableEq, Repr

/-- The service panel (R260 to R263). -/
structure Panel where
  selected : Option Nat
  /-- Out of sleep mode; WAKE_MS runs; display on. -/
  awake : Bool
  waiting : Bool
  on : Bool
  /-- The full refresh after which set_display_on is sent has not been pushed whole. -/
  starting : Bool
  /-- The frame in progress at the selection, whose seal is not that of the full refresh (R263). -/
  startFrame : Option Nat
  /-- A tearing-effect edge has released the oldest sealed frame, which is being pushed (R262). -/
  pushing : Bool
  /-- H_ACTIVE and V_ACTIVE of the picture shown. -/
  area : Nat × Nat
  /-- The channel heard on I²S, and the steps of its fade (R309). -/
  heard : Option Nat
  fade : Nat
  /-- The L and R slots that the I²S output carries, 24 bits MSB first and 8 zero bits (R309). -/
  i2s : Word × Word
deriving DecidableEq, Repr

/-- One image slot of the boot flash (R38): its bytes as written; an unlisted byte reads FFh in a slot that
was never written, which `written` tells. -/
structure FlashSlot where
  bytes : Bytes
  written : Bool
  /-- An update of this slot began and has not been committed (R55). -/
  open_ : Bool
deriving DecidableEq, Repr

/-- What the endpoint and the hub have sent outwards: a write to host memory, with
or without relaxed ordering (R370, R381, R382), an MSI-X
message by function (0 for PF0, n + 1 for channel n) and vector, a host read issued, a completion of a
configuration request (true normal with the value read, false Retry Status), an Unsupported Request, an SMBus answer, a
DOE answer, a packet to the panel, a service audio frame, and a write to the flash. -/
inductive Sent where
  | mem (fn addr : Nat) (bytes : List Byte) (relaxed : Bool)
  | msi (fn vec : Nat)
  | hostRead (ch addr len : Nat)
  | config (normal : Bool) (value : Word)
  | unsupported
  | smbus (bytes : List Byte)
  | doe (what : Nat) (bytes : List Byte)
  | panel (bytes : List Byte)
  | frame (l r : Int)
  | flash (addr : Nat) (bytes : List Byte)
deriving DecidableEq, Repr

/-- The hub die and the pins of the package. -/
structure Hub where
  /-- The part: 1 BLN-2080, 2 BLN-4240, 3 BLN-8560 (R9). -/
  part : Nat
  revision : Byte
  /-- The pins PWRGD and PERST#. RESET_N is low only within its event. -/
  pwrgd : Bool
  perstN : Bool
  /-- BOOT_STATUS (R36). -/
  phase : Nat
  failCause : Nat
  keyNeeded : Bool
  noImage : Bool
  slotA : Bool
  slotB : Bool
  activeSlot : Nat
  fallbackSpi : Bool
  ready : Bool
  /-- A WIPE_AND_HOLD hold is in force (R466). -/
  wipeHold : Bool
  linkUp : Bool
  linkWidth : Nat
  d3hot : Bool
  msix : Bytes
  /-- The pending-bit arrays: the vectors, by function, whose message waits (R374). -/
  pba : List (Nat × Nat)
  /-- The functions whose Enable Relaxed Ordering bit is 0 (R370). -/
  unrelaxed : List Nat
  /-- PF0 BAR0, PF0 BAR2 and VF BAR0 as programmed (R373). -/
  bars : List Nat
  /-- The association registers of the Selective IDE streams, register r of stream n at 8n + r (R375). -/
  ideAssoc : List (Nat × Word)
  mcq : Queue
  mrq : Queue
  /-- Responses that MRQ has not taken (R399). -/
  responses : List (List Byte)
  spdm : Spdm
  /-- The key set in use of each IDE stream (R375). -/
  ideActive : List (Nat × Nat)
  /-- The key sets programmed by IDE_KM since the link was last without protection (R466, R481). -/
  ideLoaded : List (Nat × Nat)
  keys : KeyStore
  /-- Sensors tripped now (R465). -/
  tripped : BitVec 8
  /-- Alarms raised on VBAT that the security phase applies (R465). -/
  vbatAlarms : List (Nat × Nat)
  alarmN : Bool
  /-- A READ_SECURITY has returned every record (R467). -/
  alarmsRead : Bool
  glitchArmed : Bool
  lockupN : Bool
  netlowN : Bool
  standbyLost : Bool
  /-- The active ringmaster: 1 A, 2 B (R445). -/
  active : Nat
  flash : List FlashSlot
  /-- The image chosen by the image-read phase, not yet in the store, and the image store (R42). -/
  read : Option Image
  image : Option Image
  /-- Header bytes 00h to 7Fh of the image in use (R464), and its sections: the type, the index and the bytes of
  each, in the order of the directory (R43). -/
  header : List Byte
  sections : List (Nat × Nat × List Byte)
  cardsSkipped : Nat
  sequence : Nat
  /-- The slot of the image update in progress (R54). -/
  update : Option Nat
  catchLog : List CatchRecord
  catchSeq : Nat
  catchCount : Nat
  kilnLog : List KilnRecord
  kilnSeq : Nat
  repairs : List RepairRecord
  /-- Records in the repair area of the flash (R442). -/
  repairArea : List RepairRecord
  /-- Hub blocks taken for test, each with whether its test runs (R445). -/
  hubTests : List (Nat × Bool)
  uptime : Nat
  tjMax : Half
  power : Half
  alertMask : Byte
  /-- The model's own counter for readings of the world that no command carries (assumption 2). -/
  readings : Nat
  /-- The channel at which the carousel looks next for pending work (R403), and the doorbells accepted so far (R404). -/
  turn : Nat
  bellCount : Nat
  panel : Panel
  sent : List Sent
deriving DecidableEq, Repr

/-- A fault of `step`: none; every command of this machine has an outcome that the manual states. -/
inductive Fault where
  /-- No meaning raises it: the manual gives the block no event that stops it whole. Safe. -/
  | unreachable
deriving DecidableEq, Repr

/-- Why a command is refused. -/
inductive Refusal where
  /-- An arm of `exec` that has no meaning yet. Safe: nothing can be proved of what it does. -/
  | notModelled (mnemonic : String)
deriving DecidableEq, Repr

/-- The machine: the commands waiting, first in first out, the hub, the channel dies, and the channels that
have been used, in ascending number. A channel that is not listed is UNCAST. -/
structure State where
  pending : List Instr
  hub : Hub
  dies : List Die
  chans : List Chan
deriving DecidableEq, Repr

/-- A queue's registers after reset (R379). -/
def Queue.blank : Queue :=
  { base := 0, log2 := 0, wb := 0, arm := false, wbEn := false, ie := false, vec := 0, holdoff := 0
    prod := 0, cons := 0, errc := 0, skipped := 0, dropped := 0, quiet := false, deferred := false
    issued := 0, bells := [], reading := false, inHand := none, samples := none, live := [] }

/-- A cell in the pool, as start-up finds it before its test; a margin of 255 is above every limit
(assumption 3). -/
def CellUnit.fresh : CellUnit :=
  { role := .pool, tested := false, scope := 1, inTest := false, reserve := false, margin := 255
    trend := 0, corrected := 0, uncorrectable := 0, days := 0 }

def Die.fresh : Die := { cells := List.replicate 88 CellUnit.fresh, banks := [0, 0], consumed := 0 }

/-- The key store with neither VBAT nor main power before (R453). -/
def KeyStore.empty : KeyStore :=
  { imageKey := none, keyGen := 0, signingKey := none, floor := 0, levels := none, ideKeys := []
    escrow := [], alarms := [], alarmSeq := 0 }

def Spdm.closed : Spdm := { version := false, capabilities := false, algorithms := false, sessions := [] }

def Panel.off : Panel :=
  { selected := none, awake := false, waiting := false, on := false, starting := false
    startFrame := none, pushing := false
    area := (0, 0), heard := none, fade := 0, i2s := (0#32, 0#32) }

/-- An MSI-X table of n vectors after reset: every vector masked (R374; assumption 121). -/
def msixBlank (n : Nat) : Bytes := (List.range n).map fun v => (16 * v + 12, 1#8)

/-- The hub after a device reset (R36, R408, R480), of part `part` and silicon revision `rev`, with the
key store, the flash and the pins given. -/
def Hub.fresh (part : Nat) (rev : Byte) (perst hold : Bool) (keys : KeyStore) (flash : List FlashSlot)
    (area : List RepairRecord) (vbat : List (Nat × Nat)) (sent : List Sent) : Hub :=
  { part := part, revision := rev, pwrgd := true, perstN := perst, phase := 0
    failCause := 0, keyNeeded := false, noImage := false, slotA := false, slotB := false
    activeSlot := 0, fallbackSpi := false, ready := false, wipeHold := hold, linkUp := false
    linkWidth := 0, d3hot := false, msix := msixBlank 64, pba := [], unrelaxed := []
    bars := [0, 0, 0], ideAssoc := [], mcq := .blank, mrq := .blank, responses := []
    spdm := .closed, ideActive := [], ideLoaded := [], keys := keys, tripped := 0#8, vbatAlarms := vbat
    alarmN := true, alarmsRead := true, glitchArmed := false, lockupN := true, netlowN := true
    standbyLost := false, active := 1, flash := flash, read := none, image := none, header := [], sections := []
    cardsSkipped := 0, sequence := 0, update := none, catchLog := [], catchSeq := 0, catchCount := 0
    kilnLog := [], kilnSeq := 0, repairs := [], repairArea := area, hubTests := [], uptime := 0
    tjMax := 0#16, power := 0#16, alertMask := 0x78#8, readings := 0, turn := 0, bellCount := 0, panel := .off, sent := sent }

/-- An image slot that was never written. -/
def FlashSlot.erased : FlashSlot := { bytes := [], written := false, open_ := false }

/-- The machine right after a power-on reset: a BLN-8560 of revision A1 (R499) with an empty key store and an
erased boot flash, at phase 0h, every channel UNCAST (R9, R36, R48; assumption 1). -/
def State.reset : State :=
  { pending := []
    hub := Hub.fresh 3 0x10#8 true false .empty [.erased, .erased] [] [] []
    dies := List.replicate 7 Die.fresh
    chans := [] }

end Sys2Proof.Machine
end

