-- ==== Sys2Proof/Machine/Ops.lean ====
section
/-! DEFINITION. The named operations over sparse bytes, over a cell's registers and over the state:
the canonical form, byte order (R5, R70), and where a cell, a channel and a queue are found. -/

namespace Sys2Proof

/-- A byte of a sparse memory; an unlisted address reads as 00h. -/
def Bytes.rd : Bytes → Nat → Byte
  | [], _ => 0#8
  | (k, v) :: t, a => if a = k then v else Bytes.rd t a

/-- A write that keeps the canonical form: a byte of 00h is not listed. -/
def Bytes.wr : Bytes → Nat → Byte → Bytes
  | [], a, v => if v = 0#8 then [] else [(a, v)]
  | (k, w) :: t, a, v =>
    if a < k then (if v = 0#8 then (k, w) :: t else (a, v) :: (k, w) :: t)
    else if a = k then (if v = 0#8 then t else (k, v) :: t)
    else (k, w) :: Bytes.wr t a v

/-- The canonical form: keys above `lo` and strictly rising, and no byte 00h. -/
def Bytes.wfFrom : Option Nat → Bytes → Bool
  | _, [] => true
  | lo, (k, v) :: t =>
    (match lo with
     | none => true
     | some l => decide (l < k)) && (v != 0#8) && Bytes.wfFrom (some k) t

def Bytes.wf (m : Bytes) : Bool := Bytes.wfFrom none m

/-- A little-endian value of `n` bytes (R5, R70). -/
def Bytes.rdN (m : Bytes) (a : Nat) : Nat → Nat
  | 0 => 0
  | n + 1 => (m.rd a).toNat + 256 * Bytes.rdN m (a + 1) n

def Bytes.wrN (m : Bytes) (a : Nat) : Nat → Nat → Bytes
  | 0, _ => m
  | n + 1, v => Bytes.wrN (m.wr a (BitVec.ofNat 8 v)) (a + 1) n (v / 256)

/-- `n` bytes from address `a`. -/
def Bytes.block (m : Bytes) (a n : Nat) : List Byte := (List.range n).map fun i => m.rd (a + i)

/-- A list of bytes stored from address `a`. -/
def Bytes.put : Bytes → Nat → List Byte → Bytes
  | m, _, [] => m
  | m, a, b :: t => Bytes.put (m.wr a b) (a + 1) t

/-- `n` bytes copied from `src` at `a` to `dst` at `b`. -/
def copyBytesTo (src : Bytes) (a b : Nat) : Nat → Bytes → Bytes
  | 0, dst => dst
  | n + 1, dst => copyBytesTo src (a + 1) (b + 1) n (dst.wr b (src.rd a))

/-- One bit of a byte. -/
def Bytes.bit (m : Bytes) (a i : Nat) : Bool := (m.rd a).getLsbD i

/-- A byte with bits set or cleared. -/
def Bytes.orb (m : Bytes) (a : Nat) (v : Byte) : Bytes := m.wr a (m.rd a ||| v)
def Bytes.clr (m : Bytes) (a : Nat) (v : Byte) : Bytes := m.wr a (m.rd a &&& ~~~ v)

/-- A bit given a value. -/
def Bytes.setBit (m : Bytes) (a i : Nat) (b : Bool) : Bytes :=
  if b then m.orb a (BitVec.ofNat 8 (2 ^ i)) else m.clr a (BitVec.ofNat 8 (2 ^ i))

/-- A saturating increment of a 16-bit counter. -/
def Bytes.count16 (m : Bytes) (a n : Nat) : Bytes := m.wrN a 2 (min 65535 (m.rdN a 2 + n))

/-- The value of a list of bytes, lowest first. -/
def leNat : List Byte → Nat
  | [] => 0
  | b :: t => b.toNat + 256 * leNat t

/-- A value as `n` bytes, lowest first. -/
def leBytes : Nat → Nat → List Byte
  | 0, _ => []
  | n + 1, v => BitVec.ofNat 8 v :: leBytes n (v / 256)

/-- A value as `n` bytes, highest first. -/
def beBytes (n v : Nat) : List Byte := (leBytes n v).reverse

/-- The value of a list of bytes, highest first. -/
def beNat (l : List Byte) : Nat := leNat l.reverse

/-- A value of `w` bits read as signed. -/
def signedOf (w v : Nat) : Int := if v % 2 ^ w < 2 ^ (w - 1) then v % 2 ^ w else (v % 2 ^ w : Nat) - (2 ^ w : Nat)

/-- A value limited to a range. -/
def clampInt (lo hi v : Int) : Int := if v < lo then lo else if hi < v then hi else v

/-- Bits `[hi : lo]` of a number. -/
def bitsOf (v hi lo : Nat) : Nat := v / 2 ^ lo % 2 ^ (hi - lo + 1)

/-- Rounded-up division. -/
def ceilDiv (a b : Nat) : Nat := (a + b - 1) / b

/-- A lookup in a list keyed by numbers. -/
def lookupNat {α : Type} : List (Nat × α) → Nat → Option α
  | [], _ => none
  | (k, v) :: t, a => if a = k then some v else lookupNat t a

/-- An insertion that keeps the keys strictly rising. -/
def insertNat {α : Type} : List (Nat × α) → Nat → α → List (Nat × α)
  | [], a, v => [(a, v)]
  | (k, w) :: t, a, v =>
    if a < k then (a, v) :: (k, w) :: t
    else if a = k then (a, v) :: t
    else (k, w) :: insertNat t a v

/-- A list with its element `i` changed. -/
def updateAt {α : Type} : List α → Nat → (α → α) → List α
  | [], _, _ => []
  | x :: t, 0, f => f x :: t
  | x :: t, n + 1, f => x :: updateAt t n f

end Sys2Proof

namespace Sys2Proof.Machine

/-- A message for the hub side, after those that wait. -/
def Cell.emit (c : Cell) (e : Emit) : Cell := { c with outq := c.outq ++ [e] }

/-- The beam and the core run only outside a nap (R365). -/
def Cell.beamRuns (c : Cell) : Bool := c.runs && !c.nap.napping
def Cell.coreOn (c : Cell) : Bool := c.runs && !c.nap.napping

/-- Line n of the channel's end (R389). -/
def Cell.line (c : Cell) (n : Nat) : Line := c.lines.getD n { rx := [], tx := [], txAt := [] }

def Cell.setLine (c : Cell) (n : Nat) (l : Line) : Cell := { c with lines := updateAt c.lines n fun _ => l }

/-- An entry joins the transmit FIFO of line n (R384, R390). -/
def Cell.lineAppend (c : Cell) (n : Nat) (x : LineOut) : Cell :=
  let l := c.line n
  c.setLine n { l with tx := l.tx ++ [x], txAt := l.txAt ++ [c.beam.ctime] }

/-- The bytes that the transmit FIFO holds (R389). -/
def Line.txLevel (l : Line) : Nat := (l.tx.filter fun x => match x with | .byte _ => true | .status _ => false).length

/-- Dot ticks of a cell in microseconds (R159). -/
def Cell.micros (c : Cell) (dots : Nat) : Nat :=
  let f := c.eff.rdN 0xE730 4 * 100
  if f = 0 then 0 else dots * 0x100000000 / f

/-- `dots` dot ticks last `us` microseconds or longer (R159). -/
def Cell.lasts (c : Cell) (dots us : Nat) : Bool :=
  decide (us * (c.eff.rdN 0xE730 4 * 100) ≤ dots * 0x100000000)

/-- The depth of each line FIFO (R23), and of the event FIFO (R383). -/
abbrev lineDepth : Nat := 256
abbrev evfDepth : Nat := 64

end Sys2Proof.Machine
end

