-- ==== Sys2Proof/Machine/Intc.lean ====
section
/-! DEFINITION. The interrupt controller: its sources, raises, moderation, delivery and EOI
(R359 to R363). -/

namespace Sys2Proof.Machine

/-- The source numbers of R359. -/
abbrev srcTmr0 : Nat := 0
abbrev srcBc0 : Nat := 4
abbrev srcVbl : Nat := 6
abbrev srcFrame : Nat := 7
abbrev srcDone : Nat := 8
abbrev srcCommitLate : Nat := 9
abbrev srcCommitBad : Nat := 10
abbrev srcRaster : Nat := 11
abbrev srcRasterErr : Nat := 12
abbrev srcSprDrop : Nat := 13
abbrev srcSprColl : Nat := 14
abbrev srcGuard : Nat := 15
abbrev srcFrozen : Nat := 16
abbrev srcVl0 : Nat := 17
abbrev srcBlt : Nat := 19
abbrev srcBltErr : Nat := 20
abbrev srcDma0 : Nat := 21
abbrev srcDmaErr : Nat := 25
abbrev srcAudPcm : Nat := 26
abbrev srcAudLb : Nat := 27
abbrev srcAudErr : Nat := 28
abbrev srcPioFlag0 : Nat := 29
abbrev srcPioErr : Nat := 33
abbrev srcPin : Nat := 34
abbrev srcPinStorm : Nat := 35
abbrev srcPinMatch : Nat := 36
abbrev srcEvq : Nat := 37
abbrev srcLnRx : Nat := 38
abbrev srcLnTx : Nat := 39
abbrev srcCrypto : Nat := 40
abbrev srcCryptoErr : Nat := 41
abbrev srcPaceSlip : Nat := 42
abbrev srcSoft0 : Nat := 43
abbrev srcNap : Nat := 47

/-- The level sources (R359). -/
def isLevelSource (s : Nat) : Bool :=
  s < 4 || s == 26 || s == 27 || (29 ≤ s && s ≤ 32) || s == 34 || (37 ≤ s && s ≤ 39)

/-- A word of 48 bits with bit s given a value. -/
def setBit48 (w : BitVec 48) (s : Nat) (b : Bool) : BitVec 48 :=
  if b then w ||| BitVec.ofNat 48 (2 ^ s) else w &&& ~~~ BitVec.ofNat 48 (2 ^ s)

/-- PEND bit s (R360). -/
def Intc.pending (i : Intc) (s : Nat) : Bool :=
  if isLevelSource s then i.request.getLsbD s else i.pend.getLsbD s

/-- MOD_N and MOD_T of source s (R363, R364). -/
def Cell.modN (c : Cell) (s : Nat) : Nat := (c.io.rd (0xE170 + s)).toNat
def Cell.modT (c : Cell) (s : Nat) : Nat :=
  let t := (c.io.rd (0xE1A0 + s)).toNat
  if t = 0 then 256 else t

/-- R363: a hold has ended: moderation no longer applies, MOD_N raises have come, or so much time has passed that
MOD_T reference ticks have fallen since the first raise. -/
def Cell.holdOver (c : Cell) (h : ModHold) : Bool :=
  decide (c.modN h.src < 2 ∨ c.modN h.src ≤ h.raises) || c.lasts (c.beam.ctime - h.start - 1) (c.modT h.src)

/-- The hold of source s in force. -/
def Cell.hold (c : Cell) (s : Nat) : Option ModHold := c.intc.holds.find? fun h => h.src == s && !c.holdOver h

/-- R363: a raise of source s that found PEND at `was` starts a hold or counts in one; the MOD_N-th ends it. The
raises of a level source, each of which finds PEND at 0, count in the hold that the first of them started (assumption
120). -/
def Cell.moderate (c : Cell) (s : Nat) (was : Bool) : Cell :=
  let others := c.intc.holds.filter (fun h => h.src ≠ s)
  let put (l : List ModHold) : Cell := { c with intc := { c.intc with holds := l ++ others } }
  if c.modN s < 2 then c
  else match (c.hold s).filter fun _ => was || isLevelSource s with
    | some h => put (if c.modN s ≤ h.raises + 1 then [] else [{ h with raises := h.raises + 1 }])
    | none => if was then c else put [{ src := s, raises := 1, start := c.beam.ctime }]

/-- R360: a raise of event source s. -/
def Cell.raise (c : Cell) (s : Nat) : Cell :=
  let was := c.intc.pend.getLsbD s
  { c with intc := { c.intc with pend := setBit48 c.intc.pend s true } }.moderate s was

/-- R360: the request of a level source; a change from 0 to 1 is a raise. -/
def Cell.present (c : Cell) (s : Nat) (req : Bool) : Cell :=
  let was := c.intc.request.getLsbD s
  let c' := { c with intc := { c.intc with request := setBit48 c.intc.request s req } }
  if req ∧ ¬ was then c'.moderate s false else c'

/-- SRC_CFG.EN, WAKE and PRIO of source s (R364). -/
def Cell.srcEnabled (c : Cell) (s : Nat) : Bool := c.io.bit (0xE140 + s) 7
def Cell.srcWakes (c : Cell) (s : Nat) : Bool := c.io.bit (0xE140 + s) 6
def Cell.srcPrio (c : Cell) (s : Nat) : Nat := bitsOf (c.io.rd (0xE140 + s)).toNat 5 4

/-- The running priority plus 1, or 0 when no source is ACTIVE (R361). -/
def Cell.runningLevel (c : Cell) : Nat :=
  (List.range 48).foldl (fun m s => if c.intc.active.getLsbD s then max m (c.srcPrio s + 1) else m) 0

/-- R361: source s is deliverable; `waiting` lifts the moderation holds (R363). -/
def Cell.canDeliver (c : Cell) (waiting : Bool) (s : Nat) : Bool :=
  c.intc.pending s && c.srcEnabled s && !(c.intc.active.getLsbD s) &&
    (waiting || (c.hold s).isNone) && decide (c.runningLevel ≤ c.srcPrio s)

/-- The better of two candidates: the higher PRIO, then the lower number (R361). -/
def Cell.better (c : Cell) (best : Option Nat) (s : Nat) : Option Nat :=
  match best with
  | none => some s
  | some b => if c.srcPrio b < c.srcPrio s then some s else some b

/-- R361: the source that the controller delivers. -/
def Cell.deliverable (c : Cell) (waiting : Bool) : Option Nat :=
  ((List.range 48).filter (c.canDeliver waiting)).foldl c.better none

/-- R361, at entry cycle 1: the source becomes ACTIVE and an event source's PEND is cleared. -/
def Cell.activate (c : Cell) (s : Nat) : Cell :=
  let i := c.intc
  { c with intc := { i with
    active := setBit48 i.active s true
    pend := setBit48 i.pend s false
    holds := i.holds.filter (fun h => h.src ≠ s) } }

/-- R362: a write to EOI. -/
def Cell.eoi (c : Cell) (s : Nat) : Cell :=
  if s < 48 ∧ c.intc.active.getLsbD s then
    { c with intc := { c.intc with active := setBit48 c.intc.active s false } }
  else { c with io := c.io.count16 0xE114 1 }

/-- R359: a write to SOFT raises SOFTn for every 1 in bits [3:0]. -/
def Cell.soft (c : Cell) (v : Byte) : Cell :=
  (List.range 4).foldl (fun c n => if v.getLsbD n then c.raise (srcSoft0 + n) else c) c

/-- R363: the hold of source s ends at its MOD_N-th raise, or at its MOD_T-th reference tick: MOD_T − 1 whole periods
of the reference have then passed since the first raise. -/
def Cell.holdEnd (c : Cell) (s : Nat) (byTick : Bool) : Cell :=
  let due (h : ModHold) : Bool := h.src == s &&
    (c.holdOver h || (byTick && c.lasts (c.beam.ctime - h.start + 1) (c.modT s - 1)))
  { c with intc := { c.intc with holds := c.intc.holds.filter (fun h => !due h) } }

/-- CUR (R364). -/
def Cell.curSource (c : Cell) : Byte :=
  match ((List.range 48).filter (c.intc.active.getLsbD ·)).foldl c.better none with
  | none => 0xBF#8
  | some s => BitVec.ofNat 8 s

end Sys2Proof.Machine
end

