-- ==== Sys2Proof/Machine/Regs.lean ====
section
/-! DEFINITION. The registers of the I/O page: their bytes, the bits each access code covers, their
class and whether they are written through a hold or read with a latch (R6, R76, R166, R500). -/

namespace Sys2Proof.Machine

/-- The class of a register by R166. -/
inductive RegClass where
  | imm | framed | live
deriving DecidableEq, Repr

/-- A register, or `count` registers `stride` bytes apart: its first address, its bytes, the bits that
a write sets (RW and LK), clears (W1C) and requests (W1S), its class, whether a read of byte 0
latches the others (RL), and whether a core write goes through a hold (R500). -/
structure IoReg where
  base : Nat
  n : Nat
  count : Nat
  stride : Nat
  rw : Nat
  w1c : Nat
  w1s : Nat
  cls : RegClass
  rl : Bool
  hold : Bool
deriving DecidableEq, Repr

/-- The registers of 0E000h to 0E0FFh (R73, R111, R112, R139, R156). -/
def regsCore : List IoReg := [
  ⟨0xE000, 1, 1, 1, 1, 0, 0, .imm, false, false⟩,
  ⟨0xE001, 1, 1, 1, 0, 0, 0, .imm, false, false⟩,
  ⟨0xE010, 1, 3, 1, 0x1F, 0, 0, .imm, false, false⟩,
  ⟨0xE013, 1, 1, 1, 0x3F, 0, 0, .imm, false, false⟩,
  ⟨0xE014, 1, 1, 1, 0xFF, 0, 0, .imm, false, false⟩,
  ⟨0xE040, 1, 1, 1, 0, 0, 0x80, .imm, false, false⟩,
  ⟨0xE041, 1, 1, 1, 0x1F, 0, 0, .imm, false, false⟩,
  ⟨0xE042, 2, 1, 1, 0xB3FF, 0, 0, .imm, true, true⟩,
  ⟨0xE044, 2, 1, 1, 0x3FF, 0, 0, .imm, false, false⟩,
  ⟨0xE046, 4, 1, 1, 0xFFFFFFFF, 0, 0, .imm, true, true⟩,
  ⟨0xE04A, 1, 1, 1, 0, 0, 0, .imm, false, false⟩,
  ⟨0xE04B, 2, 1, 1, 0, 0, 0, .imm, false, false⟩,
  ⟨0xE080, 1, 1, 1, 1, 0, 0, .imm, false, false⟩,
  ⟨0xE081, 1, 1, 1, 0, 1, 0, .imm, false, false⟩,
  ⟨0xE082, 1, 1, 1, 0xFF, 0, 0, .imm, false, false⟩,
  ⟨0xE083, 1, 1, 1, 0xFF, 0, 0, .imm, false, false⟩,
  ⟨0xE084, 1, 1, 1, 0xF, 0, 0, .imm, false, false⟩,
  ⟨0xE085, 1, 1, 1, 0, 0, 0, .imm, false, false⟩,
  ⟨0xE086, 2, 1, 1, 0xFFFF, 0, 0, .imm, false, false⟩,
  ⟨0xE088, 2, 1, 1, 0, 0, 0, .imm, true, false⟩,
  ⟨0xE08A, 2, 1, 1, 0, 0, 0, .imm, true, false⟩,
  ⟨0xE08C, 4, 1, 1, 0, 0, 0, .imm, true, false⟩,
  ⟨0xE090, 4, 1, 1, 0, 0, 0, .imm, true, false⟩,
  ⟨0xE094, 1, 1, 1, 0, 0, 0, .imm, false, false⟩,
  ⟨0xE095, 1, 1, 1, 0xFF, 0, 0, .imm, false, false⟩,
  ⟨0xE096, 1, 1, 1, 0xFF, 0, 0, .imm, false, false⟩,
  ⟨0xE097, 1, 1, 1, 0xFF, 0, 0, .imm, false, false⟩]

/-- The registers of 0E100h to 0E1FFh (R364). -/
def regsIntc : List IoReg := [
  ⟨0xE100, 6, 1, 1, 0, 0, 0, .imm, true, false⟩,
  ⟨0xE108, 6, 1, 1, 0, 0, 0, .imm, true, false⟩,
  ⟨0xE110, 1, 1, 1, 0, 0, 0, .imm, false, false⟩,
  ⟨0xE112, 1, 1, 1, 0, 0, 0, .imm, false, false⟩,
  ⟨0xE114, 2, 1, 1, 0, 0, 0, .imm, true, false⟩,
  ⟨0xE116, 1, 1, 1, 0, 0, 0, .imm, false, false⟩,
  ⟨0xE140, 1, 48, 1, 0xF0, 0, 0, .imm, false, false⟩,
  ⟨0xE170, 1, 48, 1, 0xFF, 0, 0, .imm, false, false⟩,
  ⟨0xE1A0, 1, 48, 1, 0xFF, 0, 0, .imm, false, false⟩,
  ⟨0xE1E0, 1, 1, 1, 0x80, 0, 0, .imm, false, false⟩,
  ⟨0xE1E1, 1, 1, 1, 0, 3, 0, .imm, false, false⟩,
  ⟨0xE1E2, 1, 1, 1, 0, 0, 0, .imm, false, false⟩]

/-- The registers of 0E200h to 0E2FFh (R358). -/
def regsTimer : List IoReg := [
  ⟨0xE200, 4, 4, 0x20, 0, 0, 0, .imm, true, false⟩,
  ⟨0xE204, 4, 4, 0x20, 0xFFFFFFFF, 0, 0, .imm, false, true⟩,
  ⟨0xE208, 4, 4, 0x20, 0, 0, 0, .imm, true, false⟩,
  ⟨0xE20C, 1, 4, 0x20, 0x1F, 0, 0, .imm, false, false⟩,
  ⟨0xE20D, 1, 4, 0x20, 0x3F, 0, 0, .imm, false, false⟩,
  ⟨0xE20E, 2, 4, 0x20, 0xFFFF, 0, 0, .imm, false, true⟩,
  ⟨0xE210, 4, 4, 0x20, 0xFFFFFFFF, 0, 0, .imm, false, true⟩,
  ⟨0xE214, 4, 4, 0x20, 0xFFFFFFFF, 0, 0, .imm, false, true⟩,
  ⟨0xE218, 1, 4, 0x20, 0xFF, 0, 0, .imm, false, false⟩,
  ⟨0xE219, 1, 4, 0x20, 0xF3, 0, 0, .imm, false, false⟩,
  ⟨0xE21A, 1, 4, 0x20, 0xFF, 0, 0, .imm, false, false⟩,
  ⟨0xE21B, 1, 4, 0x20, 0xFC, 0, 0, .imm, false, false⟩,
  ⟨0xE21C, 1, 4, 0x20, 0xF, 0, 0, .imm, false, false⟩,
  ⟨0xE21D, 1, 4, 0x20, 0, 0x1F, 0, .imm, false, false⟩,
  ⟨0xE21E, 1, 4, 0x20, 0, 0xF, 0, .imm, false, false⟩,
  ⟨0xE21F, 1, 4, 0x20, 0x1F, 0, 0, .imm, false, false⟩]

/-- The registers of 0E300h to 0E3FFh (R347). -/
def regsPin : List IoReg := [
  ⟨0xE300, 2, 1, 1, 0xFFFF, 0, 0, .imm, false, false⟩,
  ⟨0xE302, 2, 1, 1, 0, 0, 0, .imm, false, false⟩,
  ⟨0xE304, 2, 1, 1, 0, 0, 0, .imm, false, false⟩,
  ⟨0xE306, 2, 1, 1, 0, 0, 0, .imm, false, false⟩,
  ⟨0xE308, 2, 1, 1, 0xFFFF, 0, 0, .imm, false, false⟩,
  ⟨0xE30A, 2, 1, 1, 0, 0, 0, .imm, true, false⟩,
  ⟨0xE30C, 2, 1, 1, 0xFFFF, 0, 0, .imm, false, false⟩,
  ⟨0xE310, 2, 1, 1, 0, 0xFFFF, 0, .imm, false, false⟩,
  ⟨0xE312, 2, 1, 1, 0, 0xFFFF, 0, .imm, false, false⟩,
  ⟨0xE314, 1, 1, 1, 0xFF, 0, 0, .imm, false, false⟩,
  ⟨0xE315, 1, 1, 1, 0xFF, 0, 0, .imm, false, false⟩,
  ⟨0xE316, 2, 1, 1, 0xFFFF, 0, 0, .imm, false, false⟩,
  ⟨0xE318, 2, 1, 1, 0xFFFF, 0, 0, .imm, false, false⟩,
  ⟨0xE31A, 1, 1, 1, 3, 0, 0, .imm, false, false⟩,
  ⟨0xE31B, 1, 1, 1, 0, 1, 0, .imm, false, false⟩,
  ⟨0xE31C, 2, 1, 1, 0, 0, 0, .imm, true, false⟩,
  ⟨0xE31E, 2, 1, 1, 0xFFFF, 0, 0, .imm, false, false⟩,
  ⟨0xE320, 2, 1, 1, 0xFFFF, 0, 0, .imm, false, false⟩,
  ⟨0xE322, 2, 1, 1, 0xFFFF, 0, 0, .imm, false, false⟩,
  ⟨0xE324, 1, 1, 1, 0, 0, 0, .imm, false, false⟩,
  ⟨0xE326, 2, 1, 1, 0, 0, 0, .imm, true, false⟩,
  ⟨0xE328, 2, 1, 1, 0, 0, 0, .imm, true, false⟩,
  ⟨0xE340, 1, 16, 2, 0xFF, 0, 0, .imm, false, false⟩,
  ⟨0xE341, 1, 16, 2, 0xF7, 0, 0, .imm, false, false⟩]

/-- The registers of 0E400h to 0E4FFh (R327, R328). -/
def regsPio : List IoReg := [
  ⟨0xE400, 1, 1, 1, 0xF, 0, 0xF0, .imm, false, false⟩,
  ⟨0xE401, 1, 1, 1, 0, 0, 0x8F, .imm, false, false⟩,
  ⟨0xE402, 1, 1, 1, 0, 0xFF, 0, .imm, false, false⟩,
  ⟨0xE403, 1, 1, 1, 0, 0xFF, 0, .imm, false, false⟩,
  ⟨0xE404, 1, 1, 1, 0, 0, 0, .imm, false, false⟩,
  ⟨0xE410, 1, 4, 0x18, 0xFF, 0, 0, .imm, false, false⟩,
  ⟨0xE411, 2, 4, 0x18, 0xFFFF, 0, 0, .imm, false, true⟩,
  ⟨0xE413, 2, 4, 0x18, 0x3F3F, 0, 0, .imm, false, true⟩,
  ⟨0xE415, 1, 4, 0x18, 0xFC, 0, 0, .imm, false, false⟩,
  ⟨0xE416, 1, 4, 0x18, 0x1F, 0, 0, .imm, false, false⟩,
  ⟨0xE417, 1, 4, 0x18, 0x1F, 0, 0, .imm, false, false⟩,
  ⟨0xE418, 1, 4, 0x18, 0xFF, 0, 0, .imm, false, false⟩,
  ⟨0xE419, 1, 4, 0x18, 0x1F, 0, 0, .imm, false, false⟩,
  ⟨0xE41A, 1, 4, 0x18, 0xEF, 0, 0, .imm, false, false⟩,
  ⟨0xE41B, 1, 4, 0x18, 0xFF, 0, 0, .imm, false, false⟩,
  ⟨0xE41C, 1, 4, 0x18, 0, 0, 0, .imm, false, false⟩,
  ⟨0xE41D, 1, 4, 0x18, 0, 0, 0, .imm, false, false⟩,
  ⟨0xE41E, 1, 4, 0x18, 0, 0xF, 0, .imm, false, false⟩,
  ⟨0xE41F, 1, 4, 0x18, 0x87, 0, 0, .imm, false, false⟩,
  ⟨0xE420, 4, 4, 0x18, 0, 0, 0, .imm, false, true⟩,
  ⟨0xE424, 4, 4, 0x18, 0, 0, 0, .imm, true, false⟩,
  ⟨0xE470, 2, 4, 2, 0xFFFF, 0, 0, .imm, false, true⟩,
  ⟨0xE480, 2, 40, 2, 0xFFFF, 0, 0, .imm, false, true⟩]

/-- The registers of 0E500h to 0E5FFh (R284). -/
def regsDma : List IoReg := [
  ⟨0xE500, 1, 4, 0x10, 0xBF, 0, 0, .imm, false, false⟩,
  ⟨0xE501, 1, 4, 0x10, 0, 0x16, 0, .imm, false, false⟩,
  ⟨0xE502, 3, 4, 0x10, 0x7FFF0, 0, 0, .imm, false, false⟩,
  ⟨0xE505, 1, 4, 0x10, 0xF, 0, 0, .imm, false, false⟩,
  ⟨0xE506, 3, 4, 0x10, 0x7FFF8, 0, 0, .imm, false, false⟩,
  ⟨0xE509, 2, 4, 0x10, 0, 0, 0, .imm, true, false⟩,
  ⟨0xE50B, 2, 4, 0x10, 0x3FF, 0, 0, .imm, false, false⟩,
  ⟨0xE540, 1, 1, 1, 3, 0, 0, .imm, false, false⟩,
  ⟨0xE541, 1, 1, 1, 0x7F, 0, 0, .imm, false, false⟩,
  ⟨0xE542, 1, 1, 1, 0x7F, 0, 0, .imm, false, false⟩]

/-- The registers of 0E600h to 0E6FFh (R276). -/
def regsBlit : List IoReg := [
  ⟨0xE600, 32, 1, 1, 0xFFFFFFFFFFFFFFFFFFFFFFFFFFFFFFFFFFFFFFFFFFFFFFFFFFFFFFFFFFFFFFFF, 0, 0, .imm, false, false⟩,
  ⟨0xE620, 8, 4, 8, 0xFFF0FFF0FFF0FFF, 0, 0, .imm, false, false⟩,
  ⟨0xE640, 1, 1, 1, 0, 0, 3, .imm, false, false⟩,
  ⟨0xE641, 1, 1, 1, 0, 7, 0, .imm, false, false⟩,
  ⟨0xE642, 1, 1, 1, 0, 0, 0, .imm, false, false⟩,
  ⟨0xE644, 3, 1, 1, 0x7FFE0, 0, 0, .imm, false, false⟩,
  ⟨0xE648, 3, 1, 1, 0, 0, 0, .imm, true, false⟩]

/-- The registers of 0E700h to 0E8FFh (R180, R203). -/
def regsBeam : List IoReg := [
  ⟨0xE700, 1, 1, 1, 0x80, 0, 1, .imm, false, false⟩,
  ⟨0xE701, 1, 1, 1, 0, 0x7F, 0, .imm, false, false⟩,
  ⟨0xE702, 2, 1, 1, 0, 0, 0, .imm, true, false⟩,
  ⟨0xE708, 4, 1, 1, 0x87FF07FF, 0, 0, .imm, false, true⟩,
  ⟨0xE70C, 4, 1, 1, 0x87FF07FF, 0, 0, .imm, false, true⟩,
  ⟨0xE710, 4, 1, 1, 0, 0, 0, .imm, true, false⟩,
  ⟨0xE714, 2, 1, 1, 0, 0, 0, .imm, true, false⟩,
  ⟨0xE718, 4, 1, 1, 0, 0, 0, .imm, true, false⟩,
  ⟨0xE720, 8, 1, 1, 0, 0, 0, .imm, true, false⟩,
  ⟨0xE730, 4, 1, 1, 0xFFFFFFFF, 0, 0, .framed, false, false⟩,
  ⟨0xE734, 2, 1, 1, 0xFFF, 0, 0, .framed, false, false⟩,
  ⟨0xE736, 2, 1, 1, 0x7FF, 0, 0, .framed, false, false⟩,
  ⟨0xE738, 2, 1, 1, 0xFFF, 0, 0, .framed, false, false⟩,
  ⟨0xE73A, 2, 1, 1, 0xFFF, 0, 0, .framed, false, false⟩,
  ⟨0xE73C, 2, 1, 1, 0x7FF, 0, 0, .framed, false, false⟩,
  ⟨0xE73E, 2, 1, 1, 0x3FF, 0, 0, .framed, false, false⟩,
  ⟨0xE740, 2, 1, 1, 0x7FF, 0, 0, .framed, false, false⟩,
  ⟨0xE742, 2, 1, 1, 0x7FF, 0, 0, .framed, false, false⟩,
  ⟨0xE744, 2, 1, 1, 0x3FF, 0, 0, .framed, false, false⟩,
  ⟨0xE746, 2, 1, 1, 0x3FF, 0, 0, .framed, false, false⟩,
  ⟨0xE760, 3, 1, 1, 0x7FFFC, 0, 0, .framed, false, false⟩,
  ⟨0xE763, 1, 1, 1, 1, 0, 0, .framed, false, false⟩,
  ⟨0xE764, 1, 1, 1, 0, 0xF, 0, .imm, false, false⟩,
  ⟨0xE765, 2, 1, 1, 0, 0, 0, .imm, true, false⟩,
  ⟨0xE767, 1, 1, 1, 0xFF, 0, 0, .imm, false, false⟩,
  ⟨0xE768, 2, 1, 1, 0, 0, 0, .imm, true, false⟩,
  ⟨0xE780, 1, 1, 1, 0xFF, 0, 0, .framed, false, false⟩,
  ⟨0xE781, 1, 1, 1, 0x3C, 0, 0, .framed, false, false⟩,
  ⟨0xE782, 1, 1, 1, 0xFF, 0, 0, .framed, false, false⟩,
  ⟨0xE783, 1, 1, 1, 1, 0, 0, .live, false, false⟩,
  ⟨0xE784, 2, 1, 1, 0xFFFF, 0, 0, .live, false, true⟩,
  ⟨0xE786, 2, 1, 1, 0xFFFF, 0, 0, .live, false, true⟩,
  ⟨0xE788, 2, 1, 1, 0xFFFF, 0, 0, .live, false, true⟩,
  ⟨0xE78A, 2, 1, 1, 0xFFFF, 0, 0, .live, false, true⟩,
  ⟨0xE78C, 1, 1, 1, 0xFF, 0, 0, .live, false, false⟩,
  ⟨0xE7A0, 1, 1, 1, 0xFF, 0, 0, .framed, false, false⟩,
  ⟨0xE7A1, 1, 1, 1, 0x3C, 0, 0, .framed, false, false⟩,
  ⟨0xE7A2, 1, 1, 1, 0xFF, 0, 0, .framed, false, false⟩,
  ⟨0xE7A3, 1, 1, 1, 1, 0, 0, .live, false, false⟩,
  ⟨0xE7A4, 2, 1, 1, 0xFFFF, 0, 0, .live, false, true⟩,
  ⟨0xE7A6, 2, 1, 1, 0xFFFF, 0, 0, .live, false, true⟩,
  ⟨0xE7A8, 2, 1, 1, 0xFFFF, 0, 0, .live, false, true⟩,
  ⟨0xE7AA, 2, 1, 1, 0xFFFF, 0, 0, .live, false, true⟩,
  ⟨0xE7AC, 1, 1, 1, 0xFF, 0, 0, .live, false, false⟩,
  ⟨0xE7C0, 1, 1, 1, 0xFF, 0, 0, .framed, false, false⟩,
  ⟨0xE7C1, 1, 1, 1, 0, 0, 0, .imm, false, false⟩,
  ⟨0xE7D0, 1, 1, 1, 0x83, 0, 0, .live, false, false⟩,
  ⟨0xE7D2, 2, 1, 1, 0xFFFF, 0, 0, .live, false, true⟩,
  ⟨0xE7D4, 2, 1, 1, 0xFFFF, 0, 0, .live, false, true⟩,
  ⟨0xE7D6, 1, 1, 1, 0xFF, 0, 0, .live, false, false⟩,
  ⟨0xE7D8, 1, 1, 1, 0, 0xF, 0, .imm, false, false⟩,
  ⟨0xE7DA, 2, 1, 1, 0, 0, 0, .imm, true, false⟩,
  ⟨0xE7DC, 2, 1, 1, 0, 0, 0, .imm, true, false⟩,
  ⟨0xE800, 16, 1, 1, 0, 0xFFFFFFFFFFFFFFFFFFFFFFFFFFFFFFFF, 0, .imm, false, false⟩,
  ⟨0xE810, 16, 1, 1, 0, 0xFFFFFFFFFFFFFFFFFFFFFFFFFFFFFFFF, 0, .imm, false, false⟩,
  ⟨0xE820, 32, 1, 1, 0, 0xFFFFFFFFFFFFFFFFFFFFFFFFFFFFFFFFFFFFFFFFFFFFFFFFFFFFFFFFFFFFFFFF, 0, .imm, false, false⟩]

/-- The registers of 0E900h to 0E9FFh (R234). -/
def regsCompose : List IoReg := [
  ⟨0xE900, 2, 1, 1, 0x7FFF, 0, 0, .framed, false, false⟩,
  ⟨0xE904, 4, 1, 1, 0x3FFFFFFF, 0, 0, .framed, false, false⟩,
  ⟨0xE910, 1, 6, 8, 3, 0, 0, .live, false, false⟩,
  ⟨0xE911, 1, 6, 8, 0xFF, 0, 0, .live, false, false⟩,
  ⟨0xE912, 1, 6, 8, 0xFF, 0, 0, .framed, false, false⟩,
  ⟨0xE914, 4, 6, 8, 0x3FFFFFFF, 0, 0, .framed, false, false⟩,
  ⟨0xE940, 1, 1, 1, 0x8C, 0, 0, .framed, false, false⟩,
  ⟨0xE941, 1, 1, 1, 0xFF, 0, 0, .live, false, false⟩,
  ⟨0xE942, 2, 1, 1, 0x3FF, 0, 0, .live, false, true⟩,
  ⟨0xE944, 2, 1, 1, 0x3FF, 0, 0, .live, false, true⟩,
  ⟨0xE946, 2, 1, 1, 0x7FF, 0, 0, .framed, false, false⟩,
  ⟨0xE948, 2, 1, 1, 0x3FF, 0, 0, .framed, false, false⟩,
  ⟨0xE94A, 2, 1, 1, 0xFFFF, 0, 0, .live, false, true⟩,
  ⟨0xE94C, 2, 1, 1, 0xFFF, 0, 0, .framed, false, false⟩,
  ⟨0xE950, 1, 1, 1, 1, 0, 0, .live, false, false⟩,
  ⟨0xE951, 1, 1, 1, 0xFF, 0, 0, .live, false, false⟩,
  ⟨0xE952, 2, 1, 1, 0x7FF, 0, 0, .live, false, true⟩,
  ⟨0xE954, 2, 1, 1, 0x7FF, 0, 0, .live, false, true⟩,
  ⟨0xE956, 2, 1, 1, 0xFFFF, 0, 0, .live, false, true⟩,
  ⟨0xE960, 1, 1, 1, 0xFF, 0, 0, .live, false, false⟩,
  ⟨0xE962, 2, 1, 1, 0xFFFF, 0, 0, .live, false, true⟩,
  ⟨0xE964, 2, 1, 1, 0x3FFF, 0, 0, .live, false, true⟩,
  ⟨0xE968, 4, 1, 1, 0, 0, 0, .imm, true, false⟩,
  ⟨0xE970, 1, 1, 1, 0xFF, 0, 0, .live, false, false⟩,
  ⟨0xE972, 2, 1, 1, 0x3FF, 0, 0, .live, false, true⟩,
  ⟨0xE974, 2, 1, 1, 0xFFFF, 0, 0, .live, false, true⟩,
  ⟨0xE976, 2, 1, 1, 0, 0, 0, .imm, true, false⟩,
  ⟨0xE980, 1, 1, 1, 0xD, 0, 0, .framed, false, false⟩,
  ⟨0xE9A0, 1, 1, 1, 0xF0, 0, 0, .framed, false, false⟩,
  ⟨0xE9A2, 2, 1, 1, 0x3FF, 0, 0, .framed, false, false⟩,
  ⟨0xE9A4, 2, 1, 1, 0x3FF, 0, 0, .framed, false, false⟩,
  ⟨0xE9A6, 2, 1, 1, 0x7FF, 0, 0, .framed, false, false⟩,
  ⟨0xE9A8, 2, 1, 1, 0x3FF, 0, 0, .framed, false, false⟩,
  ⟨0xE9AA, 1, 1, 1, 0, 7, 0, .imm, false, false⟩,
  ⟨0xE9AC, 2, 1, 1, 0, 0, 0, .imm, true, false⟩,
  ⟨0xE9AE, 2, 1, 1, 0, 0, 0, .imm, true, false⟩,
  ⟨0xE9B0, 2, 1, 1, 0, 0, 0, .imm, true, false⟩,
  ⟨0xE9B2, 2, 1, 1, 0, 0, 0, .imm, true, false⟩,
  ⟨0xE9C0, 1, 1, 1, 0xF0, 0, 0, .framed, false, false⟩,
  ⟨0xE9C2, 2, 1, 1, 0x3FF, 0, 0, .framed, false, false⟩,
  ⟨0xE9C4, 2, 1, 1, 0x3FF, 0, 0, .framed, false, false⟩,
  ⟨0xE9C6, 2, 1, 1, 0x7FF, 0, 0, .framed, false, false⟩,
  ⟨0xE9C8, 2, 1, 1, 0x3FF, 0, 0, .framed, false, false⟩,
  ⟨0xE9CA, 1, 1, 1, 0, 7, 0, .imm, false, false⟩,
  ⟨0xE9CC, 2, 1, 1, 0, 0, 0, .imm, true, false⟩,
  ⟨0xE9CE, 2, 1, 1, 0, 0, 0, .imm, true, false⟩,
  ⟨0xE9D0, 2, 1, 1, 0, 0, 0, .imm, true, false⟩,
  ⟨0xE9D2, 2, 1, 1, 0, 0, 0, .imm, true, false⟩]

/-- The registers of 0EA00h to 0EAFFh (R235, R259). -/
def regsOutput : List IoReg := [
  ⟨0xEA00, 1, 1, 1, 0xCF, 0, 0, .framed, false, false⟩,
  ⟨0xEA02, 2, 1, 1, 0x1FFF, 0, 0, .framed, false, false⟩,
  ⟨0xEA04, 1, 1, 1, 0, 0, 1, .imm, false, false⟩,
  ⟨0xEA06, 2, 1, 1, 0xFFFF, 0, 0, .imm, false, true⟩,
  ⟨0xEA80, 1, 1, 1, 0xFF, 0, 0, .framed, false, false⟩,
  ⟨0xEA81, 1, 1, 1, 0xFF, 0, 0, .framed, false, false⟩,
  ⟨0xEA82, 1, 1, 1, 0, 0xFF, 0, .imm, false, false⟩,
  ⟨0xEA83, 1, 1, 1, 0, 0, 0, .imm, false, false⟩,
  ⟨0xEA84, 2, 1, 1, 0, 0, 0, .imm, true, false⟩,
  ⟨0xEA86, 2, 1, 1, 0, 0, 0, .imm, true, false⟩,
  ⟨0xEA88, 1, 8, 4, 0x1F, 0, 0, .framed, false, false⟩,
  ⟨0xEA89, 1, 8, 4, 0x7F, 0, 0, .framed, false, false⟩,
  ⟨0xEA8A, 1, 8, 4, 0x1F, 0, 0, .framed, false, false⟩,
  ⟨0xEA8B, 1, 8, 4, 0x7F, 0, 0, .framed, false, false⟩,
  ⟨0xEAA8, 2, 1, 1, 0, 0, 0, .imm, true, false⟩,
  ⟨0xEAB0, 1, 1, 1, 0xC0, 0, 0, .framed, false, false⟩,
  ⟨0xEAB1, 1, 1, 1, 0, 1, 0, .imm, false, false⟩,
  ⟨0xEAB2, 2, 1, 1, 0xFFFF, 0, 0, .framed, false, false⟩,
  ⟨0xEAB4, 4, 1, 1, 0x7F1F7F1F, 0, 0, .framed, false, false⟩,
  ⟨0xEAB8, 4, 1, 1, 0, 0, 0, .imm, true, false⟩,
  ⟨0xEABC, 4, 1, 1, 0, 0, 0, .imm, true, false⟩]

/-- The registers of 0EB00h to 0EBFFh (R310). -/
def regsAudio : List IoReg := [
  ⟨0xEB00, 1, 1, 1, 0xC0, 0, 0, .imm, false, false⟩,
  ⟨0xEB01, 1, 1, 1, 0xFF, 0, 0, .framed, false, false⟩,
  ⟨0xEB04, 4, 1, 1, 0, 0, 0, .imm, true, false⟩,
  ⟨0xEB10, 2, 4, 4, 0xFFFF, 0, 0, .imm, false, true⟩,
  ⟨0xEB12, 1, 4, 4, 0xFF, 0, 0, .imm, false, false⟩,
  ⟨0xEB13, 1, 4, 4, 0x80, 0, 0, .imm, false, false⟩,
  ⟨0xEB20, 2, 1, 1, 0xFFFF, 0, 0, .imm, false, true⟩,
  ⟨0xEB22, 1, 1, 1, 0xCF, 0, 0, .imm, false, false⟩,
  ⟨0xEB24, 2, 2, 4, 0xFFFF, 0, 0, .imm, false, true⟩,
  ⟨0xEB26, 1, 2, 4, 0x8F, 0, 0, .imm, false, false⟩,
  ⟨0xEB27, 1, 2, 4, 0, 0, 0, .imm, false, false⟩,
  ⟨0xEB30, 16, 1, 1, 0xFFFFFFFFFFFFFFFFFFFFFFFFFFFFFFFF, 0, 0, .imm, false, true⟩,
  ⟨0xEB40, 16, 1, 1, 0xFFFFFFFFFFFFFFFFFFFFFFFFFFFFFFFF, 0, 0, .imm, false, true⟩,
  ⟨0xEB50, 1, 1, 1, 0x8F, 0, 0, .imm, false, false⟩,
  ⟨0xEB58, 1, 1, 1, 0xEC, 0, 0, .imm, false, false⟩,
  ⟨0xEB59, 1, 1, 1, 0, 0, 0, .imm, false, false⟩,
  ⟨0xEB5A, 1, 1, 1, 0, 0, 0, .imm, false, false⟩,
  ⟨0xEB5B, 1, 1, 1, 0, 0xF, 0, .imm, false, false⟩,
  ⟨0xEB5C, 2, 1, 1, 0, 0, 0, .imm, true, false⟩,
  ⟨0xEB60, 1, 1, 1, 0x7F, 0, 0, .imm, false, false⟩,
  ⟨0xEB62, 2, 1, 1, 0xFFFF, 0, 0, .imm, false, true⟩,
  ⟨0xEB64, 1, 1, 1, 0x80, 0, 0, .imm, false, false⟩,
  ⟨0xEB65, 1, 1, 1, 0, 0, 0, .imm, false, false⟩,
  ⟨0xEB66, 2, 1, 1, 0, 0, 0, .imm, true, false⟩,
  ⟨0xEB68, 2, 1, 1, 0, 0, 0, .imm, false, true⟩,
  ⟨0xEB6A, 2, 1, 1, 0xEFF, 0, 0, .imm, false, true⟩,
  ⟨0xEB70, 1, 1, 1, 7, 0, 0, .imm, false, false⟩,
  ⟨0xEB71, 1, 1, 1, 0x80, 0, 0, .imm, false, false⟩,
  ⟨0xEB72, 2, 1, 1, 0x7FFF, 0, 0, .imm, false, true⟩,
  ⟨0xEB74, 2, 1, 1, 0xFFFF, 0, 0, .imm, false, true⟩,
  ⟨0xEB76, 1, 1, 1, 0xF, 0, 0, .imm, false, false⟩,
  ⟨0xEB78, 3, 1, 1, 0xFFFFFF, 0, 0, .imm, false, true⟩,
  ⟨0xEB7B, 1, 1, 1, 0, 0, 0xFF, .imm, false, false⟩,
  ⟨0xEB7C, 2, 1, 1, 0, 0, 0, .imm, true, false⟩,
  ⟨0xEB7E, 2, 1, 1, 0, 0, 0, .imm, true, false⟩,
  ⟨0xEB80, 1, 1, 1, 0x87, 0, 0, .imm, false, false⟩,
  ⟨0xEB81, 1, 1, 1, 0, 0, 0, .imm, false, false⟩,
  ⟨0xEB82, 1, 1, 1, 0, 7, 0, .imm, false, false⟩,
  ⟨0xEB84, 2, 1, 1, 0, 0, 0, .imm, true, false⟩,
  ⟨0xEB86, 2, 1, 1, 0, 0, 0, .imm, true, false⟩,
  ⟨0xEB88, 1, 1, 1, 0x83, 0, 0, .imm, false, false⟩,
  ⟨0xEB89, 1, 1, 1, 0, 3, 0, .imm, false, false⟩,
  ⟨0xEB90, 2, 1, 1, 0xFFF, 0, 0, .imm, false, true⟩,
  ⟨0xEB92, 1, 1, 1, 0x8F, 0, 0, .imm, false, false⟩,
  ⟨0xEB93, 1, 1, 1, 0x8F, 0, 0, .imm, false, false⟩,
  ⟨0xEB98, 1, 1, 1, 0x80, 0, 0, .imm, false, false⟩,
  ⟨0xEB99, 1, 1, 1, 0, 0, 0, .imm, false, false⟩,
  ⟨0xEB9A, 1, 1, 1, 0, 1, 0, .imm, false, false⟩,
  ⟨0xEB9C, 4, 1, 1, 0, 0, 0, .imm, true, false⟩]

/-- The registers of 0EC00h to 0ECFFh (R389). -/
def regsLine : List IoReg := [
  ⟨0xEC00, 8, 1, 1, 0, 0, 0, .imm, true, false⟩,
  ⟨0xEC08, 1, 1, 1, 0, 0, 0, .imm, false, false⟩,
  ⟨0xEC09, 1, 1, 1, 0x80, 0, 0, .imm, false, false⟩,
  ⟨0xEC20, 1, 4, 0x10, 0xFF, 0, 0, .imm, false, false⟩,
  ⟨0xEC21, 1, 4, 0x10, 0xFF, 0, 0, .imm, false, false⟩,
  ⟨0xEC22, 1, 4, 0x10, 0, 0xE0, 0, .imm, false, false⟩,
  ⟨0xEC24, 2, 4, 0x10, 0, 0, 0, .imm, true, false⟩,
  ⟨0xEC26, 2, 4, 0x10, 0, 0, 0, .imm, true, false⟩,
  ⟨0xEC28, 1, 4, 0x10, 0xFF, 0, 0, .imm, false, false⟩,
  ⟨0xEC29, 1, 4, 0x10, 0xFF, 0, 0, .imm, false, false⟩]

/-- The registers of 0ED00h to 0EDFFh (R462). -/
def regsCrypto : List IoReg := [
  ⟨0xED00, 1, 1, 1, 0xF, 0, 0xC0, .imm, false, false⟩,
  ⟨0xED01, 1, 1, 1, 0x77, 0, 0, .imm, false, false⟩,
  ⟨0xED02, 1, 1, 1, 0xFB, 0, 0, .imm, false, false⟩,
  ⟨0xED04, 2, 1, 1, 0xFFFF, 0, 0, .imm, false, true⟩,
  ⟨0xED10, 16, 1, 1, 0xFFFFFFFFFFFFFFFFFFFFFFFFFFFFFFFF, 0, 0, .imm, false, false⟩,
  ⟨0xED20, 1, 1, 1, 0, 0, 0, .imm, false, false⟩,
  ⟨0xED21, 1, 1, 1, 0, 0, 0, .imm, false, false⟩,
  ⟨0xED22, 1, 1, 1, 0, 0, 0, .imm, false, false⟩,
  ⟨0xED23, 1, 1, 1, 0, 0, 0, .imm, false, false⟩,
  ⟨0xED24, 1, 1, 1, 0, 7, 0, .imm, false, false⟩,
  ⟨0xED25, 1, 1, 1, 0, 0, 0, .imm, false, false⟩,
  ⟨0xED30, 16, 1, 1, 0, 0, 0, .imm, true, false⟩,
  ⟨0xED40, 1, 8, 1, 0, 0, 0, .imm, false, false⟩]

/-- The registers of 0EE00h to 0EEFFh (R434). -/
def regsNet : List IoReg := [
  ⟨0xEE00, 1, 1, 1, 0, 0, 0, .imm, false, false⟩,
  ⟨0xEE01, 1, 1, 1, 0, 0, 0, .imm, false, false⟩,
  ⟨0xEE02, 2, 1, 1, 0, 0, 0, .imm, true, false⟩,
  ⟨0xEE04, 2, 1, 1, 0, 0, 0, .imm, true, false⟩]

/-- The registers of the block that holds address `a` (R76). -/
def regsAt (a : Nat) : List IoReg :=
  if a < 0xE100 then regsCore
  else if a < 0xE200 then regsIntc
  else if a < 0xE300 then regsTimer
  else if a < 0xE400 then regsPin
  else if a < 0xE500 then regsPio
  else if a < 0xE600 then regsDma
  else if a < 0xE700 then regsBlit
  else if a < 0xE900 then regsBeam
  else if a < 0xEA00 then regsCompose
  else if a < 0xEB00 then regsOutput
  else if a < 0xEC00 then regsAudio
  else if a < 0xED00 then regsLine
  else if a < 0xEE00 then regsCrypto
  else if a < 0xEF00 then regsNet
  else []

/-- Where an address lies: the register, the address of its byte 0, and the byte. -/
structure IoLoc where
  reg : IoReg
  start : Nat
  off : Nat
deriving DecidableEq, Repr

/-- The place of address `a` in register `r`. -/
def IoReg.locate (r : IoReg) (a : Nat) : Option IoLoc :=
  let k := (a - r.base) / r.stride
  let off := (a - r.base) % r.stride
  if a < r.base ∨ r.count ≤ k ∨ r.n ≤ off then
    -- a register alone has a stride of 1
    if r.count = 1 ∧ r.base ≤ a ∧ a < r.base + r.n then some { reg := r, start := r.base, off := a - r.base }
    else none
  else some { reg := r, start := r.base + r.stride * k, off := off }

/-- The register that occupies an address, if any (R76). -/
def locate (a : Nat) : Option IoLoc :=
  if a < 0xE000 then none else (regsAt a).findSome? (·.locate a)

/-- The bits of one byte of a mask. -/
def maskByte (m off : Nat) : Byte := BitVec.ofNat 8 (m / 256 ^ off)

/-- The bytes of the registers of a class. -/
def classBytes (cls : RegClass) : List Nat :=
  [0xE700, 0xE900, 0xEA00, 0xEB00].flatMap fun b =>
    (regsAt b).flatMap fun r =>
      if r.cls = cls then
        (List.range r.count).flatMap fun k => (List.range r.n).map fun i => r.base + r.stride * k + i
      else []

/-- The addresses of the framed registers (R166). -/
def framedAddrs : List Nat := classBytes .framed

/-- Whether an address is the low byte of a 16-bit live register, or a live register of one byte
(R176). -/
def isLiveLow16 (a : Nat) : Bool :=
  match locate a with
  | some l => l.reg.cls == .live && l.reg.n == 2 && l.off == 0
  | none => false

def isLiveByte (a : Nat) : Bool :=
  match locate a with
  | some l => l.reg.cls == .live
  | none => false

/-- The bits of a live byte that a write sets. -/
def liveMask (a : Nat) : Byte :=
  match locate a with
  | some l => maskByte l.reg.rw l.off
  | none => 0#8

end Sys2Proof.Machine
end

