-- ==== Sys2Proof/Machine/Chip.lean ====
section
/-! DEFINITION. What follows the dot clock outside the picture: the audio chip tick with its voices
(R287 to R293), and the event requests of the DMA streams (R278). -/

namespace Sys2Proof.Machine

/-- A DMA stream by number (R277). -/
def Cell.stream (c : Cell) (n : Nat) : DmaStream :=
  c.dma.getD n { phase := .idle, desc := [], src := 0, dst := 0, done := 0, cause := 0, side := false
                 request := false, ringPhase := true, restart := false }

def Cell.setStream (c : Cell) (n : Nat) (f : DmaStream → DmaStream) : Cell :=
  { c with dma := updateAt c.dma n f }

/-- STREAM_BUSY: a descriptor is active or a drop drains (R284); BUSY of the blitter (R276). -/
def DmaStream.busy (s : DmaStream) : Bool := s.phase != .idle
def Blitter.busy (b : Blitter) : Bool := b.phase != .idle

/-- The I/O address of register offset `o` of stream n (R284). -/
def dAddr (n o : Nat) : Nat := 0xE500 + 0x10 * n + o

/-- CTL.REQ of stream n (R278). -/
def Cell.dmaReq (c : Cell) (n : Nat) : Nat := (c.io.rd (dAddr n 0)).toNat % 64

/-- R278: an event of request source `req`; each enabled stream that names it latches one request,
and a second one sets REQ_OVR. -/
def Cell.dmaEvent (c : Cell) (req : Nat) : Cell :=
  (List.range 4).foldl (fun c n =>
    if c.dmaReq n ≠ req ∨ ¬ c.io.bit (dAddr n 0) 7 then c
    else if (c.stream n).request then { c with io := c.io.setBit (dAddr n 1) 4 true }
    else c.setStream n fun s => { s with request := true }) c

/-- The level of a voice with volume VOL (R286). -/
def level (vol : Nat) (high : Bool) : Int := if high then (vol * 2184 : Nat) else -((vol * 2184 : Nat) : Int)

/-- EB12h-style bytes of a voice in effect: EN in `en`, VOL in the low nibble of `b`. -/
def Cell.toneValue (c : Cell) (v : Nat) : Int :=
  let b := (c.eff.rd (0xEB12 + 4 * v)).toNat
  let phase := (c.audio.tones.getD v { count := 0, phase := 0 }).phase
  if b / 16 = 0 ∨ ¬ c.eff.bit (0xEB13 + 4 * v) 7 then 0 else level (b % 16) (decide (phase < b / 16))

/-- The noise voice's value (R291). -/
def Cell.noiseValue (c : Cell) : Int :=
  if c.eff.bit 0xEB22 7 then level ((c.eff.rd 0xEB22).toNat % 16) (c.audio.shift.getLsbD 0) else 0

/-- A wave voice's value (R286, R292). -/
def Cell.waveValue (c : Cell) (w : Nat) : Int :=
  let pos := (c.audio.waves.getD w { count := 0, phase := 0 }).phase
  let b := (c.eff.rd (0xEB30 + 0x10 * w + pos / 2)).toNat
  let s : Nat := if pos % 2 = 0 then b % 16 else b / 16
  let cfg := 0xEB26 + 4 * w
  if c.eff.bit cfg 7 then (2 * (s : Int) - 15) * ((c.eff.rd cfg).toNat % 16 : Nat) * 145 else 0

/-- The click's value (R286, R293). -/
def Cell.clickValue (c : Cell) : Int :=
  if c.eff.bit 0xEB50 7 then level ((c.eff.rd 0xEB50).toNat % 16) true else 0

/-- The values of the chip-domain sources, by input (R286). -/
def Cell.chipValues (c : Cell) : List (Nat × Int) :=
  (List.range 4).map (fun v => (v, c.toneValue v)) ++ [(4, c.noiseValue)] ++
    (List.range 2).map (fun w => (5 + w, c.waveValue w)) ++ [(8, c.clickValue)]

/-- The latest value of an input in the history. -/
def lastValue (h : List SourceEdge) (input : Nat) : Int :=
  ((h.find? (fun e => e.input = input)).map (·.value)).getD 0

/-- The changes of the sources' values, latest first (R295). -/
def Cell.noteSources (c : Cell) : Cell :=
  let a := c.audio
  let h := c.chipValues.foldl (fun h (p : Nat × Int) =>
    if lastValue h p.1 = p.2 then h
    else { input := p.1, tick := a.chipTicks, mix := a.mixTicks, value := p.2 } :: h) a.history
  { c with audio := { a with history := h } }

/-- An enabled counter at a chip tick (R290): at 0 it reloads from `per` and its phase advances modulo `size`. -/
def Voice.tick (v : Voice) (en : Bool) (per size : Nat) : Voice :=
  if ¬ en then v
  else if v.count = 0 then { count := per, phase := (v.phase + 1) % size }
  else { v with count := v.count - 1 }

/-- One step of the noise shift register (R291). -/
def noiseNext (short : Bool) (n : BitVec 18) : BitVec 18 :=
  if short then
    let low : BitVec 10 := n.setWidth 10
    let low := if low = 0#10 then 1#10 else low
    let fb := low.getLsbD 0 ^^ low.getLsbD 3
    (n.extractLsb' 10 8) ++ ((BitVec.ofBool fb) ++ (low.extractLsb' 1 9))
  else
    let fb := n.getLsbD 0 ^^ n.getLsbD 7
    (BitVec.ofBool fb) ++ (n.extractLsb' 1 17)

/-- The chip-domain registers but CLICK (R288). -/
def chipRegs : List Nat := (List.range 0x18).map (0xEB10 + ·) ++ (List.range 0x20).map (0xEB30 + ·)

/-- R287, R288: the chip tick: written registers are accepted, the counters count, reload and advance their
phases, the shift register and the positions with them (R290 to R292). The output of a wave voice at this tick uses
its RAM as it stood before the acceptance (R292). -/
def Cell.chipTick (c : Cell) : Cell :=
  let accept := c.audio.chipDirty
  let regs := chipRegs.filter (fun x => x < 0xEB30)
  let ram := chipRegs.filter (fun x => 0xEB30 ≤ x)
  let put (l : List Nat) (e : Bytes) : Bytes := l.foldl (fun e x => e.wr x (c.io.rd x)) e
  let eff := if accept then put regs c.eff else c.eff
  -- a written CLICK is accepted here (R293)
  let eff := if c.audio.clickDirty then eff.wr 0xEB50 (c.io.rd 0xEB50) else eff
  let en (x : Nat) : Bool := eff.bit x 7
  let a := c.audio
  let a := { a with
    chipPhase := 0
    chipTicks := a.chipTicks + 1
    chipDirty := false
    clickDirty := false
    tones := a.tones.zipIdx.map fun p => p.1.tick (en (0xEB13 + 4 * p.2)) (eff.rdN (0xEB10 + 4 * p.2) 2) 16
    noise := a.noise.tick (en 0xEB22) (eff.rdN 0xEB20 2) 1
    shift := if en 0xEB22 ∧ a.noise.count = 0 then noiseNext (eff.bit 0xEB22 6) a.shift else a.shift
    waves := a.waves.zipIdx.map fun p => p.1.tick (en (0xEB26 + 4 * p.2)) (eff.rdN (0xEB24 + 4 * p.2) 2) 32 }
  let c := ({ c with audio := a, eff := eff }).noteSources
  { c with eff := if accept then put ram c.eff else c.eff }

/-- CHIP_DIV in effect (R289). -/
def Cell.chipDiv (c : Cell) : Nat := (c.eff.rd 0xEB01).toNat + 1

/-- A dot tick as the chip domain counts it (R287). -/
def Cell.chipDot (c : Cell) : Cell :=
  if c.chipDiv ≤ c.audio.chipPhase + 1 then c.chipTick
  else { c with audio := { c.audio with chipPhase := c.audio.chipPhase + 1 } }

/-- The trigger that timer n drives through DMA_EV (R357): a DMA request and the WAIT of the engines. -/
def Cell.timerTrigger (c : Cell) (n : Nat) : Cell :=
  let c := c.dmaEvent (n + 1)
  { c with pio := { c.pio with engines := c.pio.engines.map fun e =>
      { e with triggers := e.triggers ||| BitVec.ofNat 4 (2 ^ n) } } }

/-- The I/O address of register offset `o` of timer n (R358). -/
def tAddr (n o : Nat) : Nat := 0xE200 + 0x20 * n + o

/-- The source code in effect (R351). -/
def Timer.src (t : Timer) : Nat := (t.cur.rd 0x0C).toNat % 8

/-- An event that a timer may count, or capture at (R351, R355). -/
inductive TimerSource where
  | line | frame
  | pin (cp : Nat) (rising : Bool)
  | wrap (n : Nat)
  | accept
deriving DecidableEq, Repr

/-- R351: the source in effect of timer n counts the event. A timer that names itself counts nothing. -/
def Timer.selects (t : Timer) (n : Nat) (e : TimerSource) : Bool :=
  let b := (t.cur.rd 0x0D).toNat
  match e with
  | .line => t.src == 3
  | .frame => t.src == 4
  | .pin cp rising =>
    t.src == 5 && b % 16 == cp && (bitsOf (t.cur.rd 0x0C).toNat 4 3).testBit (if rising then 0 else 1)
  | .wrap m => t.src == 6 && bitsOf b 5 4 == m && m != n
  | .accept => false

/-- R355: a capture unit with CSRC `csrc`, CAP_CP `cp` and CAP_TMR `tmr` captures at the event. -/
def TimerSource.captured (csrc cp tmr : Nat) : TimerSource → Bool
  | .line => csrc == 3
  | .frame => csrc == 4
  | .pin p rising => p == cp && (csrc == 2 || csrc == (if rising then 0 else 1))
  | .wrap m => csrc == 5 && tmr == m
  | .accept => csrc == 6

/-- An event reaches the timers: those that count it have it to count, and the units in capture mode that select it
have a capture to make (R351, R355). -/
def Cell.timerSource (c : Cell) (e : TimerSource) : Cell :=
  { c with timers := c.timers.zipIdx.map fun p =>
      let t := p.1
      let cc := (c.io.rd (tAddr p.2 0x18)).toNat
      let cap := (c.io.rd (tAddr p.2 0x19)).toNat
      let hit (csrc : Nat) : Bool := e.captured csrc (cap / 16) (cap % 4)
      { t with
        events := t.events + (t.selects p.2 e).toNat
        capA := t.capA + (cc.testBit 7 && hit (bitsOf cc 6 4)).toNat
        capB := t.capB + (cc.testBit 3 && hit (cc % 8)).toNat } }

/-- What the tick of (y, 0) does: a line tick for the timers (R351, R355), and the request 16h of R278 on an active
line. -/
def Cell.lineTick (c : Cell) (active : Bool) : Cell :=
  let c := c.timerSource .line
  if active then c.dmaEvent 0x16 else c

/-- R344, R345: the filters are loaded with the present levels; pins whose latch caught an edge deliver
a pulse. -/
def Cell.loadFilters (c : Cell) (edges levels : BitVec 16) : Cell :=
  { c with pins := { c.pins with
      pulse := edges, pulsing := 0#16
      samples := (List.range 16).map fun n => if levels.getLsbD n then 0xFFFF#16 else 0#16 } }

/-- R345: the filters take the present levels, and a pin whose level is unchanged but whose latch caught an
edge delivers a pulse. -/
def Cell.afterPause (c : Cell) (caught levels : BitVec 16) : Cell :=
  c.loadFilters (caught &&& c.pins.owned &&& ~~~ (levels ^^^ c.pins.delivered)) levels

/-- Dot ticks of a nap as the chip domain counts them: its voices stand still (R366). -/
def Cell.chipSkip (c : Cell) (dots : Nat) : Cell :=
  let a := c.audio
  { c with audio := { a with chipPhase := (a.chipPhase + dots) % c.chipDiv
                             chipTicks := a.chipTicks + (a.chipPhase + dots) / c.chipDiv } }

end Sys2Proof.Machine
end

