-- ==== Sys2Proof/Machine/Compose.lean ====
section
/-! DEFINITION. The path of a pixel: planes, sprites, overlay, cursor, video layers, blending and
the output stage (R184 to R193, R206 to R225). -/

namespace Sys2Proof.Machine

/-- The byte in effect of a framed or live register, and a 16-bit one. -/
def Cell.ef (c : Cell) (a : Nat) : Nat := (c.eff.rd a).toNat
def Cell.ef16 (c : Cell) (a : Nat) : Nat := c.eff.rdN a 2
def Cell.efBit (c : Cell) (a i : Nat) : Bool := c.eff.bit a i

/-- The geometry in effect (R160). -/
def Cell.hTotal (c : Cell) : Nat := c.ef16 0xE734
def Cell.hActive (c : Cell) : Nat := c.ef16 0xE736
def Cell.vTotal (c : Cell) : Nat := c.ef16 0xE73C
def Cell.vActive (c : Cell) : Nat := c.ef16 0xE73E
def Cell.cutLine (c : Cell) : Nat := c.ef16 0xE744
def Cell.commitLine (c : Cell) : Nat := c.ef16 0xE746

/-- The byte of cell memory at an address modulo 80000h. -/
def Cell.vmem (c : Cell) (a : Nat) : Nat := (c.tickMem.rd (a % 0x80000)).toNat

/-- Pixel `p` of a row of `d`-bit pixels at `addr`, leftmost in the most significant bits (R186). -/
def Cell.pixelAt (c : Cell) (addr d p : Nat) : Nat :=
  c.vmem (addr + p * d / 8) / 2 ^ (8 - d - p * d % 8) % 2 ^ d

/-- A plane pixel: its palette index, and whether it counts for collisions (R201). -/
structure PlaneDot where
  index : Nat
  solid : Bool

/-- A glyph pixel by R187 and R188. -/
def glyphDot (attrMode attr ulLine r : Nat) (patBit bg0t phase : Bool) (palofs : Nat) :
    Option PlaneDot :=
  let b (i : Nat) : Bool := attr.testBit i
  let blink := b 7
  let bg := if attrMode = 3 then bitsOf attr 5 4 else bitsOf attr 6 4
  let fg := if attrMode = 0 then bitsOf attr 3 0 else bitsOf attr 2 0
  let ul := (attrMode = 1 ∨ attrMode = 3) ∧ b 3
  let rv := (attrMode = 2 ∧ b 3) ∨ (attrMode = 3 ∧ b 6)
  let fore := patBit ∨ (ul ∧ r = ulLine)
  let backColour := if rv then fg else bg
  let foreColour := if rv then bg else fg
  let shown := fore ∧ ¬ (blink ∧ ¬ phase)
  let colour := if shown then foreColour else backColour
  if ¬ shown ∧ colour = 0 ∧ bg0t then none
  else some { index := (palofs + colour) % 256, solid := shown }

/-- The pixel that plane A (`b` = 0E780h) or B (0E7A0h) shows at (x, y) (R184 to R188). -/
def Cell.planeDot (c : Cell) (b x y : Nat) : Option PlaneDot :=
  let cfg := c.ef b
  if ¬ (cfg.testBit 7 ∧ (c.ef (b + 3)).testBit 0) then none
  else
    let tsize := bitsOf cfg 5 4
    let tw := if tsize = 2 then 16 else 8
    let th := if tsize = 0 then 8 else 16
    let d := 2 ^ bitsOf cfg 3 2
    let map := c.ef (b + 1)
    let mw := 32 * 2 ^ bitsOf map 5 4
    let mh := if map.testBit 3 then 64 else 32
    let rowh := c.ef (b + 2)
    let rh := rowh % 16 + 1
    let px := (x + c.ef16 (b + 4)) % (mw * tw)
    let py := (y + c.ef16 (b + 6)) % (mh * rh)
    let entry := c.ef16 (b + 8) * 8 + 2 * (py / rh * mw + px / tw)
    let lo := c.vmem entry
    let hi := c.vmem (entry + 1)
    let col := px % tw
    let r := py % rh
    let palofs := c.ef (b + 12)
    let pat := c.ef16 (b + 10) * 8
    let at_ (n r cc : Nat) : Nat := c.pixelAt (pat + n * tw * th * d / 8 + r * tw * d / 8) d cc
    if cfg.testBit 6 then
      glyphDot (cfg % 4) hi (rowh / 16) r (at_ lo r col = 1) (map.testBit 2) (c.io.bit 0xE7C1 0)
        palofs
    else
      let e := hi * 256 + lo
      let r' := if e.testBit 15 then rh - 1 - r else r
      let c' := if e.testBit 14 then tw - 1 - col else col
      let p := at_ (bitsOf e 10 0) r' c'
      if p = 0 then none
      else
        let i := if d = 8 then palofs + p else palofs + bitsOf e 13 11 * 2 ^ d + p
        some { index := i % 256, solid := true }

/-- A sprite's pixel value at dot x; 0 is transparent or outside (R192). -/
def SpriteHit.pixel (s : SpriteHit) (x : Nat) : Nat :=
  let w := 8 * (s.wc + 1)
  let off := (x : Int) - s.x
  if off < 0 ∨ (w : Int) ≤ off then 0
  else
    let k := if s.hf then w - 1 - off.toNat else off.toNat
    if s.d8 then (s.bytes.getD k 0#8).toNat
    else
      let b := (s.bytes.getD (k / 2) 0#8).toNat
      if k % 2 = 0 then b / 16 else b % 16

/-- The sprites shown on line y, in index order. -/
def Cell.spritesOn (c : Cell) (y : Nat) : List SpriteHit :=
  match c.sprites.rows.find? (fun r => r.y = y) with
  | some r => r.hits
  | none => []

/-- The sprite layer at a dot: palette index and PRIO of the lowest-numbered opaque sprite (R193). -/
def Cell.spriteDot (c : Cell) (x y : Nat) : Option (Nat × Nat) :=
  ((c.spritesOn y).find? (fun s => s.pixel x ≠ 0)).map fun s =>
    let base := c.ef 0xE7D6 + (if s.d8 then 0 else s.pal * 16)
    ((base + s.pixel x) % 256, s.prio)

/-- The opaque pixel of the overlay or, in front of it, of the cursor (R210, R211). -/
def Cell.overlayDot (c : Cell) (x y : Nat) : Option Nat :=
  let cx := signedOf 11 (c.ef16 0xE952)
  let cy := signedOf 11 (c.ef16 0xE954)
  let dx := (x : Int) - cx
  let dy := (y : Int) - cy
  let cur :=
    if c.efBit 0xE950 0 ∧ 0 ≤ dx ∧ dx < 32 ∧ 0 ≤ dy ∧ dy < 32 then
      c.pixelAt (c.ef16 0xE956 * 8 + 8 * dy.toNat) 2 dx.toNat
    else 0
  if cur ≠ 0 then some ((c.ef 0xE951 + cur) % 256)
  else
    let cfg := c.ef 0xE940
    let ox := c.ef16 0xE942 % 1024 / 8 * 8
    let oy := c.ef16 0xE944
    if cfg.testBit 7 ∧ ox ≤ x ∧ x < ox + c.ef16 0xE946 ∧ oy ≤ y ∧ y < oy + c.ef16 0xE948 then
      let p := c.pixelAt (c.ef16 0xE94A * 8 + (y - oy) * c.ef16 0xE94C) (2 ^ bitsOf cfg 3 2) (x - ox)
      if p = 0 then none else some ((c.ef 0xE941 + p) % 256)
    else none

/-- Three components. -/
abbrev Rgb := Nat × Nat × Nat

/-- The components of a 30-bit colour, R in [29:20] (R206). -/
def rgbOf (v : Nat) : Rgb := (v / 0x100000 % 1024, v / 1024 % 1024, v % 1024)
def packRgb (c : Rgb) : Word := BitVec.ofNat 32 (c.1 * 0x100000 + c.2.1 * 1024 + c.2.2)

def Rgb.map3 (f g h : Nat → Nat) (c : Rgb) : Rgb := (f c.1, g c.2.1, h c.2.2)

/-- Entry i of table t (R214). -/
def tableEntry (t : Bytes) (sel i : Nat) : Nat := t.rdN (0x1000 * sel + 2 * i) 2

/-- The pre-blend LUT and the glaze (R215). -/
def preBlend (t : Bytes) (c : Rgb) : Rgb :=
  c.map3 (tableEntry t 2 ·) (tableEntry t 3 ·) (tableEntry t 4 ·)
def glaze (t : Bytes) (a : Rgb) : Rgb :=
  a.map3 (fun v => tableEntry t 5 (v / 16)) (fun v => tableEntry t 6 (v / 16))
    (fun v => tableEntry t 7 (v / 16))

/-- A curve (R223). -/
def curve (t : Bytes) (sel x : Nat) : Nat :=
  let k := x / 16
  let j := x % 16
  let b0 : Int := tableEntry t sel k
  let b1 : Int := tableEntry t sel (k + 1)
  (clampInt 0 1023 ((16 * b0 + j * (b1 - b0) + 32) / 64)).toNat

/-- A matrix (R225). -/
def matrix (t : Bytes) (sel : Nat) (c : Rgb) : Rgb :=
  let m (i j : Nat) : Int := signedOf 16 (tableEntry t sel (3 * i + j))
  let row (i : Nat) : Nat :=
    (clampInt 0 16383 ((m i 0 * c.1 + m i 1 * c.2.1 + m i 2 * c.2.2 + 2048) / 4096)).toNat
  (row 0, row 1, row 2)

/-- R220: the first source position and the phase of destination column or line i. -/
def scaleAt (s d i : Nat) : Int × Nat :=
  let step := s * 65536 / d
  let pos : Int := i * step + step / 2 - 32768
  let n := pos / 65536
  (n, ((pos - n * 65536) / 2048).toNat)

/-- R220: the source columns or lines that the four taps read. -/
def tapIndex (s : Nat) (n : Int) (k : Nat) : Nat := (clampInt 0 (s - 1) (n - 1 + k)).toNat

/-- Source line n as it is usable on the output line that began at `start`, or the line used in its
place (R221). -/
def Layer.lineFor (l : Layer) (start : Nat) : Nat → Option (List Rgb)
  | 0 => (l.lines.find? (fun s => s.n = 0 ∧ s.arrived < start)).map (·.codes)
  | n + 1 =>
    match l.lines.find? (fun s => s.n = n + 1 ∧ s.arrived < start) with
    | some s => some s.codes
    | none => l.lineFor start n

/-- The source lines that output line `i` of the rectangle uses (R220). -/
def linesUsed (sh dh i : Nat) : List Nat :=
  let v := scaleAt sh dh i
  ((List.range 4).map (tapIndex sh v.1)).eraseDups

/-- The 10-bit R'G'B' of video layer L at (x, y) after scaling, before its curve (R218 to R221). -/
def Cell.layerDot (c : Cell) (L x y : Nat) : Option Rgb :=
  let b := 0xE9A0 + 0x20 * L
  let dx := c.ef16 (b + 2)
  let dy := c.ef16 (b + 4)
  let dw := c.ef16 (b + 6)
  let dh := c.ef16 (b + 8)
  match c.picture.layers[L]? with
  | none => none
  | some l =>
    match l.effect with
    | none => none
    | some d =>
      if ¬ (c.efBit b 7 ∧ dx ≤ x ∧ x < dx + dw ∧ dy ≤ y ∧ y < dy + dh) then none
      else
        let start := c.beam.ctime - c.beam.dot
        let v := scaleAt d.sh dh (y - dy)
        let h := scaleAt d.sw dw (x - dx)
        let coef (t p k : Nat) : Int := signedOf 12 (tableEntry c.picture.tables t (p * 4 + k))
        let rows := (List.range 4).map fun k => l.lineFor start (tapIndex d.sh v.1 k)
        if rows.any (·.isNone) then none
        else
          let comp (pick : Rgb → Nat) : Nat :=
            let hpass (row : List Rgb) : Int :=
              ((List.range 4).map fun k =>
                coef (0x0E + 2 * L) h.2 k * (pick (row.getD (tapIndex d.sw h.1 k) (0, 0, 0)) : Int)).sum
            let s := ((List.range 4).map fun k =>
              coef (0x0F + 2 * L) v.2 k * hpass ((rows.getD k none).getD [])).sum
            (clampInt 0 1023 ((s + 524288) / 1048576)).toNat
          some (comp (·.1), comp (·.2.1), comp (·.2.2))

/-- A layer's pixel on its way to the blender: its key colour, its colour S and its palette alpha. -/
structure LayerDot where
  key : Rgb
  colour : Rgb
  alpha : Nat

/-- A graphic pixel through a renderer's palette and tables (R206). -/
def graphicDot (pal tbl : Bytes) (index : Nat) : LayerDot :=
  let k := rgbOf (pal.rdN (4 * index) 4)
  { key := k, colour := preBlend tbl k, alpha := tableEntry tbl 1 index }

/-- R209: the colour key of layer code L. -/
def Cell.keyMatches (c : Cell) (L : Nat) (k : Rgb) : Bool :=
  let want := rgbOf (c.eff.rdN (0xE914 + 8 * L) 4)
  let tol := c.ef (0xE912 + 8 * L)
  let near (a b : Nat) : Bool := decide (a ≤ b + tol ∧ b ≤ a + tol)
  near k.1 want.1 && near k.2.1 want.2.1 && near k.2.2 want.2.2

def mixAlpha (a : Nat) (s d : Rgb) : Rgb :=
  let f (x y : Nat) : Nat := (a * x + (255 - a) * y + 127) / 255
  (f s.1 d.1, f s.2.1 d.2.1, f s.2.2 d.2.2)

/-- R208: a pixel of layer code L that is neither transparent nor keyed changes A, to whatever value. -/
def Cell.blends (c : Cell) (L : Nat) (p : Option LayerDot) : Bool :=
  match p with
  | none => false
  | some s => !(c.ef (0xE910 + 8 * L) % 4 == 1 && c.keyMatches L s.key)

/-- R208: accumulator A after a pixel of layer code L; `none` leaves A unchanged. -/
def Cell.blend (c : Cell) (L : Nat) (p : Option LayerDot) (a : Rgb) : Rgb :=
  match p with
  | none => a
  | some s =>
    match c.ef (0xE910 + 8 * L) % 4 with
    | 0 => s.colour
    | 1 => if c.keyMatches L s.key then a else s.colour
    | 2 => mixAlpha (c.ef (0xE911 + 8 * L)) s.colour a
    | _ => mixAlpha (if L < 2 then c.ef (0xE911 + 8 * L) else s.alpha) s.colour a

/-- The output stage (R206). -/
def Cell.outputStage (c : Cell) (tbl : Bytes) (a : Rgb) : Word :=
  let cfg := c.ef 0xE980
  let a := if cfg.testBit 0 then matrix tbl 0x0D a else a
  let g := glaze tbl a
  packRgb (if bitsOf cfg 3 2 ≠ 0 then g.map3 (curve tbl 0x0A) (curve tbl 0x0A) (curve tbl 0x0A) else g)

/-- The layer codes from rear to front, with code 5 for the sprite pixel at its place (R207). -/
def Cell.layerCodes (c : Cell) (prio : Option Nat) : List Nat :=
  let order := c.ef16 0xE900
  let codes := (List.range 5).map fun i => order / 8 ^ i % 8
  match prio with
  | none => codes
  | some p =>
    let backFirst := codes.find? (fun k => k = 2 ∨ k = 3)
    let back := backFirst.getD 2
    let front := 5 - back
    codes.flatMap fun k =>
      (if p = 0 ∧ k = back then [5] else []) ++ [k] ++
      (if (p = 1 ∧ k = back) ∨ (p = 2 ∧ k = front) ∨ (p = 3 ∧ k = 4) then [5] else [])

/-- Both renderers at output dot (x, y) (R206 to R209, R227). -/
def Cell.composeDot (c : Cell) (x y : Nat) : Dot :=
  let p := c.picture
  let gl0 := (c.planeDot 0xE780 x y).map (·.index)
  let gl1 := (c.planeDot 0xE7A0 x y).map (·.index)
  let spr := c.spriteDot x y
  let gl3 := c.overlayDot x y
  let video (L : Nat) : Option LayerDot :=
    (c.layerDot L x y).map fun k =>
      let m := k.map3 (curve p.tables (8 + L)) (curve p.tables (8 + L)) (curve p.tables (8 + L))
      let s := preBlend p.tables m
      { key := k, colour := if c.efBit (0xE9A0 + 0x20 * L) 4 then matrix p.tables (0x0B + L) s else s
        alpha := 0 }
  let bg := rgbOf (c.eff.rdN 0xE904 4)
  let graphic (pal tbl : Bytes) (k : Nat) : Option LayerDot :=
    let index : Option Nat := match k with
      | 2 => gl0
      | 3 => gl1
      | 4 => gl3
      | 5 => spr.map (·.1)
      | _ => none
    index.map (graphicDot pal tbl)
  let layer (k : Nat) : Option LayerDot :=
    if k < 2 then video k else graphic p.palette p.tables k
  let step (acc : Rgb × Bool) (k : Nat) : Rgb × Bool :=
    let p := layer k
    (c.blend k p acc.1, acc.2 || (decide (k < 2) && c.blends k p))
  let main := (c.layerCodes (spr.map (·.2))).foldl step (preBlend p.tables bg, false)
  let guarded := ((c.layerCodes none).filter (fun k => 2 ≤ k)).foldl
    (fun a k => c.blend k (graphic p.guardPalette p.guardTables k) a) (preBlend p.guardTables bg)
  { main := c.outputStage p.tables main.1, guarded := c.outputStage p.guardTables guarded
    video := main.2 }

/-- The opaque colliding sprites of a dot, as index and group, and whether a tested plane shows an
opaque pixel there (R200, R201). -/
def Cell.dotHits (c : Cell) (x y : Nat) : DotHits :=
  let solid (b : Nat) : Bool := match c.planeDot b x y with
    | some d => d.solid
    | none => false
  { sprites := ((c.spritesOn y).filter (fun s => s.coll && s.pixel x != 0)).map fun s => (s.index, s.grp)
    plane := (c.efBit 0xE7D0 0 && solid 0xE780) || (c.efBit 0xE7D0 1 && solid 0xE7A0) }

end Sys2Proof.Machine
end

