-- ==== Sys2Proof/Machine/Beam.lean ====
section
/-! DEFINITION. The beam, its registers' classes, commits, the raster sequencer, the blink generator
and the sprite search: R149, R150, R161 to R180 and R189 to R202. -/

namespace Sys2Proof.Machine

/-- A live write promoted at a fetch boundary (R167). -/
def Cell.applyLive (c : Cell) : LiveOp → Cell
  | .byte a v => { c with eff := c.eff.wr a v }
  | .palette i col =>
    let p := c.picture
    { c with picture := { p with
        palette := p.palette.wrN (4 * i) 4 col.toNat
        guardPalette := p.guardPalette.wrN (4 * i) 4 col.toNat } }
  | .table sel i v =>
    let p := c.picture
    let a := 0x1000 * sel + 2 * i
    { c with picture := { p with
        tables := p.tables.wrN a 2 v.toNat, guardTables := p.guardTables.wrN a 2 v.toNat } }

/-- R167: at a fetch boundary, every live write accepted strictly before it takes effect. -/
def Cell.promote (c : Cell) : Cell :=
  if c.beam.dot % 8 ≠ 0 then c
  else
    let due := c.beam.pendLive.filter (fun w => w.accepted < c.beam.ctime)
    let c' := { c with beam := { c.beam with
      pendLive := c.beam.pendLive.filter (fun w => ¬ w.accepted < c.beam.ctime) } }
    due.foldl (fun c w => c.applyLive w.op) c'

/-- R177: the position of a WAIT exists under the geometry in effect. -/
def Cell.waitExists (c : Cell) (w : Word) : Bool :=
  decide (bitsOf w.toNat 25 16 < c.vTotal ∧ bitsOf w.toNat 10 0 < c.hTotal)

/-- R179: the sequencer reads the entry that executes at this tick. -/
def Cell.latchEntry (c : Cell) : Cell :=
  let s := c.seq
  if s.run ∧ s.word.isNone ∧ s.ready ≤ c.beam.ctime then
    let a := c.eff.rdN 0xE760 3 + 4 * s.pc
    let w := leNat ((List.range 4).map fun i => BitVec.ofNat 8 (c.vmem (a + i)))
    { c with seq := { s with word := some (BitVec.ofNat 32 w), posLine := c.beam.line
                             posDot := c.beam.dot, reachable := c.waitExists (BitVec.ofNat 32 w)
                             count := s.count + 1 } }
  else c

/-- The bytes of pattern line of a sprite (R192). -/
def Cell.spriteBytes (c : Cell) (h : SpriteHit) : List Byte :=
  let base := c.ef16 0xE7D4 * 8 + h.patOffset
  (List.range (8 * (h.wc + 1) * (if h.d8 then 8 else 4) / 8)).map fun i =>
    BitVec.ofNat 8 (c.vmem (base + i))

/-- R194: at dot 0, the pattern bytes of the next line; at dots 0 to 63, two attribute entries. -/
def Cell.spriteTick (c : Cell) : Cell :=
  let b := c.beam
  let c :=
    if b.dot ≠ 0 then c
    else
      let nextY := (b.line + 1) % c.vTotal
      let target := (b.line + 2) % c.vTotal
      let fill (r : SpriteRow) : SpriteRow :=
        if r.y = nextY then { r with hits := r.hits.map fun h => { h with bytes := c.spriteBytes h } }
        else r
      { c with sprites := { c.sprites with
          latch := []
          due := if c.hTotal ≤ 64 then c.sprites.target.map (·, c.sprites.latch) else none
          target := if target < c.vActive then some target else none
          rows := (c.sprites.rows.filter (fun r => r.y = b.line ∨ r.y = nextY)).map fill } }
  if b.dot < 64 ∧ c.sprites.target.isSome ∧ c.efBit 0xE7D0 7 then
    let base := c.ef16 0xE7D2 * 8 + 16 * b.dot
    let bytes := (List.range 16).map fun i => BitVec.ofNat 8 (c.vmem (base + i))
    { c with sprites := { c.sprites with latch := c.sprites.latch.put (16 * b.dot) bytes } }
  else c

/-- R190: the 8 dots that begin at this fetch boundary, composed from memory as it stands. -/
def Cell.composeGroup (c : Cell) : Cell :=
  let b := c.beam
  if b.dot % 8 ≠ 0 ∨ c.vActive ≤ b.line ∨ c.hActive ≤ b.dot then c
  else
    let xs := (List.range 8).map (b.dot + ·)
    let dots := xs.map fun x => c.composeDot x b.line
    let hits := xs.map fun x => c.dotHits x b.line
    let p := c.picture
    let lines :=
      if b.dot = 0 then
        { y := b.line, dots := dots.reverse } ::
          p.lines.filter (fun l => l.y < b.line ∧ b.line < l.y + 16)
      else
        match p.lines with
        | l :: t => { l with dots := dots.reverse ++ l.dots } :: t
        | [] => [{ y := b.line, dots := dots.reverse }]
    { c with picture := { p with lines := lines }, sprites := { c.sprites with group := hits } }

/-- What the beam's blocks do at the start of a tick. -/
def Cell.enterTick (c : Cell) : Cell :=
  if c.beam.entered then c
  else
    let c := (c.promote.latchEntry.spriteTick).composeGroup
    { c with beam := { c.beam with entered := true } }

/-- The pace accumulator after `n` additions of PACE_NUM (R149). -/
def Cell.paceAdd (c : Cell) (n : Nat) : Cell :=
  let k := c.core
  let s := k.paceAcc + n * (c.io.rd 0xE082).toNat
  let d := (c.io.rd 0xE083).toNat
  if d = 0 then { c with core := { k with paceAcc := s } }
  else { c with core := { k with paceAcc := s % d, paceCount := k.paceCount + BitVec.ofNat 32 (s / d) } }

/-- R152: the schedule restarts. In unpaced mode SCHED keeps its value (R153). -/
def Cell.restartPace (c : Cell) : Cell :=
  if c.io.bit 0xE080 0 then
    { c with core := { c.core with sched := c.core.paceCount, slipOver := false }, io := c.io.wrN 0xE088 2 0 }
  else c

/-- R150: the tick at which a written rate takes effect; the schedule restarts. -/
def Cell.paceAnew (c : Cell) : Cell :=
  ({ c with core := { c.core with paceAcc := 0, paceRestart := false } } : Cell).restartPace

/-- R149, R150: the pace accumulator at `n` dot ticks, at least one. -/
def Cell.paceTicks (c : Cell) (n : Nat) : Cell :=
  if c.core.paceRestart then c.paceAnew.paceAdd (n - 1) else c.paceAdd n

def Cell.paceTick (c : Cell) : Cell := c.paceTicks 1

/-- The beam stands at the last dot of the frame (R161, R174). -/
def Cell.atFrameEnd (c : Cell) : Bool :=
  decide (c.hTotal ≤ c.beam.dot + 1) && (c.beam.endFrame || decide (c.vTotal ≤ c.beam.line + 1))

/-- The counters at the next tick of the same frame. -/
def Beam.advance (b : Beam) (hTotal : Nat) : Beam :=
  let wrap := hTotal ≤ b.dot + 1
  { b with
    dot := if wrap then 0 else b.dot + 1
    line := if wrap then b.line + 1 else b.line
    ctime := b.ctime + 1
    boundary := false
    entered := false
    done := []
    shadowLog := b.shadowLog.filter (fun w => b.ctime + 1 ≤ w.accepted) }

/-- One dot tick within the frame (R161). Nothing passes the frame boundary but FRAME_BOUNDARY. -/
def Cell.passDot (c : Cell) : Option Cell :=
  if c.atFrameEnd ∨ ¬ c.beamRuns then none
  else
    let c := c.enterTick
    let c := { c with beam := c.beam.advance c.hTotal, tickMem := c.mem }.paceTick.chipDot
    let c := if c.beam.dot = 0 then c.lineTick (decide (c.beam.line < c.vActive)) else c
    some c.enterTick

/-- The dots left in the present frame. -/
def Cell.dotsLeft (c : Cell) : Nat := c.hTotal * c.vTotal - (c.beam.line * c.hTotal + c.beam.dot) + c.hTotal

/-- Dot ticks until a condition holds. -/
def Cell.passUntil (p : Cell → Bool) : Nat → Cell → Option Cell
  | 0, c => if p c then some c else none
  | n + 1, c => if p c then some c else (c.passDot).bind (Cell.passUntil p n)

/-- The beam stands at (line, dot) (R161). -/
def Cell.isAt (line dot : Nat) (c : Cell) : Bool := c.beam.line == line && c.beam.dot == dot

/-- The cell with its beam at (line, dot) of this frame, or `none` when the beam cannot come there. -/
def Cell.runTo (c : Cell) (line dot : Nat) : Option Cell :=
  if c.beam.line < line ∨ (c.beam.line = line ∧ c.beam.dot ≤ dot) then
    Cell.passUntil (Cell.isAt line dot) c.dotsLeft c
  else none

/-- The cell with channel time at `t`, within this frame. -/
def Cell.runToTime (c : Cell) (t : Nat) : Option Cell :=
  if c.beam.ctime ≤ t then Cell.passUntil (fun c => c.beam.ctime == t) (t - c.beam.ctime) c else none

/-- The events of one tick that the beam makes at most once there. -/
abbrev evBc0 : Nat := 0
abbrev evBc1 : Nat := 1
abbrev evVbl : Nat := 2
abbrev evCut : Nat := 3
abbrev evTransfer : Nat := 4
abbrev evInstall : Nat := 5
abbrev evBlink : Nat := 6
abbrev evSearch : Nat := 7
abbrev evGuard : Nat := 8
abbrev evBand : Nat := 9
abbrev evSprite : Nat := 10
abbrev evPlane : Nat := 11
abbrev evUnder0 : Nat := 12
abbrev evUnder1 : Nat := 13

/-- An event of the present tick, made at most once; `none` when it has been made. -/
def Cell.once (c : Cell) (ev : Nat) : Option Cell :=
  if c.beam.done.contains ev then none
  else some { c with beam := { c.beam with done := ev :: c.beam.done } }

/-- An event at a beam position: the beam runs there, and the event is made once. -/
def Cell.eventAt (c : Cell) (line dot ev : Nat) (f : Cell → Cell) : Cell :=
  match (c.runTo line dot).bind (·.once ev) with
  | some c => f c
  | none => c

/-- The position of the next tick, at which a core write is accepted (R162). -/
def Cell.nextPos (c : Cell) : Nat × Nat :=
  if c.atFrameEnd then (0, 0)
  else if c.hTotal ≤ c.beam.dot + 1 then (c.beam.line + 1, 0)
  else (c.beam.line, c.beam.dot + 1)

/-- BEAM_STAT bits (R165, R180). -/
def Cell.setStat (c : Cell) (bit : Nat) : Cell := { c with io := c.io.setBit 0xE701 bit true }

/-- VBL at (V_ACTIVE, 0) (R165). -/
def Cell.vbl (c : Cell) : Cell :=
  c.eventAt c.vActive 0 evVbl fun c => (c.setStat 4).raise srcVbl

/-- The beam stands at the position of a compare register's value, with EN = 1 (R164). -/
def Cell.compareHere (c : Cell) (r : Nat) : Bool :=
  r.testBit 31 && bitsOf r 10 0 == c.beam.dot && (r.testBit 26 || bitsOf r 25 16 == c.beam.line)

/-- R164: the ticks up to the acceptance of the latest write of BCn, at most the present one and the next, are
compared with the value before it. -/
def Cell.compareOld (c : Cell) (n : Nat) : Option Cell :=
  let old := c.beam.bcOld.getD n 0
  let acc := c.beam.bcAccepted.getD n 0
  if acc < c.beam.ctime then none
  else if c.compareHere old ∧ ¬ c.beam.done.contains n then some c
  else if acc = c.beam.ctime then none
  else c.passDot.bind fun c => if c.compareHere old then some c else none

/-- R164: the position at which the value written is next compared: with EL = 1, DOT on the first line at which
the beam passes it after the acceptance. -/
def Cell.compareNext (c : Cell) (n r : Nat) : Option Cell :=
  let dot := bitsOf r 10 0
  let acc := c.beam.bcAccepted.getD n 0
  let here := c.beam.dot < dot ∨ (c.beam.dot = dot ∧ ¬ c.beam.done.contains n)
  let line :=
    if ¬ r.testBit 26 then bitsOf r 25 16
    else if here ∧ acc < c.beam.ctime + (dot - c.beam.dot) then c.beam.line
    else if acc < c.beam.ctime + (c.hTotal - c.beam.dot) + dot then c.beam.line + 1
    else c.beam.line + 2
  if r.testBit 31 ∧ dot < c.hTotal ∧ line < c.vTotal then
    (c.runTo line dot).bind fun c => if acc < c.beam.ctime then some c else none
  else none

/-- R164: a match of beam compare n. -/
def Cell.compareMatch (c : Cell) (n : Nat) : Cell :=
  match ((c.compareOld n).orElse fun _ => c.compareNext n (c.io.rdN (0xE708 + 4 * n) 4)).bind (·.once n) with
  | some c => (c.setStat n).raise (srcBc0 + n)
  | none => c

/-- R171, R172: a commit accepted at the next dot tick. -/
def Cell.commit (c : Cell) : Cell :=
  let pos := c.nextPos
  let f := if c.atFrameEnd then (c.beam.frame + 1) % 0x100000000 else c.beam.frame
  -- a transfer that ends the frame has installed its lines: T(f) is ended, wherever the new lines lie
  let ended := c.beam.endFrame && c.beam.installAt.isNone && !c.atFrameEnd
  let before : Bool := !ended && decide (pos.1 < c.cutLine)
  let late : Bool := !ended && !before && (decide (pos.1 < c.commitLine) || (pos.1 == c.commitLine && decide (pos.2 ≤ 63)))
  let target := if before then f else (f + 1) % 0x100000000
  let merged := c.beam.commits.contains target
  let io := if merged then c.io.count16 0xE702 1 else c.io
  let c' := { c with io := io, beam := { c.beam with
    commits := if merged then c.beam.commits else c.beam.commits ++ [target] } }
  if late then
    let c'' := (c'.setStat 2).raise srcCommitLate
    if c.io.bit 0xE701 2 then c'' else c''.emit (.notify 0x04 0 (c.beam.ctime + 1))
  else c'

/-- The shadows as they stood before the present tick (R173). -/
def Cell.shadowsNow (c : Cell) : Bytes :=
  (c.beam.shadowLog.filter (fun w => c.beam.ctime ≤ w.accepted)).foldr
    (fun w io => io.wr w.addr w.old) c.io

/-- R160: the geometry limits of a snapshot. -/
def geometryOk (s : Bytes) : Bool :=
  let h (a : Nat) : Nat := s.rdN a 2
  let freq := s.rdN 0xE730 4 * 100000000
  let ht := h 0xE734
  let ha := h 0xE736
  let hs := h 0xE738
  let he := h 0xE73A
  let vt := h 0xE73C
  let va := h 0xE73E
  let vs := h 0xE740
  let ve := h 0xE742
  let cut := h 0xE744
  let com := h 0xE746
  let two32 := 0x100000000
  decide (4000000 * two32 ≤ freq ∧ freq ≤ 80000000 * two32) &&
  decide (64 ≤ ht ∧ ht ≤ 2048 ∧ ht % 8 = 0) &&
  decide (8 ≤ ha ∧ ha ≤ 1024 ∧ ha % 8 = 0 ∧ ha + 16 ≤ ht) &&
  decide (ha ≤ hs ∧ hs < he ∧ he ≤ ht) &&
  decide (16 ≤ vt ∧ vt ≤ 1024 ∧ 8 ≤ va ∧ va ≤ 768) &&
  decide (va ≤ vs ∧ vs < ve ∧ ve ≤ vt) &&
  decide (va ≤ cut ∧ cut ≤ com ∧ com + 1 ≤ vt) &&
  decide (24 * (ht * vt) * two32 ≤ freq ∧ freq ≤ 120 * (ht * vt) * two32)

/-- R183: the limits of a plane's framed fields. -/
def planeOk (s : Bytes) (b : Nat) : Bool :=
  let cfg := (s.rd b).toNat
  let tsize := bitsOf cfg 5 4
  let th := if tsize = 0 then 8 else 16
  decide (tsize ≠ 3 ∧ bitsOf (s.rd (b + 1)).toNat 5 4 ≠ 3 ∧ ¬ (cfg.testBit 6 ∧ bitsOf cfg 3 2 ≠ 0) ∧
    (s.rd (b + 2)).toNat % 16 + 1 ≤ th)

/-- R207: LAYER_ORDER holds each code once, GL3 in front of both planes. -/
def layerOrderOk (s : Bytes) : Bool :=
  let order := s.rdN 0xE900 2
  let codes := (List.range 5).map fun i => order / 8 ^ i % 8
  let slot (k : Nat) : Nat := codes.findIdx (· == k)
  (List.range 5).all (fun k => codes.contains k) && decide (slot 2 < slot 4 ∧ slot 3 < slot 4)

/-- R210, R218, R226, R232, R234, R259: the limits of the composition and output registers. -/
def pictureOk (s : Bytes) : Bool :=
  let h (a : Nat) : Nat := s.rdN a 2
  let ovw := h 0xE946
  let ovh := h 0xE948
  let pitch := h 0xE94C
  let depth := 2 ^ bitsOf (s.rd 0xE940).toNat 3 2
  let overlay := decide (8 ≤ ovw ∧ ovw ≤ 1024 ∧ ovw % 8 = 0 ∧ 1 ≤ ovh ∧ ovh ≤ 768 ∧ pitch % 4 = 0 ∧
    ovw * depth / 8 ≤ pitch)
  let layer (b : Nat) : Bool :=
    decide (1 ≤ h (b + 6) ∧ 1 ≤ h (b + 8) ∧ h (b + 2) + h (b + 6) ≤ h 0xE736 ∧ h (b + 4) + h (b + 8) ≤ h 0xE73E ∧
      ¬ (s.bit b 7 ∧ bitsOf (s.rd b).toNat 6 5 = 3))
  let guard (r : Nat) : Bool :=
    !(s.bit 0xEA80 r) || decide ((s.rd (0xEA88 + 4 * r)).toNat ≤ (s.rd (0xEA8A + 4 * r)).toNat ∧
      (s.rd (0xEA89 + 4 * r)).toNat ≤ (s.rd (0xEA8B + 4 * r)).toNat)
  let k := h 0xEA02
  overlay && layer 0xE9A0 && layer 0xE9C0 && (List.range 8).all guard &&
  !(s.bit 0xEAB0 7 && h 0xEAB2 == 0) && decide (bitsOf (s.rd 0xE980).toNat 3 2 ≠ 3) &&
  decide (1 ≤ k ∧ k ≤ 4096)

/-- R289: the audio chip rate of a snapshot lies from 192 kHz to 4 MHz. -/
def chipRateOk (s : Bytes) : Bool :=
  let freq := s.rdN 0xE730 4 * 100000000
  let div := ((s.rd 0xEB01).toNat + 1) * 0x100000000
  decide (192000 * div ≤ freq ∧ freq ≤ 4000000 * div)

/-- R173: every limit on framed registers. -/
def snapshotOk (s : Bytes) : Bool :=
  geometryOk s && planeOk s 0xE780 && planeOk s 0xE7A0 && layerOrderOk s && pictureOk s && chipRateOk s

/-- R217: the bytes a pixel of a format occupies in the line buffer, doubled. -/
def formatBytes2 (format : Nat) : Nat :=
  match format with
  | 0 => 6
  | 1 => 8
  | 2 => 3
  | 3 => 6
  | _ => 8

/-- R219: the buffer need of a descriptor. -/
def bufferNeed (d : LayerDesc) (dstH : Nat) : Nat :=
  2 * (ceilDiv (8 * d.sh) dstH + 3) * ceilDiv (d.sw * formatBytes2 d.format) 2

/-- R216: the checks of a descriptor against a snapshot; `other` is the need of the other layer. -/
def descOk (s : Bytes) (b : Nat) (d : LayerDesc) (other : Nat) : Bool :=
  let dw := s.rdN (b + 6) 2
  let dh := s.rdN (b + 8) 2
  decide (1 ≤ d.sw ∧ d.sw ≤ 1024 ∧ 1 ≤ d.sh ∧ d.sh ≤ 768 ∧ d.format ≤ 4 ∧ d.xfer ≤ 2 ∧ d.prim ≤ 1 ∧
    d.range ≤ 1) &&
  decide (d.xfer = bitsOf (s.rd b).toNat 6 5) &&
  decide (d.sw ≤ 4 * dw ∧ dw ≤ 4 * d.sw ∧ d.sh ≤ 4 * dh ∧ dh ≤ 4 * d.sh) &&
  decide (bufferNeed d dh + other ≤ 65536)

/-- The need of a layer's descriptor in effect, 0 where the layer is not enabled (R219). -/
def Cell.otherNeed (c : Cell) (s : Bytes) (L : Nat) : Nat :=
  let b := 0xE9A0 + 0x20 * L
  match (c.picture.layers[L]?).bind (·.effect) with
  | some d => if s.bit b 7 then bufferNeed d (s.rdN (b + 8) 2) else 0
  | none => 0

/-- A descriptor in the form of its LYQ entry (R386), as the input log records it (R415). -/
def LayerDesc.bytes (d : LayerDesc) : List Byte :=
  leBytes 8 d.base0 ++ leBytes 8 d.base1 ++ leBytes 4 d.pitch ++ leBytes 2 d.sw ++ leBytes 2 d.sh ++
    leBytes 2 (d.range * 128 + d.prim * 64 + d.xfer * 16 + d.format) ++ leBytes 2 d.tag ++ leBytes 4 0

/-- The log record of a descriptor at a cut (R415). -/
def layerLog (L : Nat) (refused : Bool) (d : LayerDesc) : Emit :=
  .logRecord 0x09 (leBytes 1 L ++ leBytes 7 refused.toNat ++ d.bytes)

/-- R216: the last descriptor accepted by layer L, checked at the cut against `s`. -/
def Cell.cutLayer (c : Cell) (s : Bytes) (L : Nat) : Cell :=
  let b := 0xE9A0 + 0x20 * L
  match c.picture.layers[L]? with
  | none => c
  | some l =>
    let put (l' : Layer) (c : Cell) : Cell :=
      { c with picture := { c.picture with layers := updateAt c.picture.layers L fun _ => l' } }
    let fresh := { l with accepted := none, lines := [], missing := [] }
    match l.accepted with
    | none => put fresh c
    | some d =>
      if descOk s b d (c.otherNeed s (1 - L)) then
        let c := put { fresh with next := some d } c
        (c.emit (layerLog L false d)).emit (.layerTaken L d.tag false)
      else
        let c := put fresh c
        ({ c with io := c.io.setBit (b + 10) 1 true }.emit (layerLog L true d)).emit (.layerTaken L d.tag true)

/-- The cut (R173): a pending commit's snapshot is taken and checked. -/
def Cell.cut (c : Cell) : Cell :=
  c.eventAt c.cutLine 0 evCut fun c =>
    let f := c.beam.frame
    let pending := c.beam.commits.contains f
    let s := c.shadowsNow
    let c :=
      if pending then
        let c := { c with beam := { c.beam with commits := c.beam.commits.filter (· ≠ f) } }
        if snapshotOk s ∧ s.rdN 0xE730 4 ≤ 4 * c.ioFreq then
          { c with beam := { c.beam with snap := some s, commits := c.beam.commits ++ [f] } }
        else (c.setStat 3).raise srcCommitBad
      else c
    let view := (c.beam.snap).getD c.eff
    let c := if c.dry then c else (c.cutLayer view 0).cutLayer view 1
    if c.beam.snap.isSome then c
    else
      -- without a transfer, a descriptor that passed takes effect for the next frame
      { c with picture := { c.picture with layers := c.picture.layers.map fun l =>
          { l with effect := l.next.or l.effect, next := none } } }

/-- The I/O addresses of the horizontal timing and the dot clock (R174). -/
def transferEarly : List Nat := (List.range 12).map (0xE730 + ·)

/-- Bytes copied from one sparse memory to another. -/
def copyBytes (src : Bytes) (addrs : List Nat) (dst : Bytes) : Bytes :=
  addrs.foldl (fun d a => d.wr a (src.rd a)) dst

/-- Which of a set of registers a transfer changes. -/
def changes (old new : Bytes) (addrs : List Nat) : Bool := addrs.any fun a => old.rd a != new.rd a

/-- Core cycles of the frame in progress up to its tick `t` (R155), the dot clock's change at a transfer counted. -/
def Cell.coreCycles (c : Cell) (t : Nat) : Nat :=
  c.core.spent + (t - c.core.spentFrom) * (4 * c.coreFreq) / max 1 (c.eff.rdN 0xE730 4)

/-- The transfer's tick (R174): horizontal timing and the dot clock at (COMMIT_LINE, 0). -/
def Cell.transfer (c : Cell) : Cell :=
  match c.beam.snap with
  | none => c
  | some s =>
    c.eventAt c.commitLine 0 evTransfer fun c =>
      let ends := changes c.eff s ((List.range 12).map (0xE73C + ·))
      let resized := changes c.eff s [0xE736, 0xE737, 0xE73E, 0xE73F]
      let geo := changes c.eff s ((List.range 24).map (0xE730 + ·))
      let early := ends && decide (c.beam.line + 1 < c.vTotal)
      let c := { c with
        core := { c.core with spent := c.coreCycles c.beam.ctime, spentFrom := c.beam.ctime }
        picture := { c.picture with
          refreshNext := if resized then [.shq, .clq, .svc] else c.picture.refreshNext }
        eff := copyBytes s transferEarly c.eff
        audio := { c.audio with
          chipPhase := if changes c.eff s ((List.range 4).map (0xE730 + ·)) then 0 else c.audio.chipPhase }
        beam := { c.beam with
          installAt := some (c.beam.ctime + 64)
          resized := resized
          geometry := geo
          endFrame := ends
          earlyEnd := early }
        -- the lines on which line 0 and line 1 were to be searched or fetched do not all take place (R196)
        sprites := if early then { c.sprites with target := none } else c.sprites }
      -- an entry that executes at this tick finds the horizontal timing in effect (R177)
      let now := decide (c.seq.posLine = c.beam.line ∧ c.seq.posDot = c.beam.dot)
      { c with seq := { c.seq with
          reachable := if now then c.seq.word.elim c.seq.reachable c.waitExists else c.seq.reachable } }

/-- The guard values as they stand are logged (R233, R415). -/
def Cell.emitGuard (c : Cell) : Cell :=
  c.emit (.logRecord 0x0C ([c.io.rd 0xEA82, c.io.rd 0xEA83] ++ c.io.block 0xEA84 2 ++ c.io.block 0xEA86 2 ++
    leBytes 2 0))

/-- R229: a transfer that disables, unholds or moves a held region ends its hold. -/
def heldAfter (old new : Bytes) (held : Byte) : Byte :=
  (List.range 8).foldl (fun h r =>
    if held.getLsbD r ∧ (¬ new.bit 0xEA80 r ∨ ¬ new.bit 0xEA81 r ∨
        changes old new ((List.range 4).map (0xEA88 + 4 * r + ·))) then
      h &&& ~~~ BitVec.ofNat 8 (2 ^ r)
    else h) held

/-- The beam stands at a frame boundary, where the install tick of a transfer to H_TOTAL = 64 may fall (R174). -/
def Cell.atFrameStart (c : Cell) : Bool := c.beam.line == 0 && c.beam.dot == 0

/-- R175, R179: the sequencer's start or its read of an entry at this tick, under the RS_CTL and RS_BASE that
an install at the tick puts into effect. -/
def Cell.reread (c : Cell) : Cell :=
  let s := c.seq
  if c.atFrameStart then
    { c with seq := { s with run := c.efBit 0xE763 0, pc := 0, ready := c.beam.ctime, word := none, count := 0 } }
  else if s.word.isSome ∧ s.posLine = c.beam.line ∧ s.posDot = c.beam.dot then
    { c with seq := { s with word := none, count := s.count - 1 } }.latchEntry
  else c

/-- The install tick (R174): every other framed value takes effect, and DONE is set. -/
def Cell.install (c : Cell) : Cell :=
  match c.beam.snap, c.beam.installAt with
  | some s, some t =>
    match (c.runToTime t).bind (·.once evInstall) with
    | none => c
    | some c =>
      let old := c.eff
      let eff := copyBytes s framedAddrs c.eff
      let was := c.io.rd 0xEA83
      let held := if c.dry then was else heldAfter old s was
      let geo := c.beam.geometry
      let blinkOff := s.rd 0xE7C0 = 0#8
      let io := c.io.wr 0xEA83 held
      let io := if blinkOff then io.wr 0xE7C1 1#8 else io
      let io := if geo then io.wrN 0xEAA8 2 0 else io
      let restart := c.beam.resized || changes old s [0xEA02, 0xEA03]
      let p := c.picture
      let p := { p with
        layers := p.layers.map fun l => { l with effect := l.next.or l.effect, next := none }
        -- the boundary of an install tick that falls on it is later than the transfer (R241)
        rc := if ¬ restart then p.rc else if c.atFrameStart then 1 % max 1 (s.rdN 0xEA02 2) else 0
        releasing := p.releasing &&& held
        prevSig := if geo then none else p.prevSig }
      let c := { c with
        eff := eff
        io := io
        picture := p
        audio := { c.audio with
          chipPhase := if changes old s [0xEB01] then 0 else c.audio.chipPhase }
        beam := { c.beam with
          snap := none
          installAt := none
          resized := false
          geometry := false
          commits := c.beam.commits.filter
            (· ≠ if c.atFrameStart then (c.beam.frame + 0xFFFFFFFF) % 0x100000000 else c.beam.frame)
          blinkCount :=
            if blinkOff then 0 else if c.atFrameStart ∧ old.rd 0xE7C0 = 0#8 then 1 else c.beam.blinkCount } }
      let c := (c.reread.setStat 6).raise srcDone
      if held = was then c else c.emitGuard
  | _, _ => c

/-- R189: the blink counter at a frame boundary has reached BLINK_HALF. -/
def Cell.blinkToggle (c : Cell) : Cell :=
  let half := c.ef 0xE7C0
  if c.beam.boundary ∧ ¬ c.beam.entered ∧ half ≠ 0 ∧ half ≤ c.beam.blinkCount then
    { c with
      beam := { c.beam with blinkCount := 0 }
      io := c.io.wr 0xE7C1 (c.io.rd 0xE7C1 ^^^ 1#8) }
  else c

/-- One sprite's attribute entry as latched, when it covers line y (R191, R192). -/
def spriteEntry (latch : Bytes) (i y : Nat) : Option SpriteHit :=
  let a := 8 * i
  let w0 := latch.rdN a 2
  let w1 := latch.rdN (a + 2) 2
  let b4 := (latch.rd (a + 4)).toNat
  let b5 := (latch.rd (a + 5)).toNat
  let w3 := latch.rdN (a + 6) 2
  let top := signedOf 11 w0
  let h := 8 * (bitsOf b4 4 2 + 1)
  let wc := bitsOf b4 7 5
  let d8 := b4.testBit 1
  let off := (y : Int) - top
  if w0.testBit 15 ∧ 0 ≤ off ∧ off < h then
    let v := if b5.testBit 7 then h - 1 - off.toNat else off.toNat
    some { index := i, x := signedOf 11 w1, wc := wc, d8 := d8, hf := b5.testBit 6, pal := bitsOf b5 5 2
           prio := bitsOf w1 15 14, coll := w1.testBit 13, grp := bitsOf w3 15 12
           patOffset := bitsOf w3 11 0 * 32 + v * (8 * (wc + 1)) * (if d8 then 8 else 4) / 8, bytes := [] }
  else none

/-- R198: the words a sprite costs on each line it covers. -/
def SpriteHit.cost (s : SpriteHit) : Nat := (s.wc + 1) * (if s.d8 then 2 else 1)

/-- R198: the sprites within the allowance; everything after the first that does not fit is dropped. -/
def withinAllowance (b : Nat) : List SpriteHit → List SpriteHit
  | [] => []
  | s :: t => if s.cost ≤ b then s :: withinAllowance (b - s.cost) t else []

/-- R197: the words a plane costs on every active line. -/
def Cell.planeCost (c : Cell) (b : Nat) : Nat :=
  let cfg := c.ef b
  if cfg.testBit 7 then
    let wide := bitsOf cfg 5 4 = 2
    let d := bitsOf cfg 3 2
    let k := if wide then (if d = 3 then 5 else if d = 2 then 3 else 2) else (if d = 3 then 3 else 2)
    (ceilDiv c.hActive (if wide then 16 else 8) + 1) * k
  else 0

/-- The tick at which a search is resolved: dot 64 of its line, which is dot 0 of the next line or frame with
H_TOTAL = 64 (R199). -/
def Cell.searchTick (c : Cell) : Option Cell :=
  if c.beam.dot = 0 ∧ (c.sprites.due.isSome ∨ (c.hTotal ≤ 64 ∧ ¬ c.beam.entered ∧ c.sprites.target.isSome)) then some c
  else if c.hTotal ≤ 64 then c.runTo (c.beam.line + 1) 0
  else
    c.runTo (if c.beam.dot < 64 ∨ (c.beam.dot = 64 ∧ ¬ c.beam.done.contains evSearch) then c.beam.line
      else c.beam.line + 1) 64

/-- R194 to R199: the search of the line after next, resolved at dot 64. -/
def Cell.spriteSearch (c : Cell) : Cell :=
  match c.searchTick.bind (·.once evSearch) with
  | none => c
  | some c =>
    match (c.sprites.due.filter fun _ => c.beam.dot = 0).orElse
        fun _ => c.sprites.target.map (·, c.sprites.latch) with
    | none => c
    | some (y, latch) =>
      let hits := (List.range 128).filterMap fun i => spriteEntry latch i y
      let kept := hits.take 32
      let b := c.hTotal - c.planeCost 0xE780 - c.planeCost 0xE7A0
      let shown := withinAllowance b kept
      let many := decide (32 < hits.length)
      let budget := decide (shown.length < kept.length)
      let dropped := hits.length - shown.length
      -- the pattern bytes of the line are read at dot 0 of the line before it (R194)
      let fetched := decide (c.beam.dot = 0) && c.beam.entered
      let row : SpriteRow :=
        { y := y, hits := if fetched then shown.map fun h => { h with bytes := c.spriteBytes h } else shown }
      let c := { c with sprites :=
        if fetched then { c.sprites with rows := c.sprites.rows ++ [row], due := none }
        else { c.sprites with rows := c.sprites.rows ++ [row], target := none } }
      if dropped = 0 then c
      else
        let io := c.io.orb 0xE7D8 (BitVec.ofNat 8 (budget.toNat * 2 + many.toNat))
        let io := (io.count16 0xE7DA dropped).wrN 0xE7DC 2 y
        { c with io := io }.raise srcSprDrop

/-- A collision flag that goes from 0 to 1 raises SPR_COLL (R202). -/
def Cell.setCollision (c : Cell) (bit : Nat) : Cell :=
  let c' := { c with io := c.io.setBit 0xE7D8 bit true }
  if c.io.bit 0xE7D8 bit then c' else c'.raise srcSprColl

/-- R200: the sprite–sprite collisions of the dot at which the beam stands. -/
def Cell.spriteCollision (c : Cell) (line dot : Nat) : Cell :=
  match c.runTo line dot with
  | none => c
  | some c =>
    if c.vActive ≤ line ∨ c.hActive ≤ dot then c
    else
      let c := c.enterTick
      let hs := (c.sprites.group.getD (dot % 8) { sprites := [], plane := false }).sprites
      if hs.length < 2 then c
      else
        let io := hs.foldl (fun io s => io.orb (0xE800 + s.1 / 8) (BitVec.ofNat 8 (2 ^ (s.1 % 8)))) c.io
        let mark (io : Bytes) (g h : Nat) : Bytes :=
          io.orb (0xE820 + 2 * g + h / 8) (BitVec.ofNat 8 (2 ^ (h % 8)))
        let io := hs.foldl (fun io s => hs.foldl (fun io t =>
          if s.1 = t.1 then io else mark io s.2 t.2) io) io
        { c with io := io }.setCollision 2

/-- R201: the sprite–plane collisions of the dot at which the beam stands. -/
def Cell.planeCollision (c : Cell) (line dot : Nat) : Cell :=
  match c.runTo line dot with
  | none => c
  | some c =>
    if c.vActive ≤ line ∨ c.hActive ≤ dot then c
    else
      let c := c.enterTick
      let h := c.sprites.group.getD (dot % 8) { sprites := [], plane := false }
      if ¬ h.plane ∨ h.sprites = [] then c
      else
        let io := h.sprites.foldl
          (fun io s => io.orb (0xE810 + s.1 / 8) (BitVec.ofNat 8 (2 ^ (s.1 % 8)))) c.io
        { c with io := io }.setCollision 3

/-- A live write of one or two bytes accepted at `acc` (R167 to R169). -/
def Cell.liveBytes (c : Cell) (acc : Nat) (bySeq : Bool) (bytes : List (Nat × Byte)) : Cell :=
  bytes.foldl (fun c w =>
    { c with
      io := c.io.wr w.1 w.2
      beam := { c.beam with pendLive := c.beam.pendLive ++
        [{ accepted := acc, bySequencer := bySeq, op := .byte w.1 w.2 }] } }) c

/-- R169: at one tick the sequencer's write of PAL_HI or TBL_DATA stands, and the core's entry write
is undone; the answer is the index to write. -/
def Cell.undoEntry (c : Cell) (acc : Nat) (bySeq : Bool) (isPal : Bool) : Cell :=
  let hit (w : LiveWrite) : Bool :=
    bySeq && w.accepted == acc && !w.bySequencer &&
      (match w.op with
       | .palette _ _ => isPal
       | .table _ _ _ => !isPal
       | .byte _ _ => false)
  match c.beam.pendLive.find? hit with
  | none => c
  | some w =>
    let c := { c with beam := { c.beam with pendLive := c.beam.pendLive.filter (fun x => !hit x) } }
    match w.op with
    | .palette i _ => { c with io := c.io.wr 0xE960 (BitVec.ofNat 8 i) }
    | .table _ i _ => { c with io := c.io.wrN 0xE972 2 i }
    | .byte _ _ => c

/-- R213: a write of PAL_HI writes palette entry PAL_INDEX and increments PAL_INDEX. -/
def Cell.paletteWrite (c : Cell) (acc : Nat) (bySeq : Bool) : Cell :=
  let c := c.undoEntry acc bySeq true
  let i := (c.io.rd 0xE960).toNat
  let col := c.io.rdN 0xE964 2 % 0x4000 * 0x10000 + c.io.rdN 0xE962 2
  { c with
    io := c.io.wr 0xE960 (BitVec.ofNat 8 (i + 1))
    beam := { c.beam with pendLive := c.beam.pendLive ++
      [{ accepted := acc, bySequencer := bySeq, op := .palette i (BitVec.ofNat 32 col) }] } }

/-- R214: the size of a table and the bits of its entries. -/
def tableSize (sel : Nat) : Nat :=
  if sel = 1 then 256 else if 2 ≤ sel ∧ sel ≤ 7 then 1024 else if 8 ≤ sel ∧ sel ≤ 10 then 65
  else if 11 ≤ sel ∧ sel ≤ 13 then 9 else if 14 ≤ sel ∧ sel ≤ 17 then 128 else 0

def tableBits (sel : Nat) : Nat :=
  if sel = 1 then 8 else if 2 ≤ sel ∧ sel ≤ 4 then 14 else if 5 ≤ sel ∧ sel ≤ 7 then 10
  else if 8 ≤ sel ∧ sel ≤ 10 then 12 else if 11 ≤ sel ∧ sel ≤ 13 then 16 else 12

/-- R214: a write of TBL_DATA writes entry TBL_INDEX of table TBL_SEL and increments TBL_INDEX. -/
def Cell.tableWrite (c : Cell) (acc : Nat) (bySeq : Bool) : Cell :=
  let c := c.undoEntry acc bySeq false
  let sel := (c.io.rd 0xE970).toNat
  let size := tableSize sel
  if size = 0 then c
  else
    let i := c.io.rdN 0xE972 2 % size
    let v := c.io.rdN 0xE974 2 % 2 ^ tableBits sel
    { c with
      io := c.io.wrN 0xE972 2 ((i + 1) % size)
      beam := { c.beam with pendLive := c.beam.pendLive ++
        [{ accepted := acc, bySequencer := bySeq, op := .table sel i (BitVec.ofNat 16 v) }] } }

/-- The entry write that follows a live write that ends in a byte of PAL_HI or TBL_DATA. -/
def Cell.afterLive (c : Cell) (acc : Nat) (bySeq : Bool) (top : Nat) : Cell :=
  if top = 0xE965 ∨ top = 0xE964 then c.paletteWrite acc bySeq
  else if top = 0xE975 ∨ top = 0xE974 then c.tableWrite acc bySeq
  else c

/-- R178: the sequencer stops for this frame, with BAD (bit 3) or LIMIT (bit 2). -/
def Cell.seqStop (c : Cell) (bit : Nat) : Cell :=
  { c with
    seq := { c.seq with run := false, word := none, count := c.seq.count - 1 }
    io := c.io.setBit 0xE764 bit true }.raise srcRasterErr

/-- The end of an entry: I = 1 raises RASTER, and the next entry executes at the tick after `t`. -/
def Cell.seqNext (c : Cell) (w : Word) (pc t : Nat) : Cell :=
  let c := { c with seq := { c.seq with pc := pc % 1024, ready := t + 1, word := none } }
  if w.getLsbD 28 then { c with io := c.io.setBit 0xE764 0 true }.raise srcRaster else c

/-- The beam at the tick at which the sequencer's next entry executes, with that entry. -/
def Cell.seqEntry (c : Cell) : Option (Cell × Word) :=
  if ¬ c.seq.run then none
  else
    match (if c.seq.ready ≤ c.beam.ctime then some c else c.runToTime c.seq.ready) with
    | none => none
    | some c =>
      let c := c.enterTick.latchEntry
      c.seq.word.map fun w => (c, w)

/-- R176, R178: the entry's fixed bits and, for WRITE, its destination. -/
def seqEntryOk (w : Word) : Bool :=
  let v := w.toNat
  match v / 2 ^ 29 with
  | 0 => decide (bitsOf v 27 26 = 0 ∧ bitsOf v 15 11 = 0)
  | 1 =>
    let a := 0xE700 + bitsOf v 25 16
    decide (bitsOf v 26 26 = 0) &&
      (if v.testBit 27 then isLiveLow16 a else isLiveByte a && decide (bitsOf v 15 8 = 0))
  | 2 => decide (bitsOf v 27 17 = 0)
  | 3 => decide (bitsOf v 27 10 = 0)
  | 4 => decide (v % 2 ^ 28 = 0)
  | _ => false

/-- One sequencer entry of operation `op` (R177), or the stop of R178. -/
def Cell.seqStep (c : Cell) (op : Nat) (f : Cell → Word → Cell) : Cell :=
  match c.seqEntry with
  | none => c
  | some (c', w) =>
    if w.toNat / 2 ^ 29 ≠ op ∧ w.toNat / 2 ^ 29 ≤ 4 then c
    else if 1024 < c'.seq.count then c'.seqStop 2
    else if ¬ seqEntryOk w then c'.seqStop 3
    else f c' w

/-- WAIT (R177). -/
def Cell.seqWait (c : Cell) : Cell :=
  c.seqStep 0 fun c w =>
    let line := bitsOf w.toNat 25 16
    let dot := bitsOf w.toNat 10 0
    let s := c.seq
    if ¬ s.reachable then c
    else if line = s.posLine ∧ dot = s.posDot then c.seqNext w (s.pc + 1) s.ready
    else if line < s.posLine ∨ (line = s.posLine ∧ dot < s.posDot) then
      { c with io := c.io.setBit 0xE764 1 true }.seqNext w (s.pc + 1) s.ready
    else if c.beam.line < line ∨ (c.beam.line = line ∧ c.beam.dot ≤ dot) then
      match c.runTo line dot with
      | none => c
      | some c => c.seqNext w (s.pc + 1) c.beam.ctime
    else c.seqNext w (s.pc + 1) c.beam.ctime

/-- WRITE (R177). -/
def Cell.seqWrite (c : Cell) : Cell :=
  c.seqStep 1 fun c w =>
    let v := w.toNat
    let a := 0xE700 + bitsOf v 25 16
    let acc := c.beam.ctime
    let lo : Nat × Byte := (a, BitVec.ofNat 8 v &&& liveMask a)
    let c :=
      if v.testBit 27 then
        (c.liveBytes acc true [lo, (a + 1, BitVec.ofNat 8 (v / 256) &&& liveMask (a + 1))]).afterLive acc true (a + 1)
      else (c.liveBytes acc true [lo]).afterLive acc true a
    c.seqNext w (c.seq.pc + 1) acc

/-- SKIP (R177). -/
def Cell.seqSkip (c : Cell) : Cell :=
  c.seqStep 2 fun c w =>
    let v := w.toNat
    let src := if v.testBit 16 then BitVec.ofNat 8 c.beam.frame else c.io.rd 0xE767
    let hit := src &&& BitVec.ofNat 8 (v / 256) = BitVec.ofNat 8 v
    c.seqNext w (c.seq.pc + (if hit then 2 else 1)) c.beam.ctime

/-- BRANCH (R177). -/
def Cell.seqBranch (c : Cell) : Cell :=
  c.seqStep 3 fun c w => c.seqNext w (bitsOf w.toNat 9 0) c.beam.ctime

/-- END (R177). -/
def Cell.seqEnd (c : Cell) : Cell :=
  c.seqStep 4 fun c w =>
    let c := c.seqNext w c.seq.pc c.beam.ctime
    { c with seq := { c.seq with run := false } }

/-- R175: the sequencer's start, at the cast tick and at every frame boundary. -/
def Cell.seqStart (c : Cell) : Cell :=
  { c with seq := { run := c.efBit 0xE763 0, pc := 0, ready := c.beam.ctime, word := none
                    posLine := 0, posDot := 0, reachable := false, count := 0 } }

/-- UTIL of the frame in progress up to its tick `t` (R155, R425). -/
def Cell.utilNow (c : Cell) (t : Nat) : Nat := min 255 (256 * c.core.busy / max 1 (c.coreCycles t))

/-- R155: UTIL and UTIL_PEAK of the frame that ends, from its busy cycles and its core cycles. -/
def Cell.noteUtil (c : Cell) : Cell :=
  let u := c.utilNow (c.beam.ctime + 1)
  { c with
    io := (c.io.wr 0xE094 (BitVec.ofNat 8 u)).wr 0xE095 (BitVec.ofNat 8 (max u (c.io.rd 0xE095).toNat))
    core := { c.core with busy := 0, spent := 0, spentFrom := c.beam.ctime + 1 } }

/-- R229, R241, R242, R245: the encoder at a frame boundary. A frame whose blocks were not all compared ends no
hold (R422). -/
def Cell.encoderFrame (c : Cell) : Cell :=
  let p := c.picture
  let k := c.ef16 0xEA02
  let held := c.io.rd 0xEA83
  let freed := if p.unguarded then 0#8 else held &&& p.releasing &&& ~~~ p.missed
  let clear :=
    if p.unguarded then p.releasing &&& ~~~ p.missed else held &&& ~~~ p.missed &&& ~~~ p.releasing
  let cloneOn := p.cloneNext = some true ∧ ¬ p.clone
  let requested := c.beam.shadowLog.any (fun w => w.addr == 0xEA04)
  let io := c.io.wr 0xEA83 (held &&& ~~~ freed)
  let c := { c with
    io := if requested then io else io.clr 0xEA04 1#8
    picture := { p with
      rc := if k = 0 then 0 else (p.rc + 1) % k
      refreshNow := p.refreshNext ++ (if cloneOn then [.clq] else [])
      refreshNext := if requested then [.shq, .clq, .svc] else []
      clone := p.cloneNext.getD p.clone
      cloneNext := none
      releasing := clear
      missed := 0#8
      unguarded := c.dry
      notified := 0#8
      joined := false
      crcs := []
      counts := []
      firstBand := 0 } }
  if freed = 0#8 then c else c.emitGuard

/-- The frame boundary (R161): the beam runs to the end of the frame and on to (0, 0) of the next. -/
def Cell.frameBoundary (c : Cell) : Cell :=
  match Cell.passUntil Cell.atFrameEnd c.dotsLeft c with
  | none => c
  | some c =>
    if ¬ c.beamRuns then c
    else
      let c := c.enterTick.noteUtil
      let b := c.beam
      let rows := if b.earlyEnd then [] else c.sprites.rows.filter (fun r => r.y ≤ 1)
      let count := min 1024 c.seq.count
      let blink := if c.ef 0xE7C0 = 0 then 0 else b.blinkCount + 1
      let c := { c with
        beam := { (b.advance 0) with
          line := 0, dot := 0, frame := (b.frame + 1) % 0x100000000, boundary := true
          endFrame := false, earlyEnd := false, blinkCount := blink }
        sprites := { c.sprites with rows := rows }
        tickMem := c.mem
        io := c.io.wrN 0xE768 2 count }
      let c := ((c.paceTick.chipDot.lineTick true).timerSource .frame).encoderFrame
      (c.seqStart.setStat 5).raise srcFrame

/-- The beam runs to the next chip tick of this frame at which `due` holds of the cell before it and after it. -/
def Cell.passToChip (due : Cell → Cell → Bool) : Nat → Cell → Option Cell
  | 0, _ => none
  | n + 1, c => c.passDot.bind fun c' =>
      if c'.audio.chipTicks ≠ c.audio.chipTicks ∧ due c c' then some c' else Cell.passToChip due n c'

/-- A voice's counter stands at 0 before a chip tick at which the voice is enabled, by its EN at `en`: it reloads. -/
def Cell.reloads (en : Nat) (v : Audio → Option Voice) (c c' : Cell) : Bool :=
  c'.eff.bit en 7 && (v c.audio).elim false (·.count == 0)

/-- The beam runs to the chip tick at which the voice reloads, when this frame has one. -/
def Cell.runToReload (c : Cell) (en : Nat) (v : Audio → Option Voice) : Cell :=
  (Cell.passToChip (Cell.reloads en v) c.dotsLeft c).getD c

/-- TONE_RELOAD: tone v's counter, at 0, reloads from PER and advances its phase at a chip tick (R290). -/
def Cell.toneReload (c : Cell) (v : Nat) : Cell := c.runToReload (0xEB13 + 4 * v) fun a => a.tones[v]?

/-- NOISE_STEP: the noise counter reloads and the shift register steps (R291). -/
def Cell.noiseStep (c : Cell) : Cell := c.runToReload 0xEB22 fun a => some a.noise

/-- WAVE_ADVANCE: wave w's counter reloads and POS advances (R292). -/
def Cell.waveAdvance (c : Cell) (w : Nat) : Cell := c.runToReload (0xEB26 + 4 * w) fun a => a.waves[w]?

/-- CLICK_ACCEPT (R293): the beam runs to the next chip tick, which accepts the CLICK written. -/
def Cell.clickAccept (c : Cell) : Cell :=
  if ¬ c.audio.clickDirty then c
  else
    let t := c.audio.chipTicks
    (Cell.passUntil (fun x => x.audio.chipTicks != t) 2048 c).getD c

end Sys2Proof.Machine
end

