-- ==== Sys2Proof/Machine/Audio.lean ====
section
/-! DEFINITION. The PCM voice and the mix domain: crosspoint, output stages, host-in, pin-in,
host-out, PWM and loopback (R288, R294 to R308). -/

namespace Sys2Proof.Machine

/-- The next value of a count of 16 bits whose end the manual does not state. -/
def countNext (a v : Nat) : Nat := if v + 1 < 65536 then v + 1 else (Config.countPast a v).toNat

/-- Such a count in register `a`, one higher. -/
def countOpen (m : Bytes) (a : Nat) : Bytes := m.wrN a 2 (countNext a (m.rdN a 2))

/-- The nearest integer to `num / 2 ^ sh`. -/
def roundNearest (num : Int) (sh : Nat) : Int :=
  let d : Int := (2 ^ sh : Nat)
  let q := num / d
  let r := num - q * d
  if d < 2 * r ∨ (2 * r = d ∧ Config.tieUp num) then q + 1 else q

/-- Saturation to Q4.23 at ±8 (R297, R300). -/
def sat8 (v : Int) : Int := clampInt (-0x4000000) 0x3FFFFFF v

/-- An inexact quotient of the limiter, rounded down or up as the free constant says. -/
def limiterDiv (num den : Int) : Int :=
  let q := num / den
  if q * den ≠ num ∧ Config.limiterUp num den then q + 1 else q

/-- The 16-bit value that is delivered for a sample (R302). -/
def sample16 (z : Int) : Int := clampInt (-32768) 32767 ((z + 128) / 256)

/-- A value of `w` bits as a number, two's complement. -/
def wordOf (w : Nat) (v : Int) : Nat := (v % (2 ^ w : Nat)).toNat

/-! ### Nodes -/

def Audio.node (a : Audio) (n : Nat) : Node :=
  (lookupNat a.nodes n).getD
    { gain := 0, mute := false, target := 0, from_ := 0, k := 32, move := none }

/-- The current gain of a node that is in no move (R298). -/
def Node.ramped (n : Node) : Int := n.from_ + (n.target - n.from_) * n.k / 32

/-- The current gain of node `n`; in a move it is G minus the gain of the node it takes from (R299). -/
def Audio.gain (a : Audio) (n : Nat) : Int :=
  match (a.node n).move with
  | some (src, g) => g - (a.node src).ramped
  | none => (a.node n).ramped

def Audio.setNode (a : Audio) (n : Nat) (x : Node) : Audio := { a with nodes := insertNat a.nodes n x }

/-- Each of the nodes whose NODE_GAIN or MUTE was written takes its target (R298): a change starts a ramp from the
current gain. -/
def Audio.retarget (a : Audio) (nodes : List Nat) : Audio :=
  nodes.foldl (fun b n =>
    let x := a.node n
    let t := if x.mute then 0 else x.gain
    if t = x.target then b else b.setNode n { x with target := t, from_ := a.gain n, k := 0, move := none }) a

/-- R299: a move accepted at this tick. -/
def Audio.move (a : Audio) (input src dst : Nat) : Audio :=
  if 11 < input ∨ src = dst then a
  else
    let f := input * 8 + src
    let t := input * 8 + dst
    let g := (a.node f).target
    let plain := decide ((a.node f).k < 32) || decide ((a.node t).k < 32)
    let nf := { a.node f with gain := 0, target := 0, from_ := a.gain f, k := 0, move := none }
    let nt := { a.node t with gain := g, target := g, from_ := a.gain t, k := 0
                              move := if plain then none else some (f, g) }
    (a.setNode f nf).setNode t nt

/-- The ramps at the next mix tick; a move ends after 32 ticks. -/
def Node.tick (n : Node) : Node :=
  if 32 ≤ n.k then n else { n with k := n.k + 1, move := if n.k + 1 = 32 then none else n.move }

def updateOut (a : Audio) (o : Nat) (f : MixOut → MixOut) : Audio :=
  { a with outs := updateAt a.outs o f }

/-- A mix-domain write at its acceptance (R288), but for the ramps that it starts. -/
def Audio.accept (a : Audio) : MixWrite → Audio
  | .gain n v => a.setNode n { a.node n with gain := v }
  | .mute n b => a.setNode n { a.node n with mute := b }
  | .move i f t => a.move i f t
  | .limEn o b => updateOut a o fun x => { x with limEn := b }
  | .limThr o v => updateOut a o fun x => { x with limThr := v }
  | .limRel o v => updateOut a o fun x => { x with limRel := v }
  | .coef o k v => updateOut a o fun x => { x with shadow := updateAt x.shadow k fun _ => v }
  | .apply o => updateOut a o fun x => { x with coef := x.shadow }
  | .byte _ _ => a

/-- The writes accepted at one mix tick, in order. Of two writes to one node the second is left alone, so a ramp
starts only from what stands after them (R298), or before a move that follows them. -/
def Audio.acceptAll (a : Audio) (writes : List MixWrite) : Audio :=
  let r := writes.foldl (fun (p : Audio × List Nat) w =>
    match w with
    | .gain n _ => (p.1.accept w, n :: p.2.filter (· ≠ n))
    | .mute n _ => (p.1.accept w, n :: p.2.filter (· ≠ n))
    | .move _ _ _ => ((p.1.retarget p.2).accept w, [])
    | w => (p.1.accept w, p.2)) (a, [])
  r.1.retarget r.2

/-- The mixer's registers as last written, for reads. -/
def Audio.written (a : Audio) : Audio := a.acceptAll a.mixWrites

def Cell.queueMix (c : Cell) (w : MixWrite) : Cell :=
  { c with audio := { c.audio with mixWrites := c.audio.mixWrites ++ [w] } }

/-- The mix-domain registers that are no part of a node or an output: AUD_CTL, NODE_SEL, IN_BYP, OUT_SEL, COEF_SEL,
AIN_CTL, PIN_IN_CTL, PWM_PER, PWM_A, PWM_B and LB_CTL (R288). -/
def mixRegs : List Nat :=
  [0xEB00, 0xEB60, 0xEB6A, 0xEB6B, 0xEB70, 0xEB76, 0xEB80, 0xEB88, 0xEB90, 0xEB91, 0xEB92, 0xEB93, 0xEB98]

/-! ### The PCM voice -/

/-- The value of a PCM sample from its bytes (R286). -/
def pcmValue (fmt : Nat) (bytes : List Byte) : Int :=
  let b := leNat bytes
  if fmt = 0 then ((b : Int) - 128) * 256
  else if fmt = 1 then signedOf 8 b * 256
  else signedOf 16 b

/-- The bytes of a PCM sample (R294). -/
def Cell.pcmWidth (c : Cell) : Nat := if bitsOf (c.io.rd 0xEB58).toNat 6 5 = 2 then 2 else 1

/-- A write to PCM_DATA (R294). -/
def Cell.pcmPush (c : Cell) (v : Byte) : Cell :=
  let f := c.audio.pcmFifo
  if 32 ≤ f.length then { c with io := c.io.setBit 0xEB5B 3 true }
  else { c with audio := { c.audio with pcmFifo := f ++ [v] } }

/-- A trigger of the PCM voice's timer, `clocks` I/O clocks after the last accepted one (R294). -/
def Cell.pcmTriggered (c : Cell) (clocks : Nat) : Cell :=
  let cfg := (c.io.rd 0xEB58).toNat
  let a := c.audio
  let t := bitsOf cfg 3 2
  if ¬ a.pcmTrigger.testBit t then c
  else
    let a := { a with pcmTrigger := a.pcmTrigger ^^^ (1 <<< t) }
    let c := { c with audio := a }
    if ¬ cfg.testBit 7 ∨ c.nap.napping then c
    else if clocks * 48000 * 0x100000000 < 400000000 * c.ioFreq then
      { c with io := c.io.setBit 0xEB5B 1 true }
    else
      let w := c.pcmWidth
      let a := { a with pcmInterval := clocks, pcmSlow := false, pcmAt := some c.beam.ctime }
      if a.pcmFifo.length < w then
        let last := a.pcmSamples.headD 0
        { c with
          audio := { a with pcmSamples := (last :: a.pcmSamples).take 4 }
          io := countOpen (c.io.setBit 0xEB5B 0 true) 0xEB5C }
      else
        let v := pcmValue (bitsOf cfg 6 5) (a.pcmFifo.take w)
        { c with audio := { a with pcmSamples := (v :: a.pcmSamples).take 4
                                   pcmFifo := a.pcmFifo.drop w } }

/-- The channel time of the dot tick in which 250 µs have passed since the last accepted trigger (R294). -/
def Cell.slowTime (c : Cell) (at_ : Nat) : Nat := at_ + 25000 * c.eff.rdN 0xE730 4 / 0x100000000

/-- PCM_SLOW (R294): the beam runs to the tick at which more than 250 µs have passed without an accepted trigger,
once for each accepted trigger. -/
def Cell.pcmSlows (c : Cell) : Cell :=
  match c.audio.pcmAt with
  | none => c
  | some t =>
    if ¬ c.io.bit 0xEB58 7 ∨ c.nap.napping ∨ c.audio.pcmSlow then c
    else
      match if c.slowTime t ≤ c.beam.ctime then some c else c.runToTime (c.slowTime t) with
      | none => c
      | some c => { c with io := c.io.setBit 0xEB5B 2 true, audio := { c.audio with pcmSlow := true } }

/-- The PCM voice's Q1.23 sample at a mix tick, `since` I/O clocks after the latest trigger (R296). -/
def Cell.pcmSample (c : Cell) (since : Nat) : Int :=
  let a := c.audio
  if ¬ c.io.bit 0xEB58 7 then 0
  else if a.pcmSlow then a.pcmSamples.headD 0 * 256
  else (Config.cubic a.pcmSamples (if a.pcmInterval = 0 then 63 else min 63 (64 * since / a.pcmInterval))).toInt

/-! ### Host-in and pin-in -/

/-- An AIQ packet with its declared rate and its frames (R304). -/
def Cell.ainPacket (c : Cell) (rate : Nat) (frames : List (Int × Int)) : Cell :=
  if rate ≠ 48000 then
    let c' := { c with io := c.io.setBit 0xEB82 2 true }
    if c.io.bit 0xEB82 2 then c' else c'.emit (.notify 0x06 0 c.beam.ctime)
  else if 8 ≤ c.audio.ain.length then
    { c with io := countOpen (c.io.setBit 0xEB82 1 true) 0xEB86 }
  else { c with audio := { c.audio with ain := c.audio.ain ++ [frames] } }

/-- START_FILL (R304). -/
def Cell.startFill (c : Cell) : Nat :=
  let n := (c.eff.rd 0xEB80).toNat % 8
  if n = 0 then 1 else n

/-- Host-in takes one frame at a mix tick (R304). -/
def Cell.hostIn (c : Cell) : (Int × Int) × Cell :=
  let a := c.audio
  if ¬ c.eff.bit 0xEB80 7 then ((0, 0), c)
  else
    let playing := a.playing || decide (c.startFill ≤ a.ain.length)
    let take (a : Audio) : Option ((Int × Int) × Audio) :=
      match a.ain with
      | (f :: fs) :: t => some (f, { a with ain := if fs = [] then t else fs :: t })
      | _ => none
    if ¬ playing then ((0, 0), c)
    else match take { a with playing := true } with
      | some (f, a') => (f, { c with audio := a' })
      | none =>
        ((0, 0), { c with audio := { a with playing := false }
                          io := countOpen (c.io.setBit 0xEB82 0 true) 0xEB84 })

/-- The depth of an engine's receive queue by QJOIN (R323). -/
def Cell.rxDepth (c : Cell) (n : Nat) : Nat :=
  match bitsOf (c.io.rd (0xE415 + 0x18 * n)).toNat 3 2 with
  | 1 => 0
  | 2 => 8
  | _ => 4

/-- Pin-in takes one word at a mix tick (R305). -/
def Cell.pinInTake (c : Cell) : Int × Cell :=
  let cfg := (c.eff.rd 0xEB88).toNat
  let p := c.audio.pinIn
  if ¬ cfg.testBit 7 then (0, c)
  else
    let n := cfg % 4
    let rx := (c.pio.engines[n]?).elim [] (·.rx)
    let v : Int := match rx with
      | w :: _ => signedOf 16 w.toNat
      | [] => 0
    let left := rx.drop 1
    let ramp := p.from_ + (0 - p.from_) * min 32 (p.k + 1) / 32
    let out := if p.refused then ramp else v
    let p := { p with
      ticks := p.ticks + 1
      empties := p.empties + (if rx = [] then 1 else 0)
      -- a queue found full (assumption 118)
      fulls := p.fulls + (if rx ≠ [] ∧ c.rxDepth n ≤ rx.length then 1 else 0)
      value := out
      k := if p.refused then min 32 (p.k + 1) else p.k }
    (out, { c with
      audio := { c.audio with pinIn := p }
      pio := { c.pio with engines := updateAt c.pio.engines n fun e => { e with rx := left } }
      io := if rx = [] then c.io.setBit 0xEB89 0 true else c.io })

/-- The end of a pin-in window of 48 ticks (R305). -/
def Cell.pinInWindow (c : Cell) : Cell :=
  let p := c.audio.pinIn
  if p.ticks < 48 then c
  else
    let bad := decide (2 < p.empties) || decide (2 < p.fulls)
    let p' := { p with ticks := 0, empties := 0, fulls := 0 }
    if bad ∧ ¬ p.refused then
      { c with
        audio := { c.audio with pinIn := { p' with refused := true, from_ := p.value, k := 0 } }
        io := c.io.setBit 0xEB89 1 true }.raise srcAudErr
    else { c with audio := { c.audio with pinIn := p' } }

/-! ### The crosspoint and the output stages -/

/-- One biquad stage (R300). -/
def Biquad.run (b : Biquad) (co : List Int) (x : Int) : Int × Biquad :=
  let k (i : Nat) : Int := co.getD i 0
  let sum := k 0 * x + k 1 * b.x1 + k 2 * b.x2 - k 3 * b.y1 - k 4 * b.y2
  let y := sat8 (roundNearest sum 21)
  (y, { x1 := x, x2 := b.x1, y1 := y, y2 := b.y1 })

/-- The limiter (R301): the output and the block after it. -/
def MixOut.limit (o : MixOut) : Int × MixOut :=
  let u := o.delay.headD 0
  let d := o.delay.drop 1 ++ [o.filtered]
  let thr : Int := (o.limThr * 256 : Nat)
  let one : Int := 0x800000
  let t := d.foldl (fun t x => if x = 0 then t else min t (limiterDiv (thr * one) x.natAbs)) one
  let g :=
    if ¬ o.limEn then one
    else if t < o.limGain then o.limGain - (o.limGain - t) / 8
    else min t (o.limGain + (o.limRel : Nat))
  let v := limiterDiv (u * g) one
  let out := clampInt (-thr) thr v
  (out, { o with delay := d, limGain := g
                 clip := if out = v then o.clip else countNext 0xEB7C o.clip })

/-- One output at a mix tick, with the buses F and Y of this tick (R297 to R303). -/
def MixOut.tick (o : MixOut) (f y : Int) : MixOut :=
  let l := o.limit
  let z := l.1 + o.busY
  let next := clampInt (-0x800000) 0x7FFFFF z
  let s1 := o.bq0.run (o.coef.take 5) o.busF
  let s2 := o.bq1.run (o.coef.drop 5) s1.1
  { l.2 with
    sample := o.next
    next := next
    sat := if next = z then o.sat else countNext 0xEB7E o.sat
    bq0 := s1.2
    bq1 := s2.2
    filtered := s2.1
    busF := f
    busY := y }

/-- The changes of input i's value, for its bridge (R295). -/
def Audio.historyOf (a : Audio) (i : Nat) : List SourceEdge := a.history.filter (fun e => e.input = i)

/-- R303: the first change of a source since the cast reaches half its height 62 mix ticks after it on the filtered
path, 7 on the bypass path; of these the bridge takes 11 or 5, and what follows the bridge takes 51 or 2. -/
def halfHeight (linear : Bool) (m : Nat) (history : List SourceEdge) (x : Int) : Int :=
  match history with
  | [e] =>
    let half := e.value.natAbs * 128
    let at_ := e.mix + (if linear then 11 else 5)
    if m < at_ then clampInt (1 - (half : Int)) (half - 1) x
    else if m = at_ then (if 0 < e.value then max (half : Int) x else min (-(half : Int)) x)
    else x
  | _ => x

/-- The Q1.23 sample of a bridge at mix tick m (R295, R303). -/
def Audio.bridged (a : Audio) (linear : Bool) (m i : Nat) : Int :=
  let h := a.historyOf i
  halfHeight linear m h (Config.bridge linear m a.chipTicks (h.map fun e => (e.tick, e.value))).toInt

/-- IN_BYP in effect; bit 8 reads 1 (R297). -/
def Cell.inByp (c : Cell) : Nat := (c.eff.rdN 0xEB6A 2) ||| 0x100

/-- The mix tick (R287 to R308); `since` is the time since the latest PCM trigger in I/O clocks. -/
def Cell.mixTick (c : Cell) (since : Nat) : Cell :=
  let m := c.audio.mixTicks
  if c.nap.napping then { c with audio := { c.audio with mixTicks := m + 1, packet := [] } }
  else
    -- ramps advance, then the writes accepted at this tick act
    let writes := c.audio.mixWrites
    let a : Audio := { c.audio with nodes := c.audio.nodes.map fun p => (p.1, p.2.tick), mixWrites := [] }
    let a := a.acceptAll writes
    let eff := writes.foldl (fun e w => match w with
      | .byte x v => e.wr x v
      | _ => e) c.eff
    let fresh : PinIn :=
      { ticks := 0, empties := 0, fulls := 0, refused := false, value := 0, from_ := 0, k := 0 }
    let off := !(c.eff.bit 0xEB88 7) || writes.any fun w => match w with
      | .byte x v => x == 0xEB88 && !v.getLsbD 7
      | _ => false
    let a : Audio := if eff.bit 0xEB88 7 ∧ off then { a with pinIn := fresh } else a
    let c := { c with audio := a, eff := eff, io := c.io.wr 0xEB7B 0#8 }
    let h := c.hostIn
    let p := h.2.pinInTake
    let c : Cell := p.2
    let a : Audio := c.audio
    let byp := c.inByp
    let x (i : Nat) : Int :=
      if i = 7 then c.pcmSample since
      else if i = 9 then h.1.1
      else if i = 10 then h.1.2
      else if i = 11 then p.1 * 256
      else a.bridged (!byp.testBit i) m i
    let bus (o : Nat) (side : Bool) : Int :=
      sat8 (roundNearest (((List.range 12).map fun i =>
        if byp.testBit i = side then x i * a.gain (8 * i + o) else 0).sum) 15)
    let outs := a.outs.zipIdx.map fun q => q.1.tick (bus q.2 false) (bus q.2 true)
    let z (o : Nat) : Int := (outs[o]?).elim 0 (·.sample)
    let frame := (z 0, z 1)
    let packet := if m % 48 = 0 then [frame] else a.packet ++ [frame]
    let lbOn := c.eff.bit 0xEB98 7
    let lbFull := decide (64 ≤ a.loopback.length)
    let word : Word := BitVec.ofNat 32 (wordOf 16 (sample16 (z 4)) + 65536 * wordOf 16 (sample16 (z 5)))
    let a := { a with
      outs := outs
      mixTicks := m + 1
      packet := packet
      packetStamp := if m % 48 = 0 then c.beam.ctime else a.packetStamp
      loopback := if lbOn ∧ ¬ lbFull then a.loopback ++ [word] else a.loopback }
    let c := { c with audio := a, io := if lbOn ∧ lbFull then c.io.setBit 0xEB9A 0 true else c.io }
    if a.service then c.emit (.service (z 6) (z 7)) else c

/-- A host-out packet after its 48th frame (R306). -/
def Cell.audioPacket (c : Cell) : Cell :=
  let a := c.audio
  if a.packet.length ≠ 48 ∨ a.mixTicks % 48 ≠ 0 then c
  else
    let c' := { c with audio := { a with packet := [] } }
    if ¬ c.eff.bit 0xEB00 7 then c'
    else
      let w24 := c.eff.bit 0xEB00 6
      let bytes := a.packet.flatMap fun f =>
        if w24 then leBytes 4 (wordOf 32 f.1) ++ leBytes 4 (wordOf 32 f.2)
        else leBytes 2 (wordOf 16 (sample16 f.1)) ++ leBytes 2 (wordOf 16 (sample16 f.2))
      c'.emit (.audio (a.mixTicks / 48 - 1) a.packetStamp w24 bytes)

/-- A PWM period of output A (`n` = 0) or B starts (R307). -/
def Cell.pwmPeriod (c : Cell) (n : Nat) : Cell :=
  if 2 ≤ n ∨ ¬ c.eff.bit (0xEB92 + n) 7 then c
  else
    let per := max 64 (c.eff.rdN 0xEB90 2)
    let z := (c.audio.outs[2 + n]?).elim 0 (·.sample)
    let high := ((z + 0x800000) * per / 0x1000000).toNat
    { c with audio := { c.audio with pwm := updateAt c.audio.pwm n fun _ =>
      { length := per, high := high, start := c.beam.ctime } } }

/-- A read of LB_DATA byte 0 pops a frame (R308). -/
def Cell.loopbackPop (c : Cell) : Word × Cell :=
  match c.audio.loopback with
  | [] => (0#32, c)
  | w :: t => (w, { c with audio := { c.audio with loopback := t } })

/-- The bytes of the audio registers that are read from the block's state. -/
def Cell.audioByte (c : Cell) (a : Nat) : Option Byte :=
  let au := c.audio
  let wr := au.written
  let byteOf (v off : Nat) : Option Byte := some (BitVec.ofNat 8 (v / 256 ^ off))
  -- a selection is in effect from its mix tick; what reads as written is read through the selection as written
  let node := (c.io.rd 0xEB60).toNat
  let cur := (c.eff.rd 0xEB60).toNat
  let o := au.outs[(c.eff.rd 0xEB70).toNat % 8]?
  let ow := wr.outs[(c.io.rd 0xEB70).toNat % 8]?
  if 0xEB04 ≤ a ∧ a < 0xEB08 then byteOf ((au.mixTicks - 1) % 0x100000000) (a - 0xEB04)
  else if a = 0xEB27 ∨ a = 0xEB2B then
    byteOf ((au.waves[(a - 0xEB27) / 4]?).elim 0 (·.phase)) 0
  else if a = 0xEB5A then byteOf au.pcmFifo.length 0
  else if a = 0xEB62 ∨ a = 0xEB63 then
    byteOf (if node < 96 then wordOf 16 (wr.node node).gain else 0) (a - 0xEB62)
  else if a = 0xEB64 then
    byteOf ((if node < 96 then (wr.node node).mute.toNat * 128 else 0) +
      (if cur < 96 then (decide ((au.node cur).k < 32)).toNat else 0)) 0
  else if a = 0xEB66 ∨ a = 0xEB67 then
    byteOf (if cur < 96 then wordOf 16 (au.gain cur) else 0) (a - 0xEB66)
  else if a = 0xEB6B then some (c.io.rd a ||| 1#8)
  else if a = 0xEB71 then byteOf ((ow.elim false (·.limEn)).toNat * 128) 0
  else if a = 0xEB72 ∨ a = 0xEB73 then byteOf (ow.elim 0 (·.limThr)) (a - 0xEB72)
  else if a = 0xEB74 ∨ a = 0xEB75 then byteOf (ow.elim 0 (·.limRel)) (a - 0xEB74)
  else if 0xEB78 ≤ a ∧ a < 0xEB7B then
    byteOf (wordOf 24 (o.elim 0 fun o => o.coef.getD ((c.eff.rd 0xEB76).toNat) 0)) (a - 0xEB78)
  else if a = 0xEB7C ∨ a = 0xEB7D then byteOf (o.elim 0 (·.clip)) (a - 0xEB7C)
  else if a = 0xEB7E ∨ a = 0xEB7F then byteOf (o.elim 0 (·.sat)) (a - 0xEB7E)
  else if a = 0xEB81 then byteOf au.ain.length 0
  else if a = 0xEB99 then byteOf au.loopback.length 0
  else none

end Sys2Proof.Machine
end

