-- ==== Sys2Proof/Machine/Aes.lean ====
section
/-! DEFINITION. The ciphers that R457 names by their standards: AES (FIPS 197), CMAC (NIST SP
800-38B), the key wrap of RFC 3394, DES and three-key TDES, and MAC Algorithm 3 of ISO/IEC 9797-1.
PRESUMED from those standards; assumption 40. -/

namespace Sys2Proof.Machine

abbrev Block := List Byte

/-- Bytewise exclusive-or. -/
def xorBlock (a b : Block) : Block := a.zipWith (· ^^^ ·) b

/-- `k n`, with `n` evaluated first: the loops of this file carry numerals and no unevaluated sums. -/
def evaluated {α : Type} (n : Nat) (k : Nat → α) : α :=
  match n with
  | 0 => k 0
  | m + 1 => k (m + 1)

theorem evaluated_eq {α : Type} (n : Nat) (k : Nat → α) : evaluated n k = k n := by cases n <;> rfl

/-- `k l`, with every number of `l` evaluated first. -/
def evaluatedAll {α : Type} : List Nat → (List Nat → α) → α
  | [], k => k []
  | x :: t, k => evaluated x fun y => evaluatedAll t fun ys => k (y :: ys)

theorem evaluatedAll_eq {α : Type} (l : List Nat) : ∀ k : List Nat → α, evaluatedAll l k = k l := by
  induction l with
  | nil => intro k; rfl
  | cons x t ih => intro k; simp [evaluatedAll, evaluated_eq, ih]

/-! ### AES, on bytes as numbers -/

/-- Doubling in GF(2⁸) modulo x⁸ + x⁴ + x³ + x + 1. -/
def gfDouble (a : Nat) : Nat := if a < 128 then 2 * a else (2 * a) ^^^ 0x11B

/-- The product in GF(2⁸) with a number below 16. -/
def gfMul (a b : Nat) : Nat :=
  let d := gfDouble a
  let q := gfDouble d
  (if b.testBit 0 then a else 0) ^^^ (if b.testBit 1 then d else 0) ^^^ (if b.testBit 2 then q else 0) ^^^
    (if b.testBit 3 then gfDouble q else 0)

/-- The substitution box and its inverse, 32 entries to a number, the first one highest. -/
def aesBox : List Nat := [
  0x637C777BF26B6FC53001672BFED7AB76CA82C97DFA5947F0ADD4A2AF9CA472C0,
  0xB7FD9326363FF7CC34A5E5F171D8311504C723C31896059A071280E2EB27B275,
  0x09832C1A1B6E5AA0523BD6B329E32F8453D100ED20FCB15B6ACBBE394A4C58CF,
  0xD0EFAAFB434D338545F9027F503C9FA851A3408F929D38F5BCB6DA2110FFF3D2,
  0xCD0C13EC5F974417C4A77E3D645D197360814FDC222A908846EEB814DE5E0BDB,
  0xE0323A0A4906245CC2D3AC629195E479E7C8376D8DD54EA96C56F4EA657AAE08,
  0xBA78252E1CA6B4C6E8DD741F4BBD8B8A703EB5664803F60E613557B986C11D9E,
  0xE1F8981169D98E949B1E87E9CE5528DF8CA1890DBFE6426841992D0FB054BB16]
def aesInvBox : List Nat := [
  0x52096AD53036A538BF40A39E81F3D7FB7CE339829B2FFF87348E4344C4DEE9CB,
  0x547B9432A6C2233DEE4C950B42FAC34E082EA16628D924B2765BA2496D8BD125,
  0x72F8F66486689816D4A45CCC5D65B6926C704850FDEDB9DA5E154657A78D9D84,
  0x90D8AB008CBCD30AF7E45805B8B34506D02C1E8FCA3F0F02C1AFBD0301138A6B,
  0x3A9111414F67DCEA97F2CFCEF0B4E67396AC7422E7AD3585E2F937E81C75DF6E,
  0x47F11A711D29C5896FB7620EAA18BE1BFC563E4BC6D279209ADBC0FE78CD5AF4,
  0x1FDDA8338807C731B11210592780EC5F60517FA919B54A0D2DE57A9F93C99CEF,
  0xA0E03B4DAE2AF5B0C8EBBB3C83539961172B047EBA77D626E169146355210C7D]

/-- Entry i of a box. -/
def boxAt (box : List Nat) (i : Nat) : Nat := (box.getD (i / 32) 0 >>> (8 * (31 - i % 32))) % 256

/-- Entry i of a state or key. -/
def at0 (s : List Nat) (i : Nat) : Nat := s.getD i 0

def xorAll (a b : List Nat) : List Nat := a.zipWith (· ^^^ ·) b

/-- ShiftRows on the column-major state: byte 4c + r comes from column c + r, or c - r for `inv`. -/
def shiftRows (inv : Bool) (s : List Nat) : List Nat :=
  (List.range 16).map fun i =>
    let r := i % 4
    at0 s (4 * ((i / 4 + (if inv then 4 - r else r)) % 4) + r)

/-- MixColumns with the first row `k` of its matrix. -/
def mixColumns (k s : List Nat) : List Nat :=
  (List.range 16).map fun i =>
    let col := i / 4 * 4
    (List.range 4).foldl (fun v j => v ^^^ gfMul (at0 s (col + j)) (at0 k ((j + 4 - i % 4) % 4))) 0

def mixForward : List Nat := [2, 3, 1, 1]
def mixInverse : List Nat := [14, 11, 13, 9]

/-- The key schedule: `n` more words after `ws`, latest first (`nk` key words, round constant `rc`). -/
def expandKey (nk : Nat) : Nat → Nat → Nat → List (List Nat) → List (List Nat)
  | 0, _, _, ws => ws
  | n + 1, rc, i, ws =>
    let t := ws.headD []
    let old := ws.getD (nk - 1) []
    let first := i % nk = 0
    let t' :=
      if first then xorAll ((t.drop 1 ++ t.take 1).map (boxAt aesBox)) [rc, 0, 0, 0]
      else if 6 < nk ∧ i % nk = 4 then t.map (boxAt aesBox) else t
    evaluatedAll (xorAll old t') fun w => expandKey nk n (if first then gfDouble rc else rc) (i + 1) (w :: ws)

/-- The four-byte words of a key. -/
def keyWords : Nat → List Nat → List (List Nat)
  | 0, _ => []
  | n + 1, k => k.take 4 :: keyWords n (k.drop 4)

/-- The round keys of a key of 16 or 32 bytes, in order. -/
def roundKeys (key : List Nat) : List (List Nat) :=
  let nk := key.length / 4
  let ws := (expandKey nk (4 * (nk + 7) - nk) 1 nk (keyWords nk key).reverse).reverse
  (List.range (nk + 7)).map fun r => ((ws.drop (4 * r)).take 4).flatten

/-- The rounds after the first key addition; the last one has no MixColumns. -/
def encryptRounds : List (List Nat) → List Nat → List Nat
  | [], s => s
  | k :: ks, s =>
    let t := shiftRows false (s.map (boxAt aesBox))
    evaluatedAll t fun t =>
      evaluatedAll (xorAll (if ks.isEmpty then t else mixColumns mixForward t) k) fun s => encryptRounds ks s

def decryptRounds : List (List Nat) → List Nat → List Nat
  | [], s => s
  | k :: ks, s =>
    evaluatedAll (xorAll ((shiftRows true s).map (boxAt aesInvBox)) k) fun t =>
      evaluatedAll (if ks.isEmpty then t else mixColumns mixInverse t) fun s => decryptRounds ks s

/-- Bytes as numbers, and numbers as bytes. -/
def toNats (b : Block) : List Nat := b.map (·.toNat)
def ofNats (l : List Nat) : Block := l.map (BitVec.ofNat 8)

def aesEncrypt (key s : Block) : Block :=
  let ks := roundKeys (toNats key)
  evaluatedAll (xorAll (toNats s) (ks.headD [])) fun t => ofNats (encryptRounds (ks.drop 1) t)

def aesDecrypt (key s : Block) : Block :=
  let ks := (roundKeys (toNats key)).reverse
  evaluatedAll (xorAll (toNats s) (ks.headD [])) fun t => ofNats (decryptRounds (ks.drop 1) t)

/-- RFC 3394's unwrap with register A and the blocks R, for step t down to 1 of 6n. -/
def unwrapSteps (key : Block) (n : Nat) : Nat → Block → List Block → Block × List Block
  | 0, a, r => (a, r)
  | t + 1, a, r =>
    let i := t % n
    let b := aesDecrypt key (xorBlock a (beBytes 8 (t + 1)) ++ r.getD i [])
    unwrapSteps key n t (b.take 8) (updateAt r i fun _ => b.drop 8)

/-- Pieces of 8 bytes. -/
def eights : Nat → Block → List Block
  | 0, _ => []
  | n + 1, l => l.take 8 :: eights n (l.drop 8)

/-- The key unwrapped by RFC 3394, or `none` when the integrity check fails. -/
def keyUnwrap (key wrapped : Block) : Option Block :=
  let n := wrapped.length / 8 - 1
  let r := unwrapSteps key n (6 * n) (wrapped.take 8) (eights n (wrapped.drop 8))
  if r.1 = List.replicate 8 0xA6#8 then some r.2.flatten else none

/-- Doubling of a CMAC subkey. -/
def cmacDouble (l : Block) : Block :=
  let v := beNat l * 2
  let w := v % 2 ^ 128
  beBytes 16 (if 2 ^ 128 ≤ v then w ^^^ 0x87 else w)

/-- The last block of a CMAC: `m` holds the bytes left, 0 to 16 of them. -/
def cmacLast (key chain m : Block) : Block :=
  let k1 := cmacDouble (aesEncrypt key (List.replicate 16 0#8))
  if m.length = 16 then aesEncrypt key (xorBlock chain (xorBlock m k1))
  else
    let p := m ++ [0x80#8] ++ List.replicate (15 - m.length) 0#8
    aesEncrypt key (xorBlock chain (xorBlock p (cmacDouble k1)))

/-! ### DES -/

/-- A permutation table applied to a number of `w` bits; entries count from 1 at the top bit. -/
def permute (w : Nat) (table : List Nat) (v : Nat) : Nat :=
  table.foldl (fun r p => 2 * r + (v.testBit (w - p)).toNat) 0

def desPc1 : List Nat :=
  [57, 49, 41, 33, 25, 17, 9, 1, 58, 50, 42, 34, 26, 18, 10, 2, 59, 51, 43, 35, 27, 19, 11, 3, 60, 52, 44, 36] ++
  [63, 55, 47, 39, 31, 23, 15, 7, 62, 54, 46, 38, 30, 22, 14, 6, 61, 53, 45, 37, 29, 21, 13, 5, 28, 20, 12, 4]

def desPc2 : List Nat :=
  [14, 17, 11, 24, 1, 5, 3, 28, 15, 6, 21, 10, 23, 19, 12, 4, 26, 8, 16, 7, 27, 20, 13, 2] ++
  [41, 52, 31, 37, 47, 55, 30, 40, 51, 45, 33, 48, 44, 49, 39, 56, 34, 53, 46, 42, 50, 36, 29, 32]

def desP : List Nat :=
  [16, 7, 20, 21, 29, 12, 28, 17, 1, 15, 23, 26, 5, 18, 31, 10] ++
  [2, 8, 24, 14, 32, 27, 3, 9, 19, 13, 30, 6, 22, 11, 4, 25]

/-- The initial permutation and its inverse, by their regular pattern. -/
def desIp : List Nat :=
  (List.range 64).map fun i => (if i / 8 < 4 then 58 + 2 * (i / 8) else 49 + 2 * (i / 8)) - 8 * (i % 8)
def desFp : List Nat :=
  (List.range 64).map fun i =>
    let c := i % 8
    (if c % 2 = 0 then 40 + 8 * (c / 2) else 8 + 8 * (c / 2)) - i / 8

/-- The expansion: each group of six bits overlaps its neighbours. -/
def desE : List Nat :=
  (List.range 48).map fun i => (4 * (i / 6) + i % 6 + 31) % 32 + 1

/-- The S-boxes, each 64 hexadecimal digits: four rows of sixteen. -/
def desS : List Nat := [
  0xE4D12FB83A6C59070F74E2D1A6CB953841E8D62BFC973A50FC8249175B3EA06D,
  0xF18E6B34972DC05A3D47F28EC01A69B50E7BA4D158C6932FD8A13F42B67C05E9,
  0xA09E63F51DC7B428D709346A285ECBF1D6498F30B12C5AE71AD069874FE3B52C,
  0x7DE3069A1285BC4FD8B56F03472C1AE9A690CB7DF13E52843F06A1D8945BC72E,
  0x2C417AB6853FD0E9EB2C47D150FA3986421BAD78F9C5630EB8C71E2D6F09A453,
  0xC1AF92680D34E75BAF427C9561DE0B389EF528C3704A1DB6432C95FABE17608D,
  0x4B2EF08D3C975A61D0B7491AE35C2F8614BDC37EAF6805926BD814A7950FE23C,
  0xD2846FB1A93E50C71FD8A374C56B0E927B419CE206ADF35821E74A8DFC90356B]

/-- The output of S-box `n` for six bits. -/
def desBox (n b : Nat) : Nat :=
  let row := b / 32 * 2 + b % 2
  let col := b / 2 % 16
  desS.getD n 0 / 16 ^ (63 - (16 * row + col)) % 16

/-- The cipher function on 32 bits with a 48-bit round key. -/
def desF (r k : Nat) : Nat :=
  let x := permute 32 desE r ^^^ k
  permute 32 desP ((List.range 8).foldl (fun v i => 16 * v + desBox i (x / 2 ^ (42 - 6 * i) % 64)) 0)

/-- The left rotations of the key halves before round `i`. -/
def desShift (i : Nat) : Nat := if i = 0 ∨ i = 1 ∨ i = 8 ∨ i = 15 then 1 else 2

def rot28 (v n : Nat) : Nat := (v * 2 ^ n + v / 2 ^ (28 - n)) % 2 ^ 28

/-- The sixteen round keys from round `i` on. -/
def desKeys : Nat → Nat → Nat → Nat → List Nat
  | 0, _, _, _ => []
  | n + 1, i, c, d =>
    let c := rot28 c (desShift i)
    let d := rot28 d (desShift i)
    permute 56 desPc2 (c * 2 ^ 28 + d) :: desKeys n (i + 1) c d

/-- DES on 8 bytes; decryption takes the round keys in reverse. -/
def des (decrypt : Bool) (key data : Block) : Block :=
  let k := permute 64 desPc1 (beNat key)
  let ks := desKeys 16 0 (k / 2 ^ 28) (k % 2 ^ 28)
  let v := permute 64 desIp (beNat data)
  let lr := (if decrypt then ks.reverse else ks).foldl
    (fun (p : Nat × Nat) k => (p.2, p.1 ^^^ desF p.2 k)) (v / 2 ^ 32, v % 2 ^ 32)
  beBytes 8 (permute 64 desFp (lr.2 * 2 ^ 32 + lr.1))

/-- The three keys of a 24-byte TDES key. -/
def tdesKey (key : Block) (i : Nat) : Block := (key.drop (8 * i)).take 8

def tdesEncrypt (key b : Block) : Block :=
  des false (tdesKey key 2) (des true (tdesKey key 1) (des false (tdesKey key 0) b))
def tdesDecrypt (key b : Block) : Block :=
  des true (tdesKey key 0) (des false (tdesKey key 1) (des true (tdesKey key 2) b))

end Sys2Proof.Machine
end

