-- ==== Sys2Proof/Machine/Crypto.lean ====
section
/-! DEFINITION. The key slots and the crypto unit (R454, R457 to R462). -/

namespace Sys2Proof.Machine

def Cell.slot (c : Cell) (h : Nat) : Option SlotKey := (c.slots[h]?).join

def Cell.setSlot (c : Cell) (h : Nat) (k : Option SlotKey) : Cell :=
  { c with slots := updateAt c.slots h fun _ => k }

/-- CR_KEY.KEY and KEY2, and CR_CTL.OP (R462). -/
def Cell.crKey (c : Cell) : Nat := bitsOf (c.io.rd 0xED01).toNat 6 4
def Cell.crKey2 (c : Cell) : Nat := (c.io.rd 0xED01).toNat % 8
def Cell.crOp (c : Cell) : Nat := (c.io.rd 0xED00).toNat % 16
def Cell.crMode (c : Cell) : Nat := (c.io.rd 0xED02).toNat
def Cell.crLen (c : Cell) : Nat := c.io.rdN 0xED04 2

/-- The block of a key type (R457). -/
def SlotKey.block (k : SlotKey) : Nat := if k.type = 3 then 8 else 16

/-- The length of a key of each type (R454). -/
def keyBytes (type : Nat) : Nat := if type = 1 then 16 else if type = 2 then 32 else 24

/-- The blocks that an operation processes under a TDES slot (R459). -/
def tdesBlocks (op len pad : Nat) : Nat :=
  if op = 7 then (if pad = 1 then len / 8 + 1 else max 1 (ceilDiv len 8)) else ceilDiv len 8

/-- R457 to R461: the code with which an operation is refused. -/
def Cell.crRefusal (c : Cell) : Option Nat :=
  let op := c.crOp
  let len := c.crLen
  if op = 0 ∨ 9 < op then some 1
  else if op = 9 then none
  else match c.slot c.crKey with
    | none => some 2
    | some k =>
      let aes := k.type ≠ 3
      let typeOk := if op = 5 ∨ op = 6 ∨ op = 8 then aes else if op = 7 then ¬ aes else true
      let use : Nat := match op with
        | 2 => 2
        | 4 => 2
        | 6 => 1
        | 7 => 1
        | 8 => 0
        | _ => 3
      if ¬ typeOk then some 1
      else if ¬ k.usage.testBit use then some 3
      else if op ≤ 4 ∧ len % k.block ≠ 0 then some 4
      else if op = 8 ∧ (len ≠ keyBytes (c.crMode / 64) + 8 ∨ c.crMode / 64 = 0) then some 4
      else if op = 7 ∧ 1 < c.crMode % 4 then some Config.padCode.toNat
      else if ¬ aes ∧ 2 ^ 24 < k.count + tdesBlocks op len (c.crMode % 4) then some 5
      else if op = 8 ∧ (c.slot c.crKey2).isSome then some 6
      else none

/-- An operation ends with ERR and a code (R460). -/
def Cell.crError (c : Cell) (code : Nat) : Cell :=
  { c with
    io := (c.io.setBit 0xED24 1 true).wr 0xED25 (BitVec.ofNat 8 code)
    crypto := { c.crypto with busy := false, finished := false } }.raise srcCryptoErr

/-- A write of 1 to GO (R457, R460). -/
def Cell.crGo (c : Cell) : Cell :=
  if c.crypto.busy then c
  else match c.crRefusal with
    | some code => c.crError code
    | none =>
      let n := ((c.slot c.crKey).map (·.block)).getD 16
      { c with crypto := { c.crypto with
        busy := true, finished := false, op := c.crOp, key := c.crKey, key2 := c.crKey2
        mode := c.crMode, left := if c.crOp = 9 then 0 else c.crLen
        chain := if c.crOp = 6 ∨ c.crOp = 7 then List.replicate n 0#8 else c.io.block 0xED10 n
        inBuf := [], outBuf := [], wrapped := [], blocks := 0 } }

/-- The block cipher of a slot. -/
def SlotKey.encrypt (k : SlotKey) (b : Block) : Block :=
  if k.type = 3 then tdesEncrypt k.bytes b else aesEncrypt k.bytes b
def SlotKey.decrypt (k : SlotKey) (b : Block) : Block :=
  if k.type = 3 then tdesDecrypt k.bytes b else aesDecrypt k.bytes b

/-- One block of ECB, CBC or CTR: the output and the next chaining value (R457). -/
def cipherBlock (op : Nat) (k : SlotKey) (chain b : Block) : Block × Block :=
  match op with
  | 1 => (k.encrypt b, chain)
  | 2 => (k.decrypt b, chain)
  | 3 =>
    let o := k.encrypt (xorBlock b chain)
    (o, o)
  | 4 => (xorBlock (k.decrypt b) chain, b)
  | _ => (xorBlock b (k.encrypt chain), beBytes 16 (beNat chain + 1))

/-- The final DES steps of MAC Algorithm 3: D under the second key, E under the first, or under the
third where the free constant says so. -/
def alg3Last (key chain : Block) : Block :=
  des false (tdesKey key (if Config.macUsesThirdKey then 2 else 0)) (des true (tdesKey key 1) chain)

/-- The blocks of a padded MAC Algorithm 3 message end: `m` holds the bytes left, 0 to 8. -/
def alg3Pad (pad : Nat) (started : Bool) (m : Block) : List Block :=
  if pad = 0 then
    (if m = [] ∧ started then [] else [m ++ List.replicate (8 - m.length) 0#8])
  else if m.length = 8 then [m, [0x80#8] ++ List.replicate 7 0#8]
  else [m ++ [0x80#8] ++ List.replicate (7 - m.length) 0#8]

/-- The bytes that the unit takes before it works: a block, but for the last piece of the message. -/
def Crypto.need (u : Crypto) (n : Nat) : Nat := min n u.left

/-- One step of a running operation: bytes move between the FIFOs and the unit, and a full block is
processed. -/
def cryptoStep (k : SlotKey) (u : Crypto) : Crypto :=
  let room := 32 - u.dout.length
  if u.outBuf ≠ [] then { u with dout := u.dout ++ u.outBuf.take room, outBuf := u.outBuf.drop room }
  else
    let n := k.block
    let want := u.need n - u.inBuf.length
    let u := { u with inBuf := u.inBuf ++ u.din.take want, din := u.din.drop want }
    if u.left = 0 ∨ u.inBuf.length < u.need n then u
    else
      let b := u.inBuf
      let u := { u with inBuf := [], left := u.left - b.length, blocks := u.blocks + 1 }
      match u.op with
      | 6 => if u.left = 0 then { u with inBuf := b } else { u with chain := k.encrypt (xorBlock u.chain b) }
      | 7 => if u.left = 0 then { u with inBuf := b }
        else { u with chain := des false (tdesKey k.bytes 0) (xorBlock u.chain b) }
      | 8 => { u with wrapped := u.wrapped ++ b }
      | op =>
        let r := cipherBlock op k u.chain b
        { u with outBuf := r.1, chain := r.2 }

def cryptoRun (k : SlotKey) : Nat → Crypto → Crypto
  | 0, u => u
  | n + 1, u => cryptoRun k n (cryptoStep k u)

/-- The steps that one stay of the unit can take: each moves at least one byte. -/
def Crypto.fuel (u : Crypto) : Nat := 2 * (u.din.length + u.outBuf.length + u.inBuf.length) + 4

/-- A running operation `op` goes on as far as its FIFOs allow (R457, R460). -/
def Cell.crRun (c : Cell) (op : Nat) (finish : Crypto → SlotKey → Cell → Cell) : Cell :=
  let u := c.crypto
  if ¬ u.busy ∨ u.finished ∨ u.op ≠ op then c
  else match c.slot u.key with
    | none => c
    | some k =>
      let u' := cryptoRun k u.fuel u
      let c' := { c with crypto := u' }
      if u'.left = 0 ∧ u'.outBuf = [] then finish u' k c' else c'

/-- The end of ECB, CBC and CTR: the next IV or counter stays in CR_IV; TDES blocks are counted. -/
def finishCipher (u : Crypto) (k : SlotKey) (c : Cell) : Cell :=
  let c := { c with
    crypto := { u with finished := true }
    io := if 3 ≤ u.op then c.io.put 0xED10 u.chain else c.io }
  if k.type = 3 then c.setSlot u.key (some { k with count := k.count + u.blocks }) else c

/-- The end of CMAC. -/
def finishCmac (u : Crypto) (k : SlotKey) (c : Cell) : Cell :=
  { c with
    crypto := { u with finished := true, inBuf := [] }
    io := c.io.put 0xED30 (cmacLast k.bytes u.chain u.inBuf) }

/-- The end of MAC Algorithm 3. -/
def finishAlg3 (u : Crypto) (k : SlotKey) (c : Cell) : Cell :=
  let started := decide (1 < u.blocks)
  let blocks := alg3Pad (u.mode % 4) started u.inBuf
  let chain := blocks.foldl (fun ch b => des false (tdesKey k.bytes 0) (xorBlock ch b)) u.chain
  let total := (if u.inBuf = [] then u.blocks else u.blocks - 1) + blocks.length
  { c with
    crypto := { u with finished := true, inBuf := [] }
    io := c.io.put 0xED30 (alg3Last k.bytes chain) }.setSlot u.key
      (some { k with count := k.count + total })

/-- The end of UNWRAP (R458): the key goes into slot KEY2, or the integrity check fails. -/
def finishUnwrap (u : Crypto) (k : SlotKey) (c : Cell) : Cell :=
  match keyUnwrap k.bytes u.wrapped with
  | none => c.crError 6
  | some bytes =>
    { c with crypto := { u with finished := true } }.setSlot u.key2
      (some { type := u.mode / 64, usage := bitsOf u.mode 5 3 * 2, fromUnwrap := true
              bytes := bytes, count := 0 })

/-- ERASE empties slot KEY (R457). -/
def Cell.crErase (c : Cell) : Cell :=
  let u := c.crypto
  if ¬ u.busy ∨ u.finished ∨ u.op ≠ 9 then c
  else { c with crypto := { u with finished := true } }.setSlot u.key none

/-- The end of an operation (R460). -/
def Cell.crDone (c : Cell) : Cell :=
  let u := c.crypto
  if u.busy ∧ u.finished then
    { c with
      crypto := { u with busy := false, finished := false }
      io := c.io.setBit 0xED24 0 true }.raise srcCrypto
  else c

/-- The blocks that an unfinished operation has processed count for its TDES slot (R459). -/
def Cell.crCounted (c : Cell) (u : Crypto) : Cell :=
  match c.slot u.key with
  | some k =>
    if u.busy ∧ ¬ u.finished ∧ k.type = 3 then c.setSlot u.key (some { k with count := k.count + u.blocks }) else c
  | none => c

/-- A write of 1 to ABORT (R462). -/
def Cell.crAbort (c : Cell) : Cell :=
  Cell.crCounted { c with crypto := { c.crypto with busy := false, finished := false, din := [], dout := []
                                                    inBuf := [], outBuf := [], left := 0 } } c.crypto

/-- A write to CR_DIN (R462). -/
def Cell.crIn (c : Cell) (v : Byte) : Cell :=
  if 32 ≤ c.crypto.din.length then { c with io := c.io.setBit 0xED24 2 true }
  else { c with crypto := { c.crypto with din := c.crypto.din ++ [v] } }

/-- A read of CR_DOUT (R462). -/
def Cell.crOut (c : Cell) : Byte × Cell :=
  match c.crypto.dout with
  | [] => (0#8, c)
  | b :: t => (b, { c with crypto := { c.crypto with dout := t } })

/-- An alarm empties the slots of `mask` (R461); the answer is the mask of those that held a key. -/
def Cell.eraseSlots (c : Cell) (mask : Byte) : Byte × Cell :=
  let hit (h : Nat) : Bool := mask.getLsbD h && (c.slot h).isSome
  let m := (List.range 8).foldl (fun m h => if hit h then m ||| BitVec.ofNat 8 (2 ^ h) else m) 0#8
  let u := c.crypto
  let c' := { c with slots := c.slots.zipIdx.map fun p => if hit p.2 then none else p.1 }
  if u.busy ∧ hit u.key then
    (m, { c' with crypto := { u with dout := [], outBuf := [] }
                  io := c'.io.put 0xED30 (List.replicate 16 0#8) }.crError 2)
  else (m, c')

/-- The bytes of the crypto registers that are read from the unit. -/
def Cell.cryptoByte (c : Cell) (a : Nat) : Option Byte :=
  let u := c.crypto
  if a = 0xED00 then some (c.io.rd a &&& 0x0F#8)
  else if a = 0xED22 then some (BitVec.ofNat 8 u.din.length)
  else if a = 0xED23 then some (BitVec.ofNat 8 u.dout.length)
  else if a = 0xED24 then some ((c.io.rd a &&& 7#8) ||| (if u.busy then 0x80#8 else 0#8))
  else if 0xED40 ≤ a ∧ a < 0xED48 then
    match c.slot (a - 0xED40) with
    | none => some 0#8
    | some k => some (BitVec.ofNat 8 (k.type * 64 + k.usage * 4 + k.fromUnwrap.toNat * 2))
  else none

end Sys2Proof.Machine
end

