-- ==== Sys2Proof/Machine/SlipCode.lean ====
section
/-! DEFINITION. The checksums and the codings of the encoder: CRC-32C (R228), CRC-64 (R238), raw and
palette-run payloads (R249, R250) and slip coding (R251 to R254). -/

namespace Sys2Proof.Machine

/-- One byte of a reflected CRC of `w` bits. -/
def crcByte {w : Nat} (poly crc : BitVec w) (b : Byte) : BitVec w :=
  let step (x : BitVec w) : BitVec w := if x.getLsbD 0 then (x >>> 1) ^^^ poly else x >>> 1
  step (step (step (step (step (step (step (step (crc ^^^ b.setWidth w))))))))

/-- CRC-32C: polynomial 1EDC6F41h reflected, initial value and final XOR FFFFFFFFh (R228). -/
def crc32c (bytes : List Byte) : Word :=
  ~~~ (bytes.foldl (crcByte 0x82F63B78#32) 0xFFFFFFFF#32)

/-- CRC-64: ECMA-182 polynomial reflected, initial value and final XOR all ones (R238). -/
def crc64 (bytes : List Byte) : BitVec 64 :=
  ~~~ (bytes.foldl (crcByte 0xC96C5795D7870F42#64) 0xFFFFFFFFFFFFFFFF#64)

/-- The 1,024 bytes of a block's 256 pixels (R228, R249). -/
def pixelBytes (px : List Word) : List Byte := px.flatMap fun p => leBytes 4 p.toNat

/-- Zero bytes up to a multiple of 4. -/
def pad4 (l : List Byte) : List Byte := l ++ List.replicate ((4 - l.length % 4) % 4) 0#8

/-- The runs of a list: each value with its length, at most 16 (R250). -/
def runsOf : List Nat → List (Nat × Nat)
  | [] => []
  | x :: t =>
    match runsOf t with
    | (y, n) :: rest => if x = y ∧ n < 16 then (y, n + 1) :: rest else (x, 1) :: (y, n) :: rest
    | [] => [(x, 1)]

/-- The runs from the left, each as long as possible up to 16 pixels (R250). -/
def leftRuns (px : List Nat) : List (Nat × Nat) :=
  ((runsOf px.reverse).reverse)

/-- A palette-run block (R250). -/
def paletteRun (px : List Word) : List Byte :=
  let colours := px.eraseDups
  let index (p : Word) : Nat := colours.findIdx (· == p)
  let entries := colours.flatMap fun p => leBytes 4 p.toNat
  let runs := (leftRuns (px.map index)).map fun r => BitVec.ofNat 8 (r.1 * 16 + (r.2 - 1))
  pad4 (BitVec.ofNat 8 (colours.length - 1) :: entries ++ runs)

/-- R252: the prediction of a component from its left, upper and upper-left neighbours. -/
def predict (a b e : Int) : Int :=
  if max a b ≤ e then min a b else if e ≤ min a b then max a b else a + b - e

/-- R253: the quantised residual of `e`, and its code m. -/
def quantise (delta : Nat) (e : Int) : Int :=
  if 0 ≤ e then (e + delta) / (2 * delta + 1) else -((delta - e) / (2 * delta + 1))
def codeOf (r : Int) : Nat := if 0 ≤ r then (2 * r).toNat else (-2 * r - 1).toNat
def residualOf (m : Nat) : Int := if m % 2 = 0 then (m / 2 : Nat) else -((m + 1) / 2 : Nat)

/-- One row of one component: the codes and the reconstruction (R252, R253). `above` is the row above
as reconstructed. -/
def slipRow (delta : Nat) (above : Option (List Nat)) : Option (Nat × Nat) → Nat → List Nat →
    List Nat × List Nat
  | _, _, [] => ([], [])
  | left, x, s :: t =>
    let up : Nat := (above.getD []).getD x 0
    let pred : Int :=
      match left, above with
      | none, none => 512
      | some (a, _), none => a
      | none, some _ => up
      | some (a, e), some _ => predict a up e
    let r := quantise delta ((s : Int) - pred)
    let rec_ := (clampInt 0 1023 (pred + r * (2 * delta + 1))).toNat
    let rest := slipRow delta above (some (rec_, up)) (x + 1) t
    (codeOf r :: rest.1, rec_ :: rest.2)

/-- The bits of a number, highest first. -/
def msbBits : Nat → Nat → List Bool
  | 0, _ => []
  | n + 1, v => v.testBit n :: msbBits n v

/-- One Rice code (R252). -/
def riceBits (k m : Nat) : List Bool :=
  let u := m / 2 ^ k
  if u < 24 then List.replicate u true ++ false :: msbBits k m
  else List.replicate 24 true ++ msbBits 11 m

def riceLen (k m : Nat) : Nat := if m / 2 ^ k < 24 then m / 2 ^ k + 1 + k else 35

/-- R253: the Rice parameter that gives the fewest bits, the lower one on a tie. -/
def bestRice (ms : List Nat) : Nat :=
  let cost (k : Nat) : Nat := (ms.map (riceLen k)).sum
  (List.range 11).foldl (fun b k => if cost k < cost b then k else b) 0

/-- The bits of the rows of a slip block; the last argument holds the rows above by component. -/
def slipRows (delta : Nat) : List (List Nat × List Nat × List Nat) →
    Option (List Nat × List Nat × List Nat) → List Bool
  | [], _ => []
  | row :: rows, above =>
    let one (s : List Nat) (a : Option (List Nat)) : List Bool × List Nat :=
      let r := slipRow delta a none 0 s
      let k := bestRice r.1
      (msbBits 4 k ++ r.1.flatMap (riceBits k), r.2)
    let r := one row.1 (above.map (·.1))
    let g := one row.2.1 (above.map (·.2.1))
    let b := one row.2.2 (above.map (·.2.2))
    r.1 ++ g.1 ++ b.1 ++ slipRows delta rows (some (r.2, g.2, b.2))

/-- Bits packed into bytes, highest first (R251). -/
def packBits : Nat → List Bool → List Byte
  | 0, _ => []
  | _, [] => []
  | n + 1, bits =>
    let h := bits.take 8
    let v := (h ++ List.replicate (8 - h.length) false).foldl (fun v b => 2 * v + b.toNat) 0
    BitVec.ofNat 8 v :: packBits n (bits.drop 8)

/-- The rows of a block's pixels, by component. -/
def componentRows (px : List Word) : List (List Nat × List Nat × List Nat) :=
  (List.range 8).map fun y =>
    let row := (px.drop (32 * y)).take 32
    (row.map fun p => p.toNat / 0x100000 % 1024, row.map fun p => p.toNat / 1024 % 1024
     , row.map fun p => p.toNat % 1024)

/-- A slip block (R251, R253). -/
def slipBlock (delta : Nat) (px : List Word) : List Byte :=
  let bits := slipRows delta (componentRows px) none
  let coded := pad4 (BitVec.ofNat 8 delta :: packBits (bits.length / 8 + 1) bits)
  if 1028 ≤ coded.length then 0x80#8 :: 0#8 :: 0#8 :: 0#8 :: pixelBytes px else coded

/-- A bit reader over bytes, highest bit first. -/
def bitAt (bytes : List Byte) (i : Nat) : Bool := (bytes.getD (i / 8) 0#8).getLsbD (7 - i % 8)

def readBits (bytes : List Byte) (i : Nat) : Nat → Nat
  | 0 => 0
  | n + 1 => (bitAt bytes i).toNat * 2 ^ n + readBits bytes (i + 1) n

/-- The leading 1 bits, at most `n`, and the position after the code's stop bit. -/
def readUnary (bytes : List Byte) (i : Nat) : Nat → Nat → Nat × Nat
  | 0, u => (u, i)
  | n + 1, u => if bitAt bytes i then readUnary bytes (i + 1) n (u + 1) else (u, i + 1)

/-- One row of one component decoded (R252); `none` for a k above 10 or an m above 2,046. -/
def unslipRow (bytes : List Byte) (q : Nat) (above : Option (List Nat)) (k : Nat) :
    Option (Nat × Nat) → Nat → Nat → Nat → Option (List Nat × Nat)
  | _, _, i, 0 => some ([], i)
  | left, x, i, n + 1 =>
    let up : Nat := (above.getD []).getD x 0
    let pred : Int :=
      match left, above with
      | none, none => 512
      | some (a, _), none => a
      | none, some _ => up
      | some (a, e), some _ => predict a up e
    let u := readUnary bytes i 24 0
    let m := if u.1 = 24 then readBits bytes u.2 11 else u.1 * 2 ^ k + readBits bytes u.2 k
    let j := u.2 + (if u.1 = 24 then 11 else k)
    if 2046 < m then none
    else
      let v := (clampInt 0 1023 (pred + residualOf m * q)).toNat
      (unslipRow bytes q above k (some (v, up)) (x + 1) j n).map fun r => (v :: r.1, r.2)

/-- The rows of a slip block decoded from bit `i`. -/
def unslipRows (bytes : List Byte) (q : Nat) : Nat → Option (List Nat × List Nat × List Nat) → Nat →
    Option (List (List (Nat × Nat × Nat)) × Nat)
  | 0, _, i => some ([], i)
  | n + 1, above, i =>
    let one (a : Option (List Nat)) (i : Nat) : Option (List Nat × Nat) :=
      let k := readBits bytes i 4
      if 10 < k then none else unslipRow bytes q a k none 0 (i + 4) 32
    match one (above.map (·.1)) i with
    | none => none
    | some r =>
      match one (above.map (·.2.1)) r.2 with
      | none => none
      | some g =>
        match one (above.map (·.2.2)) g.2 with
        | none => none
        | some b =>
          let row := (r.1.zip (g.1.zip b.1)).map fun p => (p.1, p.2.1, p.2.2)
          (unslipRows bytes q n (some (r.1, g.1, b.1)) b.2).map fun t => (row :: t.1, t.2)

/-- R252: a slip block decoded, with the bytes it takes; `none` for the errors of R255. -/
def unslipBlock (bytes : List Byte) : Option (List (List (Nat × Nat × Nat)) × Nat) :=
  let hdr := bytes.getD 0 0#8
  if hdr &&& 0x70#8 ≠ 0#8 then none
  else if hdr.getLsbD 7 then
    let px := (List.range 256).map fun i => leNat ((bytes.drop (4 + 4 * i)).take 4)
    let rows := (List.range 8).map fun y => ((px.drop (32 * y)).take 32).map fun w =>
      (w / 0x100000 % 1024, w / 1024 % 1024, w % 1024)
    some (rows, 1028)
  else
    (unslipRows bytes (2 * (hdr.toNat % 16) + 1) 8 none 8).map fun r =>
      (r.1, (1 + (r.2 - 8 + 7) / 8 + 3) / 4 * 4)

end Sys2Proof.Machine
end

