-- ==== Sys2Proof/Machine/Output.lean ====
section
/-! DEFINITION. The guards, the freeze detector and the encoder: R226 to R248. -/

namespace Sys2Proof.Machine

/-- Block columns and bands of the geometry in effect (R236). -/
def Cell.blockCols (c : Cell) : Nat := ceilDiv c.hActive 32
def Cell.bandCount (c : Cell) : Nat := ceilDiv c.vActive 8

/-- The last active line of band b (R237). -/
def Cell.lastLine (c : Cell) (b : Nat) : Nat := min (8 * b + 7) (c.vActive - 1)

/-- The dots of line y as composed, first dot first. -/
def Cell.lineDots (c : Cell) (y : Nat) : List Dot :=
  match c.picture.lines.find? (fun l => l.y = y) with
  | some l => l.dots.reverse
  | none => []

/-- The eight lines of a band; a line below the active area is empty (R228, R236). -/
def Cell.bandLines (c : Cell) (b : Nat) : List (List Dot) :=
  (List.range 8).map fun i => if 8 * b + i < c.vActive then c.lineDots (8 * b + i) else []

/-- The 256 dots of a block; a pixel outside the active area counts as 0 (R228). -/
def blockDots (rows : List (List Dot)) (x : Nat) : List Dot :=
  rows.flatMap fun row =>
    (List.range 32).map fun j => row.getD (32 * x + j) { main := 0#32, guarded := 0#32, video := false }

/-- Region r covers the block of band b and column x, by the bytes at `a` (R226). -/
def regionCovers (s : Bytes) (a b x : Nat) : Bool :=
  decide ((s.rd a).toNat ≤ x ∧ x ≤ (s.rd (a + 2)).toNat ∧ (s.rd (a + 1)).toNat ≤ b ∧
    b ≤ (s.rd (a + 3)).toNat)

/-- The active guarded regions that contain a block, as a mask. -/
def Cell.regionsOf (c : Cell) (b x : Nat) : Byte :=
  (List.range 8).foldl (fun m r =>
    if c.efBit 0xEA80 r ∧ regionCovers c.eff (0xEA88 + 4 * r) b x then m ||| BitVec.ofNat 8 (2 ^ r)
    else m) 0#8

/-- One mismatching block (R228, R229). -/
def Cell.guardMiss (c : Cell) (block : Nat) (regions : Byte) : Cell :=
  let old := c.io.rd 0xEA82
  let p := c.picture
  let fresh := regions &&& ~~~ old &&& ~~~ p.notified
  let io := ((c.io.orb 0xEA82 regions).count16 0xEA84 1).wrN 0xEA86 2 block
  let io := io.orb 0xEA83 (regions &&& c.eff.rd 0xEA81)
  let c := { c with io := io, picture := { p with
    missed := p.missed ||| regions, notified := p.notified ||| fresh } }.raise srcGuard
  (List.range 8).foldl (fun c r =>
    if fresh.getLsbD r then c.emit (.notify 0x03 (r * 4096 + block) c.beam.ctime) else c) c

/-- R228: the CRCs of band b compared at (Lb, H_ACTIVE + 8). -/
def Cell.guardCompare (c : Cell) (b : Nat) : Cell :=
  if c.bandCount ≤ b ∨ c.dry then c
  else c.eventAt (c.lastLine b) (c.hActive + 8) evGuard fun c =>
    let rows := c.bandLines b
    let bad := (List.range c.blockCols).filter fun x =>
      c.regionsOf b x != 0#8 &&
        (let d := blockDots rows x
         crc32c (pixelBytes (d.map (·.main))) != crc32c (pixelBytes (d.map (·.guarded))))
    if bad = [] then c
    else
      (bad.foldl (fun c x => c.guardMiss (b * c.blockCols + x) (c.regionsOf b x)) c).emitGuard

/-- The codings of R243. -/
inductive Coding where
  | raw | paletteRun | slip
deriving DecidableEq, Repr

def Coding.code : Coding → Nat
  | .raw => 0
  | .paletteRun => 1
  | .slip => 2

/-- A block of a band as the encoder sees it. -/
structure BlockView where
  col : Nat
  px : List Word
  hash : BitVec 64
  changed : Bool
  guarded : Bool
  held : Bool
  released : Bool
  coding : Coding

/-- The payload of one block (R249 to R253). -/
def Cell.blockPayload (c : Cell) (v : BlockView) : List Byte :=
  match v.coding with
  | .raw => pixelBytes v.px
  | .paletteRun => paletteRun v.px
  | .slip => slipBlock (if v.guarded then 0 else c.ef 0xEA00 % 16) v.px

/-- R238, R239, R243: the blocks of band b. -/
def Cell.bandBlocks (c : Cell) (b : Nat) : List BlockView :=
  let rows := c.bandLines b
  let cfg := c.ef 0xEA00
  let p := c.picture
  let heldMask := (c.io.rd 0xEA83) &&& (~~~ p.releasing ||| p.missed)
  (List.range c.blockCols).map fun x =>
    let d := blockDots rows x
    let px := d.map (·.main)
    let hash := crc64 (pixelBytes px)
    let regions := c.regionsOf b x
    { col := x, px := px, hash := hash
      changed := lookupNat p.hashes (b * c.blockCols + x) != some hash
      guarded := regions != 0#8
      held := regions &&& heldMask != 0#8
      released := regions &&& p.releasing != 0#8
      coding :=
        if cfg.testBit 6 ∧ ¬ d.any (·.video) ∧ px.eraseDups.length ≤ 16 then .paletteRun
        else if cfg.testBit 7 then .slip else .raw }

/-- R244: the runs of a published set. -/
def runsOfBlocks : List BlockView → List (List BlockView)
  | [] => []
  | v :: t =>
    match runsOfBlocks t with
    | (w :: ws) :: rest =>
      if w.col = v.col + 1 ∧ w.coding = v.coding ∧ w.guarded = v.guarded then (v :: w :: ws) :: rest
      else [v] :: (w :: ws) :: rest
    | other => [v] :: other

/-- Words 1 to 3 of a record's header (R246, R247). -/
def Cell.headerTail (c : Cell) (len : Nat) : List Byte :=
  let t := c.beam.ctime % 2 ^ 48
  leBytes 4 c.beam.frame ++ leBytes 4 (t % 2 ^ 32) ++ leBytes 2 (t / 2 ^ 32) ++ leBytes 2 len

/-- One sherd (R244, R246). -/
def Cell.sherd (c : Cell) (st : Stream) (b : Nat) (run : List BlockView) : List Byte :=
  let body := run.flatMap c.blockPayload
  let first := (run.head?.map (·.col)).getD 0
  let coding := (run.head?.map (·.coding.code)).getD 0
  let guarded := run.any (·.guarded)
  let refresh := run.any (fun v => !v.changed)
  let w := 1 * 2 ^ 28 + coding * 2 ^ 26 + guarded.toNat * 2 ^ 25 + refresh.toNat * 2 ^ 24 +
    (st == .clq).toNat * 2 ^ 23 + b * 2 ^ 16 + first * 2 ^ 11 + (run.length - 1) * 2 ^ 6
  leBytes 4 w ++ c.headerTail body.length ++ body

/-- The streams on which the encoder publishes (R245). -/
def Cell.streams (c : Cell) : List Stream :=
  [.shq] ++ (if c.picture.clone then [.clq] else []) ++ (if c.picture.service then [.svc] else [])

def Cell.streamCount (c : Cell) (st : Stream) : StreamCount :=
  (c.picture.counts.find? (fun k => k.stream = st)).getD { stream := st, sherds := 0, blocks := 0 }

/-- The sherds of band b on one stream (R239, R244, R245). -/
def Cell.publishBand (c : Cell) (b : Nat) (blocks : List BlockView) (st : Stream) : Cell :=
  let k := c.ef16 0xEA02
  let full := c.picture.refreshNow.contains st
  let set := blocks.filter fun v =>
    !v.held && (v.changed || full || v.released ||
      (k != 0 && (b * c.blockCols + v.col) % k == c.picture.rc))
  let runs := runsOfBlocks set
  let n := c.streamCount st
  let n := { n with sherds := n.sherds + runs.length, blocks := n.blocks + set.length }
  let c' := { c with picture := { c.picture with
    counts := n :: c.picture.counts.filter (fun k => k.stream ≠ st) } }
  runs.foldl (fun c' run => c'.emit (.record st run.length (c.sherd st b run))) c'

/-- The frame seal of one stream (R248). -/
def Cell.sealFrame (c : Cell) (st : Stream) : Cell :=
  let n := c.streamCount st
  let late := decide (0 < c.picture.firstBand)
  let refresh := !late && c.picture.refreshNow.contains st && !(st == .svc && c.picture.joined)
  let w := 2 * 2 ^ 28 + late.toNat * 2 ^ 25 + refresh.toNat * 2 ^ 24 + (st == .clq).toNat * 2 ^ 23 +
    c.bandCount * 2 ^ 16
  let body := c.io.block 0xEAB8 4 ++ c.io.block 0xEA06 2 ++ leBytes 2 c.hActive ++ leBytes 2 c.vActive ++
    leBytes 2 n.sherds ++ leBytes 2 n.blocks ++ leBytes 2 0
  c.emit (.record st 0 (leBytes 4 w ++ c.headerTail 16 ++ body))

/-- R231: the CRC-32C over the block CRCs of the blocks that `pick` takes, in block order. -/
def Cell.signature (c : Cell) (pick : Nat → Nat → Bool) : Word :=
  let cols := c.blockCols
  let blocks := (List.range (c.bandCount * cols)).filter fun n => pick (n / cols) (n % cols)
  if blocks = [] then 0#32
  else crc32c (blocks.flatMap fun n => leBytes 4 ((lookupNat c.picture.crcs n).getD 0#32).toNat)

/-- The signatures, FREEZE_CNT and FROZEN as the input log records them (R233, R415). -/
def Cell.signValues (c : Cell) : List Byte :=
  c.io.block 0xEAB8 4 ++ c.io.block 0xEABC 4 ++ c.io.block 0xEAA8 2 ++ c.io.block 0xEAB1 1 ++ leBytes 5 0

/-- R231, R232: the signatures, and the freeze comparison. -/
def Cell.signFrame (c : Cell) : Cell :=
  let fs := c.signature fun _ _ => true
  let rs := c.signature fun b x => regionCovers c.eff 0xEAB4 b x
  let io := (c.io.wrN 0xEAB8 4 fs.toNat).wrN 0xEABC 4 rs.toNat
  let ctl := c.ef 0xEAB0
  let pick (p : Word × Word) : Word := if ctl.testBit 6 then p.2 else p.1
  let n := c.ef16 0xEAB2
  let prev := c.picture.prevSig
  let was := c.signValues
  let c := { c with io := io, picture := { c.picture with prevSig := some (fs, rs) } }
  let c : Cell :=
    if ¬ ctl.testBit 7 then c
    else match prev with
      | none => { c with io := c.io.wrN 0xEAA8 2 0 }
      | some old =>
        if pick old ≠ pick (fs, rs) then { c with io := c.io.wrN 0xEAA8 2 0 }
        else
          let io := c.io.count16 0xEAA8 1
          if io.rdN 0xEAA8 2 = n ∧ c.io.rdN 0xEAA8 2 ≠ n then
            let c' := { c with io := io.setBit 0xEAB1 0 true }.raise srcFrozen
            if io.bit 0xEAB1 0 then c' else c'.emit (.notify 0x02 0 c'.beam.ctime)
          else { c with io := io }
  if c.signValues = was then c else c.emit (.logRecord 0x0D c.signValues)

/-- The band close (R237): hashes, publication and, at the last band, signatures and seals. -/
def Cell.bandClose (c : Cell) (b : Nat) : Cell :=
  if c.bandCount ≤ b then c
  else
    let wrap := c.hTotal ≤ c.hActive + 16
    c.eventAt (if wrap then c.lastLine b + 1 else c.lastLine b) (if wrap then 0 else c.hActive + 16)
      evBand fun c =>
      let blocks := c.bandBlocks b
      let encode := !c.picture.held && decide (c.picture.firstBand ≤ b)
      let crcs := blocks.foldl
        (fun m v => insertNat m (b * c.blockCols + v.col)
          (if encode ∨ c.picture.held then crc32c (pixelBytes v.px) else 0#32)) c.picture.crcs
      let c := { c with picture := { c.picture with crcs := crcs } }
      let c := if encode then c.streams.foldl (fun c st => c.publishBand b blocks st) c else c
      let c : Cell :=
        if encode then
          { c with picture := { c.picture with
            hashes := blocks.foldl (fun m v =>
              if v.held then m else insertNat m (b * c.blockCols + v.col) v.hash) c.picture.hashes } }
        else c
      if b + 1 = c.bandCount ∧ ¬ c.dry then
        let c := c.signFrame
        if encode then c.streams.foldl (fun c st => c.sealFrame st) c else c
      else c

/-- R242, R259: REFRESH_ALL requests a full refresh of every stream in the first frame that begins after its
acceptance at the next tick. One accepted at a frame boundary waits in the log of writes of that tick. -/
def Cell.refreshAll (c : Cell) : Cell :=
  let c := { c with io := c.io.setBit 0xEA04 0 true }
  if c.atFrameEnd then
    let log : ShadowWrite := { accepted := c.beam.ctime + 1, addr := 0xEA04, old := 1#8 }
    { c with beam := { c.beam with shadowLog := c.beam.shadowLog ++ [log] } }
  else { c with picture := { c.picture with refreshNext := [.shq, .clq, .svc] } }

/-- A full refresh of one stream in the next frame (R242). -/
def Cell.refreshStream (c : Cell) (st : Stream) : Cell :=
  if c.picture.refreshNext.contains st then c
  else { c with picture := { c.picture with refreshNext := c.picture.refreshNext ++ [st] } }

/-- R221: the source lines that output line y of layer L needs and that have not arrived. -/
def Cell.missingLines (c : Cell) (L y : Nat) : List Nat :=
  let b := 0xE9A0 + 0x20 * L
  match (c.picture.layers[L]?).bind (fun l => l.effect.map fun d => (l, d)) with
  | none => []
  | some (l, d) =>
    let dy := c.ef16 (b + 4)
    let dh := c.ef16 (b + 8)
    if c.efBit b 7 ∧ dy ≤ y ∧ y < dy + dh then
      (linesUsed d.sh dh (y - dy)).filter fun n =>
        !(l.lines.any (fun s => s.n == n && decide (s.arrived < c.beam.ctime))) && !(l.missing.contains n)
    else []

/-- The log records of source lines of layer L (R415). -/
def lineLog (kind L : Nat) (lines : List Nat) (c : Cell) : Cell :=
  lines.foldl (fun c n => c.emit (.logRecord kind (leBytes 2 L ++ leBytes 2 n ++ leBytes 4 0))) c

/-- R221: the lines are counted as underruns at (y, 0), each of them a raise. -/
def Cell.layerUnderrun (c : Cell) (L y : Nat) : Cell :=
  match (c.runTo y 0).bind (·.once (evUnder0 + L)) with
  | none => c
  | some c' =>
    let miss := c'.missingLines L y
    if miss = [] ∨ 2 ≤ L ∨ c'.vActive ≤ y ∨ c'.dry then c
    else
      let b := 0xE9A0 + 0x20 * L
      let io := (c'.io.count16 (b + 12) miss.length).setBit (b + 10) 0 true
      let c' := { c' with io := io, picture := { c'.picture with
        layers := updateAt c'.picture.layers L fun l => { l with missing := l.missing ++ miss } } }
      lineLog 0x0A L miss (miss.foldl (fun c _ => c.raise (srcVl0 + L)) c')

/-- R217: the 10-bit codes of one source line from its bytes; `chroma` holds the line of the second
plane for the two-plane formats. The conversion of YCbCr is to the nearest code with coefficients
rounded to 2⁻¹⁴ (DEDUCED). -/
def decodeLine (d : LayerDesc) (p0 chroma : List Byte) : List Rgb :=
  let at0 (i : Nat) : Nat := (p0.getD i 0#8).toNat
  let atc (i : Nat) : Nat := (chroma.getD i 0#8).toNat
  let ycc (y cb cr : Nat) : Rgb :=
    let ky : Int := if d.range = 0 then 19133 else 16384
    let k2 (f l : Int) : Int := if d.range = 0 then l else f
    let bt709 := d.prim = 0
    let rv : Int := if bt709 then k2 25802 29459 else k2 24160 27584
    let gu : Int := if bt709 then k2 3069 3504 else k2 2696 3078
    let gv : Int := if bt709 then k2 7670 8757 else k2 9361 10688
    let bu : Int := if bt709 then k2 30402 34711 else k2 30825 35194
    let y0 : Int := ky * ((y : Int) - (if d.range = 0 then 64 else 0))
    let b : Int := (cb : Int) - 512
    let r : Int := (cr : Int) - 512
    let out (v : Int) : Nat := (clampInt 0 1023 ((v + 8192) / 16384)).toNat
    (out (y0 + rv * r), out (y0 - gu * b - gv * r), out (y0 + bu * b))
  (List.range d.sw).map fun x =>
    match d.format with
    | 0 => (at0 (3 * x) * 4, at0 (3 * x + 1) * 4, at0 (3 * x + 2) * 4)
    | 1 => rgbOf (leNat ((p0.drop (4 * x)).take 4))
    | 2 => ycc (at0 x * 4) (atc (x / 2 * 2) * 4) (atc (x / 2 * 2 + 1) * 4)
    | _ =>
      let s (l : List Byte) (i : Nat) : Nat := leNat ((l.drop (2 * i)).take 2) / 64
      ycc (s p0 x) (s chroma (x / 2 * 2)) (s chroma (x / 2 * 2 + 1))

/-- R255: the slip blocks of one band record, side by side; `none` for an error. -/
def decodeBand (pitch : Nat) : Nat → Nat → List Byte → Option (List (List Rgb))
  | 0, _, _ => some (List.replicate 8 [])
  | n + 1, used, bytes =>
    match unslipBlock bytes with
    | none => none
    | some (rows, len) =>
      if pitch < used + len then none
      else (decodeBand pitch n (used + len) (bytes.drop len)).map fun rest =>
        rows.zipWith (· ++ ·) rest

/-- A source line placed in the line buffer of layer L (R221). -/
def Cell.placeLine (c : Cell) (L n : Nat) (codes : List Rgb) : Cell :=
  { c with picture := { c.picture with layers := updateAt c.picture.layers L fun l =>
    { l with lines := { n := n, arrived := c.beam.ctime, codes := codes } :: l.lines } } }

/-- A host read for a layer that ended in an error (R221): its lines not counted yet are underruns. -/
def Cell.layerReadError (c : Cell) (L : Nat) (lines : List Nat) : Cell :=
  let b := 0xE9A0 + 0x20 * L
  let seen := ((c.picture.layers[L]?).map (·.missing)).getD []
  let miss := lines.filter fun n => !seen.contains n
  let io := ((c.io.count16 (b + 12) miss.length).setBit (b + 10) 0 true).setBit (b + 10) 2 true
  let c := { c with io := io, picture := { c.picture with
    layers := updateAt c.picture.layers L fun l => { l with missing := l.missing ++ miss } } }
  let c := miss.foldl (fun c _ => c.raise (srcVl0 + L)) c
  lineLog 0x0B L lines (c.emit (.notify 0x05 L c.beam.ctime))

end Sys2Proof.Machine
end

