-- ==== Sys2Proof/Machine/Pio.lean ====
section
/-! DEFINITION. The programmable I/O engines (R312 to R328). -/

namespace Sys2Proof.Machine

/-- The I/O address of register offset `o` of engine n (R328). -/
def eAddr (n o : Nat) : Nat := 0xE410 + 0x18 * n + o

def Cell.eReg (c : Cell) (n o : Nat) : Nat := (c.io.rd (eAddr n o)).toNat

def emptyEngine : Engine :=
  { pc := 0, a := 0#32, k0 := 0#32, k1 := 0#32, rs := 0#32, rn := 0, ts := 0#32, tn := 0, cyc := 0#32
    latch := none, values := 0#16, dirs := 0#16, acc := 0, tx := [], rx := [], triggers := 0#4 }

def Cell.engine (c : Cell) (n : Nat) : Engine := (c.pio.engines[n]?).getD emptyEngine

def Cell.setEngine (c : Cell) (n : Nat) (e : Engine) : Cell :=
  { c with pio := { c.pio with engines := updateAt c.pio.engines n fun _ => e } }

/-- The set-up of an engine as its registers hold it (R328). -/
structure PioSetup where
  base : Nat
  len : Nat
  autoPull : Bool
  autoPush : Bool
  outMsb : Bool
  inMsb : Bool
  txDepth : Nat
  rxDepth : Nat
  rxBits : Nat
  txBits : Nat
  outBase : Nat
  setBase : Nat
  outCount : Nat
  setCount : Nat
  inBase : Nat
  sideBase : Nat
  condPin : Nat
  idle : Bool
  sideCount : Nat
  sidePat : Nat

/-- A count field of 0 means 32 (R318, R328). -/
def count32 (n : Nat) : Nat := if n = 0 then 32 else n

def Cell.pioSetup (c : Cell) (n : Nat) : PioSetup :=
  let r := c.eReg n
  let sh := r 5
  let join := bitsOf sh 3 2
  { base := r 3 % 64, len := r 4 % 64
    autoPull := sh.testBit 7, autoPush := sh.testBit 6, outMsb := sh.testBit 5, inMsb := sh.testBit 4
    txDepth := if join = 1 then 8 else if join = 2 then 0 else 4
    rxDepth := if join = 2 then 8 else if join = 1 then 0 else 4
    rxBits := count32 (r 6 % 32), txBits := count32 (r 7 % 32)
    outBase := r 8 / 16, setBase := r 8 % 16, outCount := min 16 (r 9 % 32)
    setCount := min 6 (r 10 / 32), inBase := r 10 % 16, sideBase := r 11 / 16, condPin := r 11 % 16
    idle := (r 15).testBit 7, sideCount := min 4 (r 15 % 8), sidePat := c.io.rdN (0xE470 + 2 * n) 2 }

/-- The low n bits of a word. -/
def lowBits (n : Nat) (w : Word) : Word := BitVec.ofNat 32 (w.toNat % 2 ^ n)

/-- Bits `i < count` of `v` written to pins (base + i) mod 16. -/
def driveBits (pins : BitVec 16) (base count v : Nat) : BitVec 16 :=
  (List.range count).foldl (fun p i =>
    let bit : BitVec 16 := BitVec.ofNat 16 (2 ^ ((base + i) % 16))
    if v.testBit i then p ||| bit else p &&& ~~~ bit) pins

/-- A word whose bit i is pin (base + i) mod 16 (R319). -/
def pinWord (pins : BitVec 16) (base : Nat) : Word :=
  BitVec.ofNat 32 ((List.range 32).foldl (fun v i =>
    if pins.getLsbD ((base + i) % 16) then v + 2 ^ i else v) 0)

/-- The bits of a word in the reverse order. -/
def reverse32 (w : Word) : Word :=
  BitVec.ofNat 32 ((List.range 32).foldl (fun v i => if w.getLsbD i then v + 2 ^ (31 - i) else v) 0)

/-- What an execution of an instruction does (R315). -/
inductive PioNext where
  /-- Completed, with a jump target if a jump was taken. -/
  | done (e : Engine) (c : Cell) (target : Option Nat)
  /-- Stalled, with the engine as it stands. -/
  | stall (e : Engine) (c : Cell)
  /-- Refused by R325. -/
  | fault

/-- R320: PULL's load of an entry. -/
def Engine.load (e : Engine) (u : PioSetup) (w : Word) : Engine :=
  { e with ts := if u.outMsb then w <<< (32 - u.txBits) else w, tn := u.txBits }

/-- The word that a PUSH with ALIGN = 1 writes (R319). -/
def Engine.aligned (e : Engine) (u : PioSetup) : Word := if u.inMsb then e.rs else e.rs >>> (32 - e.rn)

/-- JMP (R319). -/
def pioJmp (c : Cell) (e : Engine) (u : PioSetup) (w : Nat) : PioNext :=
  let target := w % 64
  let k0 := e.k0 - 1
  let k1 := e.k1 - 1
  let pin := c.pins.delivered.getLsbD u.condPin
  let r : Engine × Bool :=
    match bitsOf w 8 6 with
    | 0 => (e, true)
    | 1 => ({ e with k0 := k0 }, k0 != 0#32)
    | 2 => ({ e with k1 := k1 }, k1 != 0#32)
    | 3 => (e, !pin)
    | 4 => (e, pin)
    | 5 => (e, e.tx.isEmpty)
    | 6 => (e, decide (u.rxDepth ≤ e.rx.length))
    | _ => ({ e with a := e.a >>> 1 }, e.a.getLsbD 0)
  .done r.1 c (if r.2 then some target else none)

/-- An I/O clock with requests to the flags; `same` when an earlier request falls on it too (R324). -/
def Cell.flagClock (c : Cell) (same : Bool) : Cell :=
  if same then c else { c with pio := { c.pio with before := c.pio.flags, sets := 0#8 } }

/-- A request that sets or clears a flag (R324): with any set on one I/O clock, the flag is 1 after it. -/
def Cell.setFlag (c : Cell) (f : Nat) (b : Bool) : Cell :=
  let bit : Byte := BitVec.ofNat 8 (2 ^ f)
  let p := c.pio
  if b then { c with pio := { p with flags := p.flags ||| bit, sets := p.sets ||| bit } }
  else { c with pio := { p with flags := p.flags &&& ~~~ (bit &&& ~~~ p.sets) } }

/-- WAIT (R319). A flag is tested as the I/O clock found it (R324), and a trigger presented at the first cycle of
this WAIT or after it counts. -/
def pioWait (c : Cell) (e : Engine) (w : Nat) : PioNext :=
  let level := w.testBit 8
  let clear := w.testBit 5
  let idx := w % 32
  match bitsOf w 7 6 with
  | 0 =>
    if clear ∨ 16 ≤ idx then .fault
    else if c.pins.delivered.getLsbD idx = level then .done e c none else .stall e c
  | 1 =>
    if 8 ≤ idx then .fault
    else if c.pio.before.getLsbD idx = level then .done e (if clear then c.setFlag idx false else c) none
    else .stall e c
  | 2 =>
    if clear ∨ level ∨ 4 ≤ idx then .fault
    else if e.triggers.getLsbD idx then .done e c none
    else .stall e c
  | _ => .fault

/-- IN (R319, R320). -/
def pioIn (c : Cell) (e : Engine) (u : PioSetup) (w : Nat) : PioNext :=
  let n := count32 (w % 32)
  let src : Option Word :=
    match bitsOf w 8 6 with
    | 0 => some (pinWord c.pins.delivered u.inBase)
    | 1 => some e.a
    | 2 => some e.k0
    | 3 => some e.k1
    | 4 => some 0#32
    | 5 => some 0xFFFFFFFF#32
    | 6 => some e.cyc
    | _ => none
  match src, w.testBit 5 with
  | some s, false =>
    let bits := lowBits n s
    let e' := { e with
      rs := if u.inMsb then (e.rs <<< n) ||| bits else (e.rs >>> n) ||| (bits <<< (32 - n))
      rn := min 32 (e.rn + n) }
    if u.autoPush ∧ u.rxBits ≤ e'.rn then
      if u.rxDepth ≤ e.rx.length then .stall e c
      else .done { e' with rx := e.rx ++ [e'.aligned u], rs := 0#32, rn := 0 } c none
    else .done e' c none
  | _, _ => .fault

/-- OUT (R319, R320). -/
def pioOut (c : Cell) (e : Engine) (u : PioSetup) (w : Nat) : PioNext :=
  let n := count32 (w % 32)
  let dst := bitsOf w 8 6
  if w.testBit 5 ∨ dst = 7 then .fault
  else
    let loaded : Option Engine :=
      if u.autoPull ∧ e.tn = 0 then
        match e.tx with
        | x :: t => some ({ e with tx := t }.load u x)
        | [] => none
      else some e
    match loaded with
    | none => .stall e c
    | some e =>
      let taken := if u.outMsb then e.ts >>> (32 - n) else lowBits n e.ts
      let e := { e with
        ts := if u.outMsb then e.ts <<< n else e.ts >>> n
        tn := e.tn - n }
      match dst with
      | 0 => .done { e with values := driveBits e.values u.outBase u.outCount taken.toNat } c none
      | 1 => .done { e with dirs := driveBits e.dirs u.outBase u.outCount taken.toNat } c none
      | 2 => .done { e with a := taken } c none
      | 3 => .done { e with k0 := taken } c none
      | 4 => .done { e with k1 := taken } c none
      | 5 => .done e c none
      | _ => .done e c (some (taken.toNat % 64))

/-- A sticky bit of ESTAT (R328). -/
def Cell.estat (c : Cell) (n bit : Nat) : Cell := { c with io := c.io.setBit (eAddr n 0x0E) bit true }

/-- PUSH (R319). -/
def pioPush (c : Cell) (e : Engine) (u : PioSetup) (n w : Nat) : PioNext :=
  let full := decide (u.rxDepth ≤ e.rx.length)
  let v := if w.testBit 6 then e.aligned u else e.rs
  let clear (e : Engine) : Engine := { e with rs := 0#32, rn := 0 }
  if w % 64 ≠ 0 then .fault
  else match bitsOf w 8 7 with
    | 0 => if full then .stall e c else .done (clear { e with rx := e.rx ++ [v] }) c none
    | 1 =>
      if e.rn < u.rxBits then .done e c none
      else if full then .stall e c else .done (clear { e with rx := e.rx ++ [v] }) c none
    | 2 =>
      if full then
        let rx := if e.rx = [] then [] else e.rx.dropLast ++ [v]
        .done (clear { e with rx := rx }) (c.estat n 2) none
      else .done (clear { e with rx := e.rx ++ [v] }) c none
    | _ => .fault

/-- PULL (R319). -/
def pioPull (c : Cell) (e : Engine) (u : PioSetup) (n w : Nat) : PioNext :=
  let take : Option Engine :=
    match e.tx with
    | x :: t => some ({ e with tx := t }.load u x)
    | [] => none
  if w % 128 ≠ 0 then .fault
  else match bitsOf w 8 7 with
    | 0 => match take with
      | some e => .done e c none
      | none => .stall e c
    | 1 =>
      if e.tn ≠ 0 then .done e c none
      else match take with
        | some e => .done e c none
        | none => .stall e c
    | 2 => match take with
      | some e => .done e c none
      | none =>
        .done { e with ts := if u.idle then 0xFFFFFFFF#32 else 0#32, tn := u.txBits } (c.estat n 3) none
    | _ => .fault

/-- MOV (R319). -/
def pioMov (c : Cell) (e : Engine) (u : PioSetup) (w : Nat) : PioNext :=
  let src : Word :=
    match bitsOf w 5 3 with
    | 0 => e.a
    | 1 => e.k0
    | 2 => e.k1
    | 3 => e.ts
    | 4 => e.rs
    | 5 => pinWord c.pins.delivered u.inBase
    | 6 => BitVec.ofNat 32 (e.tx.length + 16 * e.rx.length)
    | _ => e.cyc
  let v : Word :=
    match bitsOf w 2 1 with
    | 0 => src
    | 1 => ~~~ src
    | 2 => reverse32 src
    | _ => src + 1
  if w.testBit 0 then .fault
  else match bitsOf w 8 6 with
    | 0 => .done { e with a := v } c none
    | 1 => .done { e with k0 := v } c none
    | 2 => .done { e with k1 := v } c none
    | 3 => .done { e with ts := v, tn := u.txBits } c none
    | 4 => .done { e with rs := v, rn := 0 } c none
    | 5 => .done { e with values := driveBits e.values u.outBase u.outCount v.toNat } c none
    | 6 => .done { e with dirs := driveBits e.dirs u.outBase u.outCount v.toNat } c none
    | _ => .done e c (some (v.toNat % 64))

/-- SET (R319). -/
def pioSet (c : Cell) (e : Engine) (u : PioSetup) (w : Nat) : PioNext :=
  let d := w % 64
  match bitsOf w 8 6 with
  | 0 => .done { e with values := driveBits e.values u.setBase u.setCount d } c none
  | 1 => .done { e with dirs := driveBits e.dirs u.setBase u.setCount d } c none
  | 2 => .done { e with k0 := BitVec.ofNat 32 d } c none
  | 3 => .done { e with k1 := BitVec.ofNat 32 d } c none
  | 4 => .done { e with a := BitVec.ofNat 32 d } c none
  | _ => .fault

/-- IRQ (R319); `first` in the first cycle of this instruction. The flag is tested as the I/O clock found it (R324). -/
def pioIrq (c : Cell) (e : Engine) (w : Nat) (first : Bool) : PioNext :=
  let f := w % 8
  let now := c.pio.before.getLsbD f
  if bitsOf w 6 3 ≠ 0 then .fault
  else match bitsOf w 8 7 with
    | 0 => .done e (c.setFlag f true) none
    | 1 => .done e (c.setFlag f false) none
    | 2 => if first then .stall e (c.setFlag f true) else if now then .stall e c else .done e c none
    | _ => .done e (c.setFlag f (!now)) none

/-- EXCH (R319). -/
def pioExch (c : Cell) (e : Engine) (w : Nat) : PioNext :=
  if w % 64 ≠ 0 then .fault
  else match bitsOf w 8 6 with
    | 0 => .done { e with a := e.k0, k0 := e.a } c none
    | 1 => .done { e with a := e.k1, k1 := e.a } c none
    | 2 => .done { e with k0 := e.k1, k1 := e.k0 } c none
    | 3 => .done { e with a := e.rs, rs := e.a } c none
    | 4 => .done { e with a := e.ts, ts := e.a } c none
    | 5 => .done { e with rs := e.ts, ts := e.rs } c none
    | _ => .fault

/-- The side pattern of a word (R318, R321). -/
def sideDrive (u : PioSetup) (w : Nat) (values : BitVec 16) : BitVec 16 :=
  if w.testBit 11 then
    driveBits values u.sideBase u.sideCount (u.sidePat / 16 ^ bitsOf w 10 9)
  else values

/-- The accumulator after the I/O clocks up to an engine's next cycle (R314). -/
def Cell.dividerAfter (c : Cell) (n : Nat) (e : Engine) : Nat :=
  let int := c.eReg n 1 + 256 * c.eReg n 2
  let dv := if int = 0 then 65536 * 256 else int * 256 + c.eReg n 0
  let k := max 1 (ceilDiv (dv - e.acc) 256)
  e.acc + 256 * k - dv

/-- R325: the engine is refused; its EN becomes 0 and PIO_ERR is raised. -/
def Cell.pioFault (c : Cell) (n : Nat) (e : Engine) : Cell :=
  { (c.setEngine n e) with
    io := (c.io.setBit 0xE400 n false).setBit 0xE402 n true }.raise srcPioErr

/-- One engine cycle of engine n for a word of operation `op` (R315); a word with a reserved
operation is refused in whichever row's cycle it is fetched (R325). -/
def Cell.pioCycle (c : Cell) (n op : Nat)
    (run : Cell → Engine → PioSetup → Nat → Bool → PioNext) : Cell :=
  if 4 ≤ n ∨ ¬ c.io.bit 0xE400 n ∨ c.nap.napping then c
  else
    let u := c.pioSetup n
    let e := c.engine n
    let e := { e with pc := if u.len ≤ e.pc then 0 else e.pc }
    let first := e.latch.isNone
    let word : Half := e.latch.getD (BitVec.ofNat 16 (c.io.rdN (0xE480 + 2 * (u.base + e.pc)) 2))
    let w := word.toNat
    let opc := w / 4096
    if opc ≠ op ∧ opc < 10 then c
    else
      let e0 := { e with acc := c.dividerAfter n e }
      if 10 ≤ opc ∨ (¬ w.testBit 11 ∧ bitsOf w 10 9 ≠ 0) then c.pioFault n e0
      else
        let finish (e : Engine) (c : Cell) : Cell :=
          c.setEngine n { e with cyc := e.cyc + 1, values := sideDrive u w e.values }
        match run c e0 u (w % 512) first with
        | .fault => c.pioFault n e0
        | .stall e c => finish { e with latch := some word } c
        | .done e c' target =>
          match target with
          | some t =>
            if u.len ≤ t then c.pioFault n e0
            else finish { e with latch := none, triggers := 0#4, pc := t } c'
          | none => finish { e with latch := none, triggers := 0#4, pc := (e.pc + 1) % (max 1 u.len) } c'

/-- A write of a program word (R317). -/
def Cell.programWrite (c : Cell) (a : Nat) (w : Half) : Cell :=
  if 40 ≤ a ∨ c.io.bit 0xE401 7 then c
  else
    let torn := (List.range 4).filter fun n =>
      let u := c.pioSetup n
      c.io.bit 0xE400 n && decide (u.base ≤ a ∧ a < u.base + u.len)
    let io := c.io.wrN (0xE480 + 2 * a) 2 w.toNat
    let io := torn.foldl (fun io n => io.setBit 0xE402 (4 + n) true) io
    if torn = [] then { c with io := io } else { c with io := io }.raise srcPioErr

/-- The restart of an engine (R313, R326). -/
def Engine.restart (e : Engine) : Engine :=
  { e with pc := 0, rs := 0#32, rn := 0, ts := 0#32, tn := 0, latch := none, acc := 0 }

/-- A write of PIO_CTL (R326). -/
def Cell.pioCtl (c : Cell) (v : Byte) : Cell :=
  let engines := c.pio.engines.zipIdx.map fun p => if v.getLsbD (4 + p.2) then p.1.restart else p.1
  { c with io := c.io.wr 0xE400 (v &&& 0x0F#8), pio := { c.pio with engines := engines } }

/-- CLKSYNC (R314). -/
def Cell.clkSync (c : Cell) (mask : Byte) : Cell :=
  let engines := c.pio.engines.zipIdx.map fun p => if mask.getLsbD p.2 then { p.1 with acc := 0 } else p.1
  { c with pio := { c.pio with engines := engines } }

/-- PIO_IRQ_FORCE (R324). -/
def Cell.flagForce (c : Cell) (v : Byte) : Cell :=
  let p := c.pio
  { c with pio := { p with flags := p.flags ||| v, before := p.flags, sets := v } }

/-- A write of PIO_IRQ (R324, R328): its 1 bits clear flags. -/
def Cell.flagClear (c : Cell) (v : Byte) : Cell :=
  let p := c.pio
  { c with pio := { p with flags := p.flags &&& ~~~ v, before := p.flags, sets := 0#8 } }

/-- A write of TXF byte 3 (R323). -/
def Cell.txAppend (c : Cell) (n : Nat) (w : Word) : Cell :=
  let e := c.engine n
  if (c.pioSetup n).txDepth ≤ e.tx.length then c.estat n 0
  else c.setEngine n { e with tx := e.tx ++ [w] }

/-- Pin-in owns engine n's receive queue (R305). -/
def Cell.pinInOwns (c : Cell) (n : Nat) : Bool :=
  c.eff.bit 0xEB88 7 && (c.eff.rd 0xEB88).toNat % 4 == n

/-- A read of RXF byte 0 (R323). -/
def Cell.rxRemove (c : Cell) (n : Nat) : Word × Cell :=
  if c.pinInOwns n then (0#32, c)
  else
    let e := c.engine n
    match e.rx with
    | [] => (0#32, c.estat n 1)
    | w :: t => (w, c.setEngine n { e with rx := t })

/-- A write of SHIFTCFG (R323, R326). -/
def Cell.shiftCfg (c : Cell) (n : Nat) (v : Byte) : Cell :=
  if bitsOf v.toNat 3 2 = 3 then c
  else
    let old := c.eReg n 5
    let c := { c with io := c.io.wr (eAddr n 5) (v &&& 0xFC#8) }
    if bitsOf old 3 2 = bitsOf v.toNat 3 2 then c
    else c.setEngine n { c.engine n with tx := [], rx := [] }

/-- A write of PROG (R326). -/
def Cell.progWrite (c : Cell) (n : Nat) (w : Nat) : Cell :=
  let len := bitsOf w 13 8
  if len = 0 ∨ 40 < w % 64 + len then c
  else { c with io := c.io.wrN (eAddr n 3) 2 (w &&& 0x3F3F) }

/-- The bytes of the PIO registers that are read from the engines. -/
def Cell.pioByte (c : Cell) (a : Nat) : Option Byte :=
  if a = 0xE403 then some c.pio.flags
  else if a < 0xE410 ∨ 0xE470 ≤ a then none
  else
    let n := (a - 0xE410) / 0x18
    let e := c.engine n
    match (a - 0xE410) % 0x18 with
    | 0x0C => some (BitVec.ofNat 8 e.pc)
    | 0x0D => some (BitVec.ofNat 8 (e.tx.length + 16 * e.rx.length))
    | 0x0E => some ((c.io.rd a &&& 0x0F#8) ||| (if e.latch.isSome then 0x80#8 else 0#8))
    | _ => none

end Sys2Proof.Machine
end

