-- ==== Sys2Proof/Machine/Timers.lean ====
section
/-! DEFINITION. The four timers (R350 to R357) and the nap (R365 to R368). -/

namespace Sys2Proof.Machine

def Cell.timer (c : Cell) (n : Nat) : Timer :=
  c.timers.getD n { count := 0, acc := 0, cur := [], freshA := false, freshB := false
                    pendA := none, pendB := none, resync := false, events := 0, from_ := 0, capA := 0, capB := 0 }

def Cell.setTimer (c : Cell) (n : Nat) (t : Timer) : Cell :=
  { c with timers := updateAt c.timers n fun _ => t }

/-- The reload and Q in effect (R350, R352). -/
def Timer.reload (t : Timer) : Nat := t.cur.rdN 0x04 4
def Timer.q (t : Timer) : Nat :=
  let i := (t.cur.rd 0x0F).toNat
  (if i = 0 then 256 else i) * 256 + (t.cur.rd 0x0E).toNat

/-- R351: whether the source in effect gives timer n any events. -/
def Timer.counts (t : Timer) (n : Nat) : Bool :=
  match t.src with
  | 5 => bitsOf (t.cur.rd 0x0C).toNat 4 3 != 0
  | 6 => bitsOf (t.cur.rd 0x0D).toNat 5 4 != n
  | 7 => false
  | _ => true

/-- R352: the source events of the next counting tick, and the accumulator after them. -/
def Timer.needs (t : Timer) : Nat := max 1 (ceilDiv (t.q - t.acc) 256)
def Timer.accAfter (t : Timer) : Nat := t.acc + 256 * t.needs - t.q

/-- `dots` dot ticks of a nap: channel time, the pace count and the chip ticks go on (R366). -/
def Cell.napPass (c : Cell) (dots : Nat) : Cell :=
  if dots = 0 then c
  else
    let c := c.chipSkip dots
    ({ c with beam := { c.beam with ctime := c.beam.ctime + dots } } : Cell).paceTicks dots

/-- R351, R352: the cell at the next counting tick of timer n, when its source's events reach it. Dot ticks are those
of channel time, and the events of codes 3 to 6 are counted as they occur. The cycles of the core clock and the
reference ticks are the sender's to count (assumption 120). -/
def Cell.atCount (c : Cell) (n : Nat) : Option Cell :=
  let t := c.timer n
  if 4 ≤ n ∨ ¬ t.counts n then none
  else match t.src with
    | 0 => some c
    | 2 => some c
    | 1 =>
      let due := t.from_ + t.needs
      if due ≤ c.beam.ctime then some c
      else if c.nap.napping then some (c.napPass (due - c.beam.ctime))
      else c.runToTime due
    | _ => if t.needs ≤ t.events then some c else none

/-- The events of the counting tick are counted. -/
def Timer.spend (t : Timer) : Timer := { t with events := t.events - t.needs, from_ := t.from_ + t.needs }

/-- The events of a newly selected source, or of a cleared accumulator, count from the channel time `now`. -/
def Timer.afresh (t : Timer) (now : Nat) : Timer := { t with events := 0, from_ := now }

/-- The source selected by the timer's registers in effect (R351). -/
def Timer.selection (t : Timer) : Byte × Byte := (t.cur.rd 0x0C, t.cur.rd 0x0D)

/-- STAT bit b of timer n, with the triggers that event `ev` (1 wrap, 2 match A, 3 match B) drives
(R357). In a nap a conversion trigger is ignored (R366). -/
def Cell.timerEvent (c : Cell) (n bit ev : Nat) : Cell :=
  let io := c.io.setBit (tAddr n 0x1D) bit true
  let trig := (c.io.rd (tAddr n 0x1B)).toNat
  let hit (hi lo : Nat) : Bool := ev != 0 && bitsOf trig hi lo == ev
  let c := { c with io := io }
  let c := if hit 7 6 then c.timerTrigger n else c
  let c := if hit 5 4 ∧ bitsOf (c.io.rd 0xEB58).toNat 3 2 = n ∧ ¬ c.nap.napping then
    { c with audio := { c.audio with pcmTrigger := c.audio.pcmTrigger ||| (1 <<< n) } } else c
  if hit 3 2 then
    let mask := (c.io.rd (tAddr n 0x1C)).toNat
    { c with timers := (c.timers.zipIdx).map fun (t, i) =>
        if i ≠ n ∧ mask.testBit i then { t with resync := true } else t }
  else c

/-- R356: the output level of timer n. -/
def Cell.timerLevel (c : Cell) (n : Nat) (f : Bool → Bool) : Cell :=
  { c with io := c.io.setBit (tAddr n 0x1A) 2 (f (c.io.bit (tAddr n 0x1A) 2)) }

/-- R350, R352: a counting tick that is not a wrap. -/
def Cell.timerTick (c : Cell) (n : Nat) : Cell :=
  if (c.timer n).count = (c.timer n).reload then c
  else match c.atCount n with
    | none => c
    | some c =>
      let t := c.timer n
      c.setTimer n { t.spend with acc := t.accAfter, count := (t.count + 1) % 0x100000000
                                  freshA := true, freshB := true }

/-- The held values of timer n (R353). -/
def Cell.timerHeld (c : Cell) (n : Nat) : Bytes :=
  copyBytesTo c.io (tAddr n 0x04) 0x04 4 (copyBytesTo c.io (tAddr n 0x0C) 0x0C 4 [])

/-- R350, R353: the wrap: C becomes 0, the held values govern and the accumulator is cleared. -/
def Cell.timerWrap (c : Cell) (n : Nat) : Cell :=
  if (c.timer n).count ≠ (c.timer n).reload then c
  else match c.atCount n with
    | none => c
    | some c =>
      let t := c.timer n
      let t' := { t.spend with count := 0, acc := 0, cur := c.timerHeld n, freshA := true, freshB := true }
      let c := c.setTimer n (if t'.selection = t.selection then t' else t'.afresh c.beam.ctime)
      let c := if (c.io.rd (tAddr n 0x1A)).toNat % 4 = 3 then c.timerLevel n (fun _ => true) else c
      (c.timerEvent n 0 1).timerSource (.wrap n)

/-- R354, R356: the count has arrived at the compare value of unit A or B. -/
def Cell.timerMatch (c : Cell) (n : Nat) (unitB : Bool) : Cell :=
  let t := c.timer n
  let cc := (c.io.rd (tAddr n 0x18)).toNat
  let captures := if unitB then cc.testBit 3 else cc.testBit 7
  let fresh := if unitB then t.freshB else t.freshA
  let v := c.io.rdN (tAddr n (if unitB then 0x14 else 0x10)) 4
  if captures ∨ ¬ fresh ∨ v ≠ t.count ∨ 4 ≤ n then c
  else
    let c := c.setTimer n (if unitB then { t with freshB := false } else { t with freshA := false })
    let mode := (c.io.rd (tAddr n 0x1A)).toNat % 4
    let c :=
      if unitB then (if mode = 2 then c.timerLevel n (fun _ => false) else c)
      else match mode with
        | 1 => c.timerLevel n (!·)
        | 2 =>
          -- both matches on one tick leave the level 0 (R356)
          let both := c.io.rdN (tAddr n 0x14) 4 = t.count ∧ ¬ cc.testBit 3
          c.timerLevel n (fun _ => !decide both)
        | 3 => c.timerLevel n (fun _ => false)
        | _ => c
    c.timerEvent n (if unitB then 2 else 1) (if unitB then 3 else 2)

/-- R355: a capture event of unit A or B that has occurred; `duringRead` when its I/O clock begins within the core
cycle that completes a read of the register's byte 0. -/
def Cell.timerCapture (c : Cell) (n : Nat) (unitB duringRead : Bool) : Cell :=
  let t := c.timer n
  let cc := (c.io.rd (tAddr n 0x18)).toNat
  let captures := if unitB then cc.testBit 3 else cc.testBit 7
  if ¬ captures ∨ 4 ≤ n ∨ (if unitB then t.capB else t.capA) = 0 then c
  else
    let t := if unitB then { t with capB := t.capB - 1 } else { t with capA := t.capA - 1 }
    let c := c.setTimer n t
    let pend := if unitB then t.pendB else t.pendA
    let pendBit := if unitB then 1 else 0
    if pend.isSome then { c with io := c.io.setBit (tAddr n 0x1E) (pendBit + 2) true }
    else if duringRead then
      let t := if unitB then { t with pendB := some t.count } else { t with pendA := some t.count }
      let c := c.setTimer n t
      { c with io := c.io.setBit (tAddr n 0x1E) pendBit true }.timerEvent n (if unitB then 4 else 3) 0
    else
      { c with io := c.io.wrN (tAddr n (if unitB then 0x14 else 0x10)) 4 t.count }.timerEvent n
        (if unitB then 4 else 3) 0

/-- R355: the pending capture values are written at the first I/O clock after the read's cycle. -/
def Cell.timerPending (c : Cell) (n : Nat) : Cell :=
  let t := c.timer n
  let put (io : Bytes) (o : Nat) (v : Option Nat) : Bytes :=
    match v with
    | none => io
    | some v => io.wrN (tAddr n o) 4 v
  { c with io := put (put c.io 0x10 t.pendA) 0x14 t.pendB }.setTimer n { t with pendA := none, pendB := none }

/-- R353: a resync by another timer's trigger. -/
def Cell.timerResync (c : Cell) (n : Nat) : Cell :=
  let t := c.timer n
  if ¬ t.resync ∨ 4 ≤ n then c
  else c.setTimer n ({ t with count := 0, acc := 0, cur := c.timerHeld n, resync := false
                              freshA := false, freshB := false }.afresh c.beam.ctime)

/-- TMRn's request (R357). -/
def Cell.timerRequest (c : Cell) (n : Nat) : Bool :=
  c.io.rd (tAddr n 0x1D) &&& c.io.rd (tAddr n 0x1F) &&& 0x1F#8 != 0#8

/-- R367: the source with the lowest number, or the pin, that wakes the channel: KIND and INDEX. -/
def Cell.napCause (c : Cell) : Option (Nat × Nat) :=
  match (List.range 4).find? (c.nap.timers.getLsbD ·) with
  | some s => some (2, s)
  | none =>
    if c.nap.evq ∧ c.srcEnabled srcEvq ∧ c.srcWakes srcEvq then some (2, srcEvq)
    else if c.nap.line ∧ c.srcEnabled srcLnRx ∧ c.srcWakes srcLnRx then some (2, srcLnRx)
    else ((List.range 16).find? (c.nap.pins.getLsbD ·)).map fun p => (1, p)

/-- R365: at a frame boundary with the core idle in WAIT, the nap begins or is refused. -/
def Cell.napEntry (c : Cell) : Cell :=
  if ¬ (c.io.bit 0xE1E0 7 ∧ c.core.waiting ∧ c.beam.boundary ∧ ¬ c.beam.entered) then c
  else
    let refuse (code : Nat) : Cell :=
      let io := ((c.io.wr 0xE1E0 0#8).setBit 0xE1E1 1 true).wr 0xE1E2 (BitVec.ofNat 8 (0xC0 + code))
      { c with io := io }.raise srcNap
    if c.blitter.busy then refuse 1
    else if c.dma.any (·.busy) then refuse 2
    else
      { c with
        io := c.io.wr 0xE1E0 0#8
        nap := { napping := true, pins := 0#16, timers := 0#4, evq := false, line := false } }.emit
        (.nap true)

/-- R330, R344, R367: an armed edge of an owned pin during the nap. -/
def Cell.pinWake (c : Cell) (cp : Nat) (rising : Bool) : Cell :=
  if c.nap.napping ∧ cp < 16 ∧ c.pins.owned.getLsbD cp ∧ (c.io.rdN 0xE31E 2).testBit cp ∧
      ((c.io.rdN 0xE320 2).testBit cp = !rising) then
    { c with nap := { c.nap with pins := c.nap.pins ||| BitVec.ofNat 16 (2 ^ cp) } }
  else c

/-- R366: a host arrival for the event FIFO, or for a line. -/
def Cell.hostArrival (c : Cell) (line : Bool) : Cell :=
  if ¬ c.nap.napping then c
  else if line then { c with nap := { c.nap with line := true } }
  else { c with nap := { c.nap with evq := true } }

/-- The wake latches that have caught an edge, as the records of the wake at channel time `w` (R340, R344, R415). -/
def Cell.wakeEdges (c : Cell) (w : Nat) : List Emit :=
  ((List.range 16).filter (c.nap.pins.getLsbD ·)).map fun n =>
    .logAt w 0x07 (leBytes 1 n ++ leBytes 7 (if (c.io.rdN 0xE320 2).testBit n then 1 else 2))

/-- R368: the wake, `ticks` dot ticks after the last event of the nap: W is the second tick after
the cause, and tick W + 1 is (0, 0) of frame F. The filters take the present levels (R344). -/
def Cell.wake (c : Cell) (ticks : Nat) (levels : BitVec 16) : Cell :=
  match c.nap.napping, c.napCause with
  | true, some (kind, index) =>
    let w := c.beam.ctime + ticks + 2
    let io := (c.io.setBit 0xE1E1 0 true).wr 0xE1E2 (BitVec.ofNat 8 (kind * 64 + index))
    let edges := c.wakeEdges w
    let c := ({ c with io := io } : Cell).napPass (ticks + 3)
    let c := { c with
      tickMem := c.mem
      outq := c.outq ++ edges
      beam := { c.beam with boundary := false, entered := false, done := [] }
      seq := { c.seq with ready := w + 1 }
      nap := { napping := false, pins := 0#16, timers := 0#4, evq := false, line := false } }
    let c := c.restartPace.raise srcNap
    let c := if kind = 1 ∨ srcEvq ≤ index then c.emit (.logAt w 0x08 (leBytes 8 (kind * 64 + index))) else c
    ((c.loadFilters 0#16 levels).lineTick true).emit (.nap false)
  | _, _ => c

end Sys2Proof.Machine
end

