-- ==== Sys2Proof/Machine/Pins.lean ====
section
/-! DEFINITION. The pin block: R330 to R347. -/

namespace Sys2Proof.Machine

/-- PIN_CFG_A and PIN_CFG_B of pin n (R347). -/
def Cell.pinFunc (c : Cell) (n : Nat) : Nat := (c.io.rd (0xE340 + 2 * n)).toNat / 32
def Cell.pinFilt (c : Cell) (n : Nat) : Nat := (c.io.rd (0xE341 + 2 * n)).toNat / 16
def Cell.pinMode (c : Cell) (n : Nat) : Nat := (c.io.rd (0xE341 + 2 * n)).toNat % 8

/-- R307: the pin of a PWM output is high for `high` I/O clocks from the start of its period, then low. The clocks are
counted by the dot ticks since the start (assumption 118). -/
def Cell.pwmHigh (c : Cell) (p : Pwm) : Bool :=
  decide ((c.beam.ctime - p.start) * (4 * c.ioFreq) / max 1 (c.eff.rdN 0xE730 4) < p.high)

/-- The value and the direction that a pin's function gives it (R333). -/
def Cell.pinSource (c : Cell) (n : Nat) : Bool × Bool :=
  match c.pinFunc n with
  | 0 => ((c.io.rdN 0xE300 2).testBit n, (c.io.rdN 0xE308 2).testBit n)
  | 5 =>
    let t := (List.range 4).find? fun t =>
      let cfg := (c.io.rd (tAddr t 0x1A)).toNat
      cfg.testBit 3 && cfg / 16 == n
    (t.elim false fun t => (c.io.rd (tAddr t 0x1A)).getLsbD 2, true)
  | 6 =>
    let unit (k : Nat) : Bool :=
      let cfg := (c.eff.rd (0xEB92 + k)).toNat
      cfg.testBit 7 && cfg % 16 == n
    let high (k : Nat) : Bool := (c.audio.pwm[k]?).elim false c.pwmHigh
    (if unit 0 then high 0 else if unit 1 then high 1 else false, true)
  | 7 => (c.core.lockup || (c.io.rdN 0xE30C 2).testBit n, true)
  | f =>
    let e := c.engine (f - 1)
    (e.values.getLsbD n, e.dirs.getLsbD n)

/-- What a pad shows: its drive, high-impedance when `none`, and its pull (R333). -/
def Cell.padOf (c : Cell) (n : Nat) : Pad :=
  let cfg := (c.io.rd (0xE340 + 2 * n)).toNat
  let s := c.pinSource n
  if ¬ c.pins.owned.getLsbD n then { drive := none, pull := 0 }
  else { drive := if ¬ s.2 ∨ (cfg.testBit 2 ∧ s.1) then none else some s.1, pull := bitsOf cfg 4 3 }

/-- The pads of the sixteen pins. -/
def Cell.pads (c : Cell) : List Pad := (List.range 16).map c.padOf

/-- The locked bits of one byte of a 16-bit pin register (R346). -/
def Cell.lockedByte (c : Cell) (hi : Bool) : Byte :=
  if hi then c.pins.locked.extractLsb' 8 8 else c.pins.locked.setWidth 8

/-- A write of a byte of GPIO_DIR, WAKE_EN or WAKE_POL: locked bits stay (R346). -/
def Cell.lockedWrite (c : Cell) (a : Nat) (v : Byte) : Cell :=
  let l := c.lockedByte (a % 2 = 1)
  { c with io := c.io.wr a ((c.io.rd a &&& l) ||| (v &&& ~~~ l)) }

/-- Any write to the pin block but a completing key abandons the PINLOCK sequence (R346). -/
def Cell.dropKey (c : Cell) : Cell := { c with pins := { c.pins with lockKey := false } }

/-- A write to PINLOCK (R346). -/
def Cell.pinLock (c : Cell) (v : Byte) : Cell :=
  let p := c.pins
  if p.lockKey ∧ v = 0xA5#8 then
    { c with pins := { p with lockKey := false
                              locked := p.locked ||| BitVec.ofNat 16 (c.io.rdN 0xE322 2) } }
  else { c with pins := { p with lockKey := !p.lockKey && v == 0x5A#8 } }

/-- A write of PIN_CFG_A: the pad changes to its new function, OD, pull or drive (R336). A pin locked
by R346 ignores it; the card's lockup output keeps FUNC 7 (R334). -/
def Cell.functionChange (c : Cell) (n : Nat) (v : Byte) : Cell :=
  let a := 0xE340 + 2 * n
  if 16 ≤ n ∨ c.pins.locked.getLsbD n then c
  else if c.pins.lockupPin = some n then { c with io := c.io.wr a ((c.io.rd a &&& 0xE0#8) ||| (v &&& 0x1F#8)) }
  else { c with io := c.io.wr a v }

/-- A write of PIN_CFG_B: a reserved IRQ_MODE is ignored as a whole, and a level mode arms the pin
(R341). -/
def Cell.pinCfgB (c : Cell) (n : Nat) (v : Byte) : Cell :=
  if 16 ≤ n ∨ c.pins.locked.getLsbD n ∨ 6 ≤ v.toNat % 8 then c
  else
    let bit : BitVec 16 := BitVec.ofNat 16 (2 ^ n)
    let mode := v.toNat % 8
    let p := c.pins
    { c with io := c.io.wr (0xE341 + 2 * n) (v &&& 0xF7#8)
             pins := if mode = 4 ∨ mode = 5 then { p with armed := p.armed ||| bit } else p }

/-- A write of 1 bits to a byte of IRQ_PEND clears them and arms their pins (R341). -/
def Cell.pendClear (c : Cell) (a : Nat) (v : Byte) : Cell :=
  let cleared := c.io.rd a &&& v
  let w : BitVec 16 := cleared.setWidth 16 <<< (if a % 2 = 1 then 8 else 0)
  { c with io := c.io.clr a v, pins := { c.pins with armed := c.pins.armed ||| w } }

/-- GPIO_SET, GPIO_CLR and GPIO_TGL: one byte of GPIO_OUT (R337). -/
inductive GpioOp where
  | set | clr | tgl
deriving DecidableEq, Repr

def Cell.gpio (c : Cell) (op : GpioOp) (hi : Bool) (v : Byte) : Cell :=
  let a := 0xE300 + hi.toNat
  let old := c.io.rd a
  let new := match op with
    | .set => old ||| v
    | .clr => old &&& ~~~ v
    | .tgl => old ^^^ v
  { c with io := c.io.wr a new }

/-- A change of the delivered level at sample tick `tick` begins the comparison with the tick before
it (R343). -/
def Pins.atTick (p : Pins) (tick : Nat) : Pins :=
  if p.tick < tick then { p with tick := tick, before := p.delivered, fresh := p.fresh - 1 } else p

/-- R342: one more delivered change of pin n in the storm window `window`. The guard acts once in a window
(assumption 119). -/
def Cell.stormCount (c : Cell) (n window : Nat) : Cell :=
  let p := c.pins
  let same := window = p.window
  let storms := if same then p.storms else List.replicate 16 0
  let stormed := if same then p.stormed else 0#16
  let k := storms.getD n 0 + 1
  let max := (c.io.rd 0xE315).toNat
  let acts := max ≠ 0 ∧ max < k ∧ ¬ stormed.getLsbD n
  let c := { c with pins := { p with
    window := window, storms := updateAt storms n fun _ => k
    stormed := if acts then stormed ||| BitVec.ofNat 16 (2 ^ n) else stormed } }
  if acts then { c with io := c.io.setBit (0xE312 + n / 8) (n % 8) true }.raise srcPinStorm else c

/-- IRQ_PEND bit n is set (R341). -/
def Cell.pinPend (c : Cell) (n : Nat) : Cell := { c with io := c.io.setBit (0xE310 + n / 8) (n % 8) true }

/-- R338: the filter of pin n passes a change at sample tick `tick`: `samples` holds the latest 16 samples, latest in
bit 0. After a pause a caught edge is delivered as a pulse of N sample ticks (R345). The change is logged (R340). In a
nap and in a catch's chase the pads' latches alone take the pins (R332). -/
def Cell.pinLevelChange (c : Cell) (n : Nat) (samples : BitVec 16) (tick window : Nat) : Cell :=
  let p := c.pins
  let bit : BitVec 16 := BitVec.ofNat 16 (2 ^ n)
  let now := samples.getLsbD 0
  let k := c.pinFilt n + 1
  let steady := (List.range k).all fun i => samples.getLsbD i == now
  let old := p.delivered.getLsbD n
  let pulseStart := p.pulse.getLsbD n && now == old
  let pulseEnd := p.pulseTick.getD n 0 + k
  let delivers : Bool :=
    if p.pulsing.getLsbD n ∧ tick ≤ pulseEnd then tick == pulseEnd && now != old
    else pulseStart || (steady && now != old)
  if 16 ≤ n ∨ ¬ p.owned.getLsbD n ∨ c.nap.napping ∨ c.dry ∨ tick < p.tick ∨ ¬ delivers then c
  else
    let new := !old
    let p := p.atTick tick
    let p := { p with
      delivered := if new then p.delivered ||| bit else p.delivered &&& ~~~ bit
      samples := updateAt p.samples n fun _ => samples
      pulse := p.pulse &&& ~~~ bit
      pulsing := if pulseStart then p.pulsing ||| bit else p.pulsing &&& ~~~ bit
      pulseTick := if pulseStart then updateAt p.pulseTick n fun _ => tick else p.pulseTick }
    let c := { c with pins := p }
    let c := match c.pinMode n with
      | 1 => if new then c.pinPend n else c
      | 2 => if new then c else c.pinPend n
      | 3 => c.pinPend n
      | _ => c
    ((c.stormCount n window).timerSource (.pin n new)).emit (.logRecord 0x06 (leBytes 1 n ++ leBytes 7 new.toNat))

/-- R341: a level mode sets IRQ_PEND at a sample tick and disarms the pin. -/
def Cell.pinLevelIrq (c : Cell) (n : Nat) : Cell :=
  let p := c.pins
  let level := p.delivered.getLsbD n
  let wants : Bool := match c.pinMode n with
    | 4 => level
    | 5 => !level
    | _ => false
  if 16 ≤ n ∨ ¬ p.owned.getLsbD n ∨ ¬ p.armed.getLsbD n ∨ ¬ wants ∨ c.nap.napping then c
  else { c with pins := { p with armed := p.armed &&& ~~~ BitVec.ofNat 16 (2 ^ n) } }.pinPend n

/-- R343: the pattern match at sample tick `tick`; `first` at the first tick after a write to its
registers, which no pin event of an earlier tick can follow. -/
def Cell.patternMatch (c : Cell) (tick : Nat) (first : Bool) : Cell :=
  let p := c.pins.atTick tick
  let c := { c with pins := p }
  let mask := BitVec.ofNat 16 (c.io.rdN 0xE316 2)
  let value := BitVec.ofNat 16 (c.io.rdN 0xE318 2) &&& mask
  let m := p.delivered &&& mask
  let first := first && p.fresh == 1
  let m0 := if first then m else p.before &&& mask
  let fires : Bool := match (c.io.rd 0xE31A).toNat % 4 with
    | 1 => m == value && (first || m0 != value)
    | 2 => m != value && (first || m0 == value)
    | 3 => m != m0
    | _ => false
  if fires = false ∨ c.nap.napping = true ∨ tick < p.tick then c
  else
    { c with io := (c.io.setBit 0xE31B 0 true).wrN 0xE31C 2 p.delivered.toNat }.raise srcPinMatch

/-- The request of the PIN source (R341, R342). -/
def Cell.pinRequest (c : Cell) : Bool :=
  BitVec.ofNat 16 (c.io.rdN 0xE310 2) &&& ~~~ BitVec.ofNat 16 (c.io.rdN 0xE312 2) != 0#16

/-- The bytes of the pin registers that are read from the block. -/
def Cell.pinByte (c : Cell) (a : Nat) : Option Byte :=
  let pick (v : BitVec 16) (lo : Nat) : Option Byte :=
    some (BitVec.ofNat 8 (v.toNat / 256 ^ (a - lo)))
  if a = 0xE30A ∨ a = 0xE30B then pick (c.pins.delivered &&& c.pins.owned) 0xE30A
  else if a = 0xE326 ∨ a = 0xE327 then pick c.pins.locked 0xE326
  else if a = 0xE328 ∨ a = 0xE329 then pick c.pins.owned 0xE328
  else none

end Sys2Proof.Machine
end

