-- ==== Sys2Proof/Machine/IoPage.lean ====
section
/-! DEFINITION. Reads and writes of the I/O page by the core, DMA and the host's debugger: the access
codes of R6 to R8, the holds of R500, and the registers that act when they are read or written. The
DMA and blitter registers follow in Dma.lean. -/

namespace Sys2Proof.Machine

/-! ### Values -/

/-- A byte of a number kept by a block. -/
def byteOf (v off : Nat) : Byte := BitVec.ofNat 8 (v / 256 ^ off)

/-- The bytes of 0E000h to 0E0FFh that are kept by the core. -/
def Cell.coreByte (c : Cell) (a : Nat) : Option Byte :=
  let k := c.core
  let dt := (c.io.rd 0xE041).toNat % 32
  let uc := c.io.rdN 0xE044 2 % 1024
  if a = 0xE042 ∨ a = 0xE043 then some (k.decodeTable.rd (2 * dt + (a - 0xE042)))
  else if 0xE046 ≤ a ∧ a < 0xE04A then some (k.microcode.rd (4 * uc + (a - 0xE046)))
  else if 0xE08C ≤ a ∧ a < 0xE090 then some (byteOf k.paceCount.toNat (a - 0xE08C))
  else if 0xE090 ≤ a ∧ a < 0xE094 then some (byteOf k.sched.toNat (a - 0xE090))
  else if a = 0xE097 then some (k.paceTable.rd (c.io.rd 0xE096).toNat)
  else none

/-- PEND, ACTIVE and CUR (R364). -/
def Cell.intcByte (c : Cell) (a : Nat) : Option Byte :=
  let pend : BitVec 48 := (List.range 48).foldl (fun w s => if c.intc.pending s then setBit48 w s true else w) 0#48
  if 0xE100 ≤ a ∧ a < 0xE106 then some (byteOf pend.toNat (a - 0xE100))
  else if 0xE108 ≤ a ∧ a < 0xE10E then some (byteOf c.intc.active.toNat (a - 0xE108))
  else if a = 0xE110 then some c.curSource
  else none

/-- COUNT and RELOAD_CUR (R358). -/
def Cell.timerByte (c : Cell) (a : Nat) : Option Byte :=
  let t := c.timer ((a - 0xE200) / 0x20)
  let o := (a - 0xE200) % 0x20
  if 0xE280 ≤ a then none
  else if o < 4 then some (byteOf t.count o)
  else if 8 ≤ o ∧ o < 12 then some (byteOf t.reload (o - 8))
  else none

/-- BEAM_POS as R163 and R180 give it: LINE, DOT and the blank and sync flags. -/
def Cell.beamPos (c : Cell) : Nat :=
  let b := c.beam
  let hb := c.hActive ≤ b.dot
  let vb := c.vActive ≤ b.line
  let hs := c.ef16 0xE738 ≤ b.dot ∧ b.dot < c.ef16 0xE73A
  let vs := c.ef16 0xE740 ≤ b.line ∧ b.line < c.ef16 0xE742
  b.dot + 0x10000 * b.line + 2 ^ 28 * (decide hb).toNat + 2 ^ 29 * (decide vb).toNat +
    2 ^ 30 * (decide hs).toNat + 2 ^ 31 * (decide vs).toNat

/-- The bytes of the beam, composition and output blocks that are kept outside their registers. -/
def Cell.videoByte (c : Cell) (a : Nat) : Option Byte :=
  let layer (l : Nat) (f : LayerDesc → Nat) (off : Nat) : Option Byte :=
    some (byteOf (((c.picture.layers[l]?).bind (·.effect)).elim 0 f) off)
  let sel := (c.io.rd 0xE970).toNat
  if a = 0xE700 then some ((c.io.rd a &&& 0x80#8) ||| (if c.beam.commits = [] then 0#8 else 1#8))
  else if 0xE710 ≤ a ∧ a < 0xE714 then some (byteOf c.beamPos (a - 0xE710))
  else if a = 0xE714 ∨ a = 0xE715 then some (byteOf c.beam.line (a - 0xE714))
  else if 0xE718 ≤ a ∧ a < 0xE71C then some (byteOf c.beam.frame (a - 0xE718))
  else if 0xE720 ≤ a ∧ a < 0xE728 then some (byteOf c.beam.ctime (a - 0xE720))
  else if a = 0xE764 then some ((c.io.rd a &&& 0x0F#8) ||| (if c.seq.run then 0x80#8 else 0#8))
  else if a = 0xE765 ∨ a = 0xE766 then some (byteOf c.seq.pc (a - 0xE765))
  else if 0xE968 ≤ a ∧ a < 0xE96C then
    some (c.picture.palette.rd (4 * (c.io.rd 0xE960).toNat + (a - 0xE968)))
  else if a = 0xE976 ∨ a = 0xE977 then
    let size := tableSize sel
    some (if size = 0 then 0#8
      else c.picture.tables.rd (0x1000 * sel + 2 * (c.io.rdN 0xE972 2 % size) + (a - 0xE976)))
  else if a = 0xE9AE ∨ a = 0xE9AF then layer 0 (·.sw) (a - 0xE9AE)
  else if a = 0xE9B0 ∨ a = 0xE9B1 then layer 0 (·.sh) (a - 0xE9B0)
  else if a = 0xE9B2 ∨ a = 0xE9B3 then layer 0 (·.tag) (a - 0xE9B2)
  else if a = 0xE9CE ∨ a = 0xE9CF then layer 1 (·.sw) (a - 0xE9CE)
  else if a = 0xE9D0 ∨ a = 0xE9D1 then layer 1 (·.sh) (a - 0xE9D0)
  else if a = 0xE9D2 ∨ a = 0xE9D3 then layer 1 (·.tag) (a - 0xE9D2)
  else none

/-- The bytes of the queue interface (R389). -/
def Cell.queueByte (c : Cell) (a : Nat) : Option Byte :=
  let n := (a - 0xEC20) / 0x10
  if a < 0xEC08 then some (((c.evf.headD []).getD (a - 0xEC00) 0#8))
  else if a = 0xEC08 then some (byteOf c.evf.length 0)
  else if a < 0xEC20 ∨ 0xEC60 ≤ a then none
  else match (a - 0xEC20) % 0x10 with
    | 0 => some ((c.line n).rx.headD 0#8)
    | 4 => some (byteOf (c.line n).rx.length 0)
    | 5 => some (byteOf (c.line n).rx.length 1)
    | 6 => some (byteOf (c.line n).txLevel 0)
    | 7 => some (byteOf (c.line n).txLevel 1)
    | _ => none

/-- BUSY, GO and STREAM_BUSY, and CLIPr (R276, R284). -/
def Cell.moverByte (c : Cell) (a : Nat) : Option Byte :=
  let b := c.blitter
  let busy := b.phase != .idle
  if a < 0xE540 then
    (if (a - 0xE500) % 0x10 = 1 then
      some ((c.io.rd a &&& 0x1F#8) |||
        (match c.dma[(a - 0xE500) / 0x10]? with
         | some s => if s.phase = .idle then 0#8 else 0x80#8
         | none => 0#8))
     else none)
  else if a = 0xE640 then some ((c.io.rd a &&& 0x80#8) ||| (if busy then 1#8 else 0#8))
  else if a = 0xE641 then some ((c.io.rd a &&& 7#8) ||| (if busy then 0x80#8 else 0#8))
  else if 0xE620 ≤ a ∧ a < 0xE640 then
    match b.clips[(a - 0xE620) / 8]? with
    | none => some 0#8
    | some k =>
      let v := match (a - 0xE620) % 8 / 2 with
        | 0 => k.x0
        | 1 => k.y0
        | 2 => k.xEnd + 0xFFF
        | _ => k.yEnd + 0xFFF
      some (byteOf (v % 0x1000) (a % 2))
  else none

/-- The bytes kept outside the registers, by block. -/
def Cell.liveByte (c : Cell) (a : Nat) : Option Byte :=
  if a < 0xE100 then c.coreByte a
  else if a < 0xE200 then c.intcByte a
  else if a < 0xE300 then c.timerByte a
  else if a < 0xE400 then c.pinByte a
  else if a < 0xE500 then c.pioByte a
  else if a < 0xE700 then c.moverByte a
  else if a < 0xEB00 then c.videoByte a
  else if a < 0xEC00 then c.audioByte a
  else if a < 0xED00 then c.queueByte a
  else if a < 0xEE00 then c.cryptoByte a
  else none

/-- Whether reads of a framed register show the value in effect (R170). -/
def Cell.viewsEffect (c : Cell) (r : IoReg) : Bool := r.cls == .framed && r.base < 0xEB00 && c.io.bit 0xE700 7

/-- The value that a read of an address would return, without the read's effects (R6, R76, R132). -/
def Cell.ioPeek (c : Cell) (a : Nat) : Byte :=
  match locate a with
  | none => 0#8
  | some l =>
    match c.liveByte a with
    | some v => v
    | none => if c.viewsEffect l.reg then c.eff.rd a else c.io.rd a

/-! ### Reads -/

/-- A compare register of a timer whose unit captures (R358). -/
def Cell.captureReg (c : Cell) (a : Nat) : Bool :=
  let n := (a - 0xE200) / 0x20
  let o := (a - 0xE200) % 0x20
  decide (0xE200 ≤ a ∧ a < 0xE280 ∧ 0x10 ≤ o ∧ o < 0x18) &&
    (c.io.rd (tAddr n 0x18)).getLsbD (if o < 0x14 then 7 else 3)

/-- What a read of byte 0 of an RL register does besides (R308, R323, R389). -/
def Cell.readHead (c : Cell) (a : Nat) : Cell :=
  if a = 0xEC00 then { c with evf := c.evf.drop 1 }
  else if a = 0xEB9C then (c.loopbackPop).2
  else if 0xE424 ≤ a ∧ a < 0xE470 ∧ (a - 0xE424) % 0x18 = 0 then (c.rxRemove ((a - 0xE424) / 0x18)).2
  else c

/-- The value of an RL register's bytes as a read of byte 0 finds them. -/
def Cell.headByte (c : Cell) (a : Nat) : Byte :=
  if 0xEB9C ≤ a ∧ a < 0xEBA0 then byteOf (c.loopbackPop).1.toNat (a - 0xEB9C)
  else if 0xE424 ≤ a ∧ a < 0xE470 ∧ (a - 0xE410) % 0x18 / 4 = 5 then
    byteOf (c.rxRemove ((a - 0xE410) / 0x18)).1.toNat ((a - 0xE410) % 0x18 - 0x14)
  else c.ioPeek a

/-- A read of byte 0 of an RL register latches its other bytes (R6). -/
def Cell.latchReg (c : Cell) (start n : Nat) : Cell :=
  let latched := (List.range (n - 1)).foldl (fun m i => m.wr (start + 1 + i) (c.headByte (start + 1 + i))) c.latched
  { c with latched := latched }

/-- A read of a line's DATA (R390). -/
def Cell.lineRead (c : Cell) (n : Nat) : Byte × Cell :=
  match (c.line n).rx with
  | [] => (0#8, { c with io := c.io.setBit (0xEC22 + 0x10 * n) 6 true })
  | b :: t => (b, c.setLine n { c.line n with rx := t })

/-- A read of an I/O register outside the DMA and blitter blocks, with its effects. A companion byte of an RL register
reads 00h until byte 0 has first been read since the cast, of which R6 says nothing (DESIGN CHOICE, assumption 123). -/
def Cell.ioLoadBase (c : Cell) (a : Nat) : Byte × Cell :=
  match locate a with
  | none => (0#8, c)
  | some l =>
    if l.reg.rl ∨ c.captureReg a then
      if l.off = 0 then
        let v := c.headByte a
        (v, (c.latchReg a l.reg.n).readHead a)
      else
        let v := c.latched.rd a
        if a = 0xE049 then (v, { c with io := c.io.wrN 0xE044 2 ((c.io.rdN 0xE044 2 + 1) % 1024) })
        else (v, c)
    else if 0xEC20 ≤ a ∧ a < 0xEC60 ∧ (a - 0xEC20) % 0x10 = 0 then c.lineRead ((a - 0xEC20) / 0x10)
    else if a = 0xED21 then c.crOut
    else (c.ioPeek a, c)

/-! ### Writes -/

/-- A byte written to a register that acts by its access codes alone (R6, R7). -/
def Cell.plainWrite (c : Cell) (l : IoLoc) (a : Nat) (v : Byte) : Cell :=
  let rw := maskByte l.reg.rw l.off
  let w1c := maskByte l.reg.w1c l.off
  let old := c.io.rd a
  { c with io := c.io.wr a (((old &&& ~~~ rw) ||| (v &&& rw)) &&& ~~~ (v &&& w1c)) }

/-- R500: a byte below the top is held; the top byte gives the bytes of the whole register. -/
def Cell.holdWrite (c : Cell) (l : IoLoc) (a : Nat) (v : Byte) : Option (List (Nat × Byte)) × Cell :=
  if l.off + 1 < l.reg.n then (none, { c with holds := (c.holds.wr (2 * a) v).wr (2 * a + 1) 1#8 })
  else
    let lows := (List.range (l.reg.n - 1)).map fun i =>
      let b := l.start + i
      (b, if c.holds.rd (2 * b + 1) = 0#8 then
            (match c.liveByte b with
             | some x => x
             | none => c.io.rd b)
          else c.holds.rd (2 * b))
    let clear := (List.range (2 * (l.reg.n - 1))).foldl (fun h i => h.wr (2 * l.start + i) 0#8) c.holds
    (some (lows ++ [(a, v)]), { c with holds := clear })

/-- The value of bytes given lowest first. -/
def leOf (bytes : List (Nat × Byte)) : Nat := leNat (bytes.map (·.2))

/-- The bytes of a whole register written, with its mask. -/
def Cell.putBytes (c : Cell) (l : IoLoc) (bytes : List (Nat × Byte)) : Cell :=
  { c with io := bytes.foldl (fun io p => io.wr p.1 (p.2 &&& maskByte l.reg.rw (p.1 - l.start))) c.io }

/-- A write of a register of class `imm`, through its hold where it has one. -/
def Cell.heldOrPlain (c : Cell) (l : IoLoc) (a : Nat) (v : Byte) : Cell :=
  if l.reg.hold then
    match c.holdWrite l a v with
    | (none, c) => c
    | (some bytes, c) => c.putBytes l bytes
  else c.plainWrite l a v

/-- A write that clears a count of two bytes. -/
def Cell.clearPair (c : Cell) (l : IoLoc) : Cell := { c with io := c.io.wrN l.start 2 0 }

/-- A write of PACE_CTL (R152, R153): the schedule restarts at the end of an instruction that sets PACED, so that
nothing is charged for it; SLIP reads 0 in unpaced mode. -/
def Cell.paceCtl (c : Cell) (was : Bool) : Cell :=
  if c.io.bit 0xE080 0 then
    (if was then c else let c := c.restartPace; { c with core := { c.core with repaced := true } })
  else { c with io := c.io.wrN 0xE088 2 0 }

/-- 0E000h to 0E0FFh (R111, R112, R139, R140, R156). -/
def Cell.storeCore (c : Cell) (l : IoLoc) (a : Nat) (v : Byte) : Cell :=
  let locked := c.io.bit 0xE040 7
  let k := c.core
  if a = 0xE040 then (if v.getLsbD 7 then { c with io := c.io.setBit a 7 true } else c)
  else if locked ∧ (l.start = 0xE042 ∨ l.start = 0xE046 ∨ (0xE082 ≤ a ∧ a ≤ 0xE084) ∨ a = 0xE097) then c
  else if l.start = 0xE042 then
    match c.holdWrite l a v with
    | (none, c) => c
    | (some bytes, c) =>
      let entry := 2 * ((c.io.rd 0xE041).toNat % 32)
      { c with core := { k with decodeTable := k.decodeTable.wrN entry 2 (Nat.land (leOf bytes) 0xB3FF) } }
  else if l.start = 0xE046 then
    match c.holdWrite l a v with
    | (none, c) => c
    | (some bytes, c) =>
      let uc := c.io.rdN 0xE044 2 % 1024
      { c with core := { k with microcode := k.microcode.wrN (4 * uc) 4 (leOf bytes) }
               io := c.io.wrN 0xE044 2 ((uc + 1) % 1024) }
  else if a = 0xE080 then
    (c.plainWrite l a v).paceCtl (c.io.bit a 0)
  else if a = 0xE082 ∨ a = 0xE083 then
    -- R149: PACE_NUM stays between 1 and PACE_DEN
    let num := if a = 0xE082 then v.toNat else (c.io.rd 0xE082).toNat
    let den := if a = 0xE082 then (c.io.rd 0xE083).toNat else v.toNat
    if num = 0 ∨ den < num then c
    else
      let c' := c.plainWrite l a v
      { c' with core := { c'.core with paceRestart := true } }
  else if l.start = 0xE08A then c.clearPair l
  else if a = 0xE097 then
    let i := (c.io.rd 0xE096).toNat
    { c with core := { k with paceTable := k.paceTable.wr i v }, io := c.io.wr 0xE096 (byteOf (i + 1) 0) }
  else c.plainWrite l a v

/-- 0E100h to 0E1FFh (R359, R362, R364, R365). -/
def Cell.storeIntc (c : Cell) (l : IoLoc) (a : Nat) (v : Byte) : Cell :=
  if a = 0xE112 then c.eoi v.toNat
  else if l.start = 0xE114 then c.clearPair l
  else if a = 0xE116 then c.soft v
  else c.plainWrite l a v

/-- 0E200h to 0E2FFh (R353 to R358). -/
def Cell.storeTimer (c : Cell) (l : IoLoc) (a : Nat) (v : Byte) : Cell :=
  let n := (a - 0xE200) / 0x20
  let o := (a - 0xE200) % 0x20
  if o = 0x0C ∧ v.toNat % 8 = 7 then c
  else if o = 0x18 ∧ (bitsOf v.toNat 6 4 = 7 ∨ v.toNat % 8 = 7) then c
  else if c.captureReg a then c
  else if l.reg.rl then c
  else
    let c' := c.heldOrPlain l a v
    if o = 0x13 then c'.setTimer n { c'.timer n with freshA := false }
    else if o = 0x17 then c'.setTimer n { c'.timer n with freshB := false }
    -- a unit that newly selects an event has none to capture yet (R355)
    else if (o = 0x18 ∨ o = 0x19) ∧ c'.io.rd a ≠ c.io.rd a then c'.setTimer n { c'.timer n with capA := 0, capB := 0 }
    else c'

/-- 0E300h to 0E3FFh (R335 to R347). Any write to the block but PINLOCK abandons its key. -/
def Cell.storePin (c : Cell) (l : IoLoc) (a : Nat) (v : Byte) : Cell :=
  if a = 0xE324 then c.pinLock v
  else
    let c := c.dropKey
    if 0xE302 ≤ a ∧ a < 0xE308 then
      let op : GpioOp := if a < 0xE304 then .set else if a < 0xE306 then .clr else .tgl
      c.gpio op (a % 2 == 1) v
    else if a = 0xE308 ∨ a = 0xE309 ∨ (0xE31E ≤ a ∧ a < 0xE322) then c.lockedWrite a v
    else if a = 0xE310 ∨ a = 0xE311 then c.pendClear a v
    else if 0xE340 ≤ a ∧ a < 0xE360 then
      (if a % 2 = 0 then c.functionChange ((a - 0xE340) / 2) v else c.pinCfgB ((a - 0xE340) / 2) v)
    else
      let c := c.plainWrite l a v
      -- the first tick after a write to PM_CTL, PM_MASK or PM_VALUE compares afresh (R343)
      if 0xE316 ≤ a ∧ a ≤ 0xE31A then { c with pins := { c.pins with fresh := 2 } } else c

/-- 0E400h to 0E4FFh (R314, R317, R323, R324, R326, R327). A write of PROG's high byte that R326 ignores leaves the low
byte's hold unwritten again (R500 does not say; DESIGN CHOICE, assumption 124). -/
def Cell.storePio (c : Cell) (l : IoLoc) (a : Nat) (v : Byte) : Cell :=
  let n := (a - 0xE410) / 0x18
  let o := (a - 0xE410) % 0x18
  if a = 0xE400 then c.pioCtl v
  else if a = 0xE401 then
    let c := if v.getLsbD 7 then { c with io := c.io.setBit a 7 true } else c
    c.clkSync (v &&& 0x0F#8)
  else if a = 0xE403 then c.flagClear v
  else if a = 0xE404 then c.flagForce v
  else if 0xE480 ≤ a then
    if c.io.bit 0xE401 7 then c
    else match c.holdWrite l a v with
      | (none, c) => c
      | (some bytes, c) => c.programWrite ((a - 0xE480) / 2) (BitVec.ofNat 16 (leOf bytes))
  else if a < 0xE470 ∧ 0xE410 ≤ a ∧ l.start = 0xE410 + 0x18 * n + 3 then
    match c.holdWrite l a v with
    | (none, c) => c
    | (some bytes, c) => c.progWrite n (leOf bytes)
  else if a < 0xE470 ∧ 0xE410 ≤ a ∧ o = 5 then c.shiftCfg n v
  else if a < 0xE470 ∧ 0xE410 ≤ a ∧ l.start = 0xE410 + 0x18 * n + 0x10 then
    match c.holdWrite l a v with
    | (none, c) => c
    | (some bytes, c) => c.txAppend n (BitVec.ofNat 32 (leOf bytes))
  else if l.reg.rl then c
  else c.heldOrPlain l a v

/-- 0E700h to 0EAFFh: framed registers write their shadow, live ones wait for a fetch boundary (R166 to
R171, R180, R203, R213, R214, R234, R235, R259). -/
def Cell.storeVideo (c : Cell) (l : IoLoc) (a : Nat) (v : Byte) : Cell :=
  let acc := c.beam.ctime + 1
  match l.reg.cls with
  | .framed =>
    let log : ShadowWrite := { accepted := acc, addr := a, old := c.io.rd a }
    { c.plainWrite l a v with beam := { c.beam with shadowLog := c.beam.shadowLog ++ [log] } }
  | .live =>
    let mask (p : Nat × Byte) : Nat × Byte := (p.1, p.2 &&& maskByte l.reg.rw (p.1 - l.start))
    if l.reg.hold then
      match c.holdWrite l a v with
      | (none, c) => c
      | (some bytes, c) => (c.liveBytes acc false (bytes.map mask)).afterLive acc false a
    else (c.liveBytes acc false [mask (a, v)]).afterLive acc false a
  | .imm =>
    if a = 0xE700 then
      let c := { c with io := c.io.setBit a 7 (v.getLsbD 7) }
      if v.getLsbD 0 then c.commit else c
    else if [0xE702, 0xE7DA, 0xE9AC, 0xE9CC, 0xEA84].contains l.start then c.clearPair l
    else if a = 0xEA04 then (if v.getLsbD 0 then c.refreshAll else c)
    else if l.reg.rl then c
    else
      let c' := c.heldOrPlain l a v
      if a = 0xE70B ∨ a = 0xE70F then
        let n := (a - 0xE708) / 4
        -- a second write at one tick replaces the first, which is never compared (R162, R164)
        let old := if c.beam.bcAccepted.getD n 0 = acc then c.beam.bcOld.getD n 0 else c.io.rdN (0xE708 + 4 * n) 4
        { c' with beam := { c'.beam with
          bcAccepted := updateAt c'.beam.bcAccepted n (fun _ => acc)
          bcOld := updateAt c'.beam.bcOld n (fun _ => old) } }
      else c'

/-- The mixer write that a whole register stands for (R288, R297 to R301). -/
def Cell.mixWriteOf (c : Cell) (start v : Nat) : List MixWrite :=
  let node := (c.io.rd 0xEB60).toNat % 128
  let o := (c.io.rd 0xEB70).toNat % 8
  let k := (c.io.rd 0xEB76).toNat % 16
  if start = 0xEB62 then (if node < 96 then [.gain node (signedOf 16 v)] else [])
  else if start = 0xEB64 then (if node < 96 then [.mute node (v.testBit 7)] else [])
  else if start = 0xEB68 then [.move (bitsOf v 15 12) (bitsOf v 10 8) (bitsOf v 6 4)]
  else if start = 0xEB60 then [.byte start (byteOf v 0 &&& 0x7F#8)]
  else if start = 0xEB70 then [.byte start (byteOf v 0 &&& 7#8)]
  else if start = 0xEB76 then [.byte start (byteOf v 0 &&& 0xF#8)]
  else if start = 0xEB6A then [.byte 0xEB6A (byteOf v 0), .byte 0xEB6B (byteOf v 1 &&& 0x0E#8)]
  else if start = 0xEB71 then [.limEn o (v.testBit 7)]
  else if start = 0xEB72 then [.limThr o (v % 0x8000)]
  else if start = 0xEB74 then [.limRel o v]
  else if start = 0xEB78 then (if k < 10 then [.coef o k (signedOf 24 v)] else [])
  else if start = 0xEB7B then (List.range 8).filterMap fun i => if v.testBit i then some (.apply i) else none
  else if start = 0xEB90 then [.byte 0xEB90 (byteOf v 0), .byte 0xEB91 (byteOf v 1 &&& 0x0F#8)]
  else if start = 0xEB00 then [.byte start (byteOf v 0 &&& 0xC0#8)]
  else if start = 0xEB80 then [.byte start (byteOf v 0 &&& 0x87#8)]
  else if start = 0xEB88 then [.byte start (byteOf v 0 &&& 0x83#8)]
  else if start = 0xEB92 ∨ start = 0xEB93 then [.byte start (byteOf v 0 &&& 0x8F#8)]
  else if start = 0xEB98 then [.byte start (byteOf v 0 &&& 0x80#8)]
  else []

/-- 0EB00h to 0EBFFh (R288 to R310). -/
def Cell.storeAudio (c : Cell) (l : IoLoc) (a : Nat) (v : Byte) : Cell :=
  let mix (c : Cell) (bytes : List (Nat × Byte)) : Cell :=
    let c := if l.reg.rw = 0 then c else c.putBytes l bytes
    (c.mixWriteOf l.start (leOf bytes)).foldl Cell.queueMix c
  if a = 0xEB01 then c.storeVideo l a v
  else if 0xEB10 ≤ a ∧ a < 0xEB50 then
    let c' := c.heldOrPlain l a v
    { c' with audio := { c'.audio with chipDirty := true } }
  else if a = 0xEB50 then
    let c' := c.plainWrite l a v
    { c' with audio := { c'.audio with clickDirty := true } }
  else if a = 0xEB58 then
    if bitsOf v.toNat 6 5 = 3 then c
    else
      let c' := c.plainWrite l a v
      { c' with audio := { c'.audio with pcmTrigger := 0 } }
  else if a = 0xEB59 then c.pcmPush v
  else if [0xEB5C, 0xEB84, 0xEB86].contains l.start then c.clearPair l
  else if l.start = 0xEB7C ∨ l.start = 0xEB7E then
    let o := (c.eff.rd 0xEB70).toNat % 8
    let clear (m : MixOut) : MixOut := if l.start = 0xEB7C then { m with clip := 0 } else { m with sat := 0 }
    { c with audio := { c.audio with outs := updateAt c.audio.outs o clear } }
  else if a = 0xEB7B then
    mix { c with io := c.io.orb a v } [(a, v)]
  else if l.reg.rl then c
  else if c.mixWriteOf l.start 0 ≠ [] ∨ [0xEB62, 0xEB64, 0xEB78].contains l.start then
    if l.reg.hold then
      match c.holdWrite l a v with
      | (none, c) => c
      | (some bytes, c) => mix c bytes
    else mix c [(a, v)]
  else c.plainWrite l a v

/-- A write of a line's DATA (R390). -/
def Cell.lineWrite (c : Cell) (n : Nat) (v : Byte) : Cell :=
  let x := c.line n
  if lineDepth ≤ x.txLevel then { c with io := c.io.setBit (0xEC22 + 0x10 * n) 7 true }
  else c.lineAppend n (.byte v)

/-- 0EC00h to 0ECFFh (R384, R389, R390). -/
def Cell.storeLine (c : Cell) (l : IoLoc) (a : Nat) (v : Byte) : Cell :=
  let n := (a - 0xEC20) / 0x10
  if a < 0xEC20 then c.plainWrite l a v
  else match (a - 0xEC20) % 0x10 with
    | 0 => c.lineWrite n v
    | 1 =>
      let was := (c.io.rd a).toNat % 16
      let now := v.toNat % 16
      let c' := c.plainWrite l a v
      if was = now then c' else c'.lineAppend n (.status now)
    | _ => c.plainWrite l a v

/-- 0ED00h to 0EDFFh (R462). -/
def Cell.storeCrypto (c : Cell) (l : IoLoc) (a : Nat) (v : Byte) : Cell :=
  if a = 0xED00 then
    let c := c.plainWrite l a v
    let c := if v.getLsbD 6 then c.crAbort else c
    if v.getLsbD 7 then c.crGo else c
  else if a = 0xED20 then c.crIn v
  else if l.reg.rl then c
  else c.heldOrPlain l a v

/-- A write of an I/O register outside the DMA and blitter blocks. -/
def Cell.ioStoreBase (c : Cell) (a : Nat) (v : Byte) : Cell :=
  match locate a with
  -- any other write to the pin block abandons the PINLOCK sequence (R346)
  | none => if 0xE300 ≤ a ∧ a < 0xE400 then c.dropKey else c
  | some l =>
    if a < 0xE100 then c.storeCore l a v
    else if a < 0xE200 then c.storeIntc l a v
    else if a < 0xE300 then c.storeTimer l a v
    else if a < 0xE400 then c.storePin l a v
    else if a < 0xE500 then c.storePio l a v
    else if a < 0xE700 then c
    else if a < 0xEB00 then c.storeVideo l a v
    else if a < 0xEC00 then c.storeAudio l a v
    else if a < 0xED00 then c.storeLine l a v
    else if a < 0xEE00 then c.storeCrypto l a v
    else c

end Sys2Proof.Machine
end

