-- ==== Sys2Proof/Machine/Dma.lean ====
section
/-! DEFINITION. The four DMA streams and the blitter (R264 to R285), and with them the whole of the I/O
page as the core reaches it. -/

namespace Sys2Proof.Machine

/-! ### Bulk writes and DMA addresses -/

/-- R266: a bulk write to a cell address is refused. -/
def Cell.bulkRefused (c : Cell) (a : Nat) : Bool :=
  let prot := c.io.rd 0xE540
  let page := a / 0x1000
  (0x7F000 ≤ a && !prot.getLsbD 0) ||
    (prot.getLsbD 1 && decide ((c.io.rd 0xE541).toNat ≤ page ∧ page ≤ (c.io.rd 0xE542).toNat))

/-- R282: an I/O address that a DMA access may not use. -/
def dmaUnmapped (a : Nat) : Bool :=
  (locate a).isNone || (0xE500 ≤ a && a < 0xE700) || (0xEE00 ≤ a && a < 0xF000)

/-! ### Descriptors -/

/-- DESC_PTR, the address of the current or next descriptor (R284). -/
def Cell.descPtr (c : Cell) (n : Nat) : Nat := c.io.rdN (dAddr n 2) 3

def descField (d : List Byte) (off len : Nat) : Nat := leNat ((d.drop off).take len)

/-- COUNT of a descriptor (R279). -/
def descCount (d : List Byte) : Nat := let n := descField d 8 2; if n = 0 then 65536 else n
def descCtl (d : List Byte) : Nat := descField d 10 1
def descSio (d : List Byte) : Bool := (descField d 0 4).testBit 31
def descDio (d : List Byte) : Bool := (descField d 4 4).testBit 31
def descLast (d : List Byte) : Bool := (descField d 12 2).testBit 15

/-- R279: a descriptor whose BAD bit is 1 or whose reserved bits are not 0 is not run. -/
def descRuns (d : List Byte) : Bool :=
  let side (v : Nat) : Bool :=
    if v.testBit 31 then bitsOf v 30 12 == 0 else bitsOf v 30 19 == 0
  side (descField d 0 4) && side (descField d 4 4) && (descCtl d) % 8 == 0 && descField d 11 1 == 0

/-- A stream starts the descriptor at DESC_PTR (R277). -/
def Cell.dmaStart (c : Cell) (n : Nat) : Cell :=
  { (c.setStream n fun s => { s with phase := .fetch, restart := false }) with
    io := c.io.setBit (dAddr n 1) 0 false }

/-- A write to DESC_PTR of the bytes from offset `off` up (R277): ignored while the stream is busy; the
write that includes its top byte starts an enabled stream. -/
def Cell.descPtrWrite (c : Cell) (n : Nat) (bytes : List (Nat × Byte)) : Cell :=
  if (c.stream n).busy ∨ 4 ≤ n then c
  else
    let io := bytes.foldl (fun io p => io.wr (dAddr n (2 + p.1)) (p.2 &&& maskByte 0x7FFF0 p.1)) c.io
    let c := { c with io := io }
    if c.io.bit (dAddr n 0) 7 ∧ bytes.any (fun p => p.1 == 2) then c.dmaStart n else c

/-- The ring's size in records (R281). -/
def Cell.ringSize (c : Cell) (n : Nat) : Nat := 2 ^ ((c.io.rd (dAddr n 5)).toNat % 16)

/-- R281: the ring is full. -/
def Cell.ringFull (c : Cell) (n : Nat) : Bool :=
  (c.io.rdN (dAddr n 9) 2 + 1) % c.ringSize n == c.io.rdN (dAddr n 0x0B) 2 % c.ringSize n

/-- CR_BASE or CR_SIZE written: CR_WR becomes 0 and PHASE 1 (R284). -/
def Cell.ringReset (c : Cell) (n : Nat) : Cell :=
  { (c.setStream n fun s => { s with ringPhase := true }) with io := c.io.wrN (dAddr n 9) 2 0 }

/-- A stream has an access to make: a fetch, a piece, or a record for which its ring has room. -/
def Cell.wantsPort (c : Cell) (m : Nat) : Bool :=
  match (c.stream m).phase with
  | .fetch => true
  | .moving => true
  | .record => !c.ringFull m
  | _ => false

/-- R264: the bulk port serves master n, a stream or the blitter as 4, when no master before it wants it. -/
def Cell.portFree (c : Cell) (n : Nat) : Bool := (List.range n).all fun m => !c.wantsPort m

/-- A stream fetches its next descriptor (R279). -/
def Cell.dmaFetch (c : Cell) (n : Nat) : Cell :=
  let s := c.stream n
  if s.phase ≠ .fetch ∨ 4 ≤ n ∨ ¬ c.portFree n then c
  else
    let a := c.descPtr n
    let d := (List.range 16).map fun i => c.mem.rd ((a + i) % 0x80000)
    let addr (io : Bool) (v : Nat) : Nat := if io then v % 0x1000 else v % 0x80000
    let s := { s with
      desc := d
      src := addr (descSio d) (descField d 0 4)
      dst := addr (descDio d) (descField d 4 4)
      done := 0, cause := 0, side := false }
    if descRuns d then
      c.setStream n fun _ => { s with phase := if c.dmaReq n = 0 then .moving else .waiting }
    else
      { (c.setStream n fun _ => { s with phase := .record, cause := 5, side := Config.sideNotRun c.free }) with
        free := c.free + 1 }

/-- R278: the condition of a level source; `none` for an event source. -/
def Cell.dmaLevel (c : Cell) (req : Nat) : Option Bool :=
  if req = 5 then some (decide (c.audio.pcmFifo.length ≤ 16))
  else if 6 ≤ req ∧ req ≤ 9 then
    some (decide ((c.engine (req - 6)).tx.length < (c.pioSetup (req - 6)).txDepth))
  else if 10 ≤ req ∧ req ≤ 13 then
    some (!(c.engine (req - 10)).rx.isEmpty && !c.pinInOwns (req - 10))
  else if 14 ≤ req ∧ req ≤ 17 then some (decide ((c.line (req - 14)).txLevel < lineDepth))
  else if 18 ≤ req ∧ req ≤ 21 then some (!(c.line (req - 18)).rx.isEmpty)
  else none

/-- A request of the stream's source: one unit begins (R278). -/
def Cell.dmaRequest (c : Cell) (n : Nat) : Cell :=
  let s := c.stream n
  if s.phase ≠ .waiting ∨ 4 ≤ n then c
  else
    match c.dmaLevel (c.dmaReq n) with
    | some true => c.setStream n fun s => { s with phase := .moving }
    | some false => c
    | none =>
      if s.request then c.setStream n fun s => { s with phase := .moving, request := false } else c

/-- The bytes of the present unit: all that remain without requests (R278, R279). -/
def Cell.dmaUnit (c : Cell) (n : Nat) (s : DmaStream) : Nat :=
  let left := descCount s.desc - s.done
  if c.dmaReq n = 0 then left
  else match bitsOf (descCtl s.desc) 6 5 with
    | 0 => min 1 left
    | 1 => min 2 left
    | 2 => min 4 left
    | _ => left

/-- How a piece ends: moved with its size, or a bus error with its cause and side (R282). -/
inductive Piece where
  | moved (c : Cell) (s : DmaStream) (size : Nat)
  | error (c : Cell) (cause : Nat) (side : Bool)

/-- One piece of at most `unit` bytes (R280, R282). -/
def Cell.dmaPiece (c : Cell) (s : DmaStream) (unit : Nat) : Piece :=
  let d := s.desc
  let ctl := descCtl d
  let sfix := ctl.testBit 4
  let dfix := ctl.testBit 3
  let sio := descSio d
  let dio := descDio d
  let word := !sio && !dio && s.src % 4 == 0 && s.dst % 4 == 0 && !sfix && !dfix && decide (4 ≤ unit)
  let k := if word then 4 else 1
  if sio ∧ dmaUnmapped (0xE000 + s.src) then .error c 1 false
  else
    let rd : List Byte × Cell :=
      if sio then
        let r := c.ioLoadBase (0xE000 + s.src)
        ([r.1], r.2)
      else ((List.range k).map fun i => c.mem.rd ((s.src + i) % 0x80000), c)
    let c := rd.2
    if dio ∧ dmaUnmapped (0xE000 + s.dst) then .error c 1 true
    else if ¬ dio ∧ c.bulkRefused s.dst then .error c 2 true
    else
      let c := if dio then c.ioStoreBase (0xE000 + s.dst) (rd.1.headD 0#8)
        else { c with mem := c.mem.put s.dst rd.1 }
      let next (io fix : Bool) (a : Nat) : Nat :=
        if fix then a else if io then (a + k) % 0x1000 else (a + k) % 0x80000
      .moved c { s with src := next sio sfix s.src, dst := next dio dfix s.dst, done := s.done + k } k

/-- Pieces until the unit is complete, an error, or `fuel` pieces. -/
def Cell.dmaPieces : Nat → Nat → DmaStream → Cell → Cell × DmaStream × Option (Nat × Bool)
  | 0, _, s, c => (c, s, none)
  | fuel + 1, unit, s, c =>
    if unit = 0 then (c, s, none)
    else match c.dmaPiece s unit with
      | .moved c s k => Cell.dmaPieces fuel (unit - k) s c
      | .error c cause side => (c, s, some (cause, side))

/-- The net is off for LOG_FULL or SLOT_ERROR, and not for DEBUG (R419), as NET_STAT shows it. -/
def Cell.netOffFault (c : Cell) : Bool :=
  c.io.bit 0xEE00 7 && (c.io.rd 0xEE00).toNat % 4 != 3

/-- A unit's pieces (R280): the stream then waits for its next request, completes, or has an error and
writes BAD into the descriptor (R282). `bad` is the number of pieces before a read that meets an
uncorrectable error, which the stream sees only while the net is off (R419). -/
def Cell.dmaUnitComplete (c : Cell) (n : Nat) (bad : Option Nat) : Cell :=
  let s := c.stream n
  if s.phase ≠ .moving ∨ 4 ≤ n ∨ ¬ c.portFree n ∨ (bad.isSome ∧ ¬ c.netOffFault) then c
  else
    let u := c.dmaUnit n s
    let moved := Cell.dmaPieces (bad.getD u) u s c
    let r : Cell × DmaStream × Option (Nat × Bool) :=
      if bad.isSome ∧ moved.2.2.isNone then (moved.1, moved.2.1, some (3, false)) else moved
    match r.2.2 with
    | some (cause, side) =>
      let bad := c.descPtr n + 10
      let c' := if r.1.bulkRefused (bad % 0x80000) then r.1 else { r.1 with mem := r.1.mem.orb (bad % 0x80000) 4#8 }
      c'.setStream n fun _ => { r.2.1 with phase := .record, cause := cause, side := side }
    | none =>
      let s := r.2.1
      let phase : DmaPhase := if descCount s.desc ≤ s.done then .record
        else if c.dmaReq n = 0 then .moving else .waiting
      r.1.setStream n fun _ => { s with phase := phase }

/-- The completion record (R281). -/
def DmaStream.record (s : DmaStream) (desc : Nat) : List Byte :=
  (s.desc.drop 14).take 2 ++ leBytes 2 (desc / 16 % 0x8000) ++ leBytes 3 s.done ++
    leBytes 1 (s.ringPhase.toNat * 128 + s.side.toNat * 64 + s.cause)

/-- A descriptor is complete or ended: its record is written unless the ring is full, and the stream
goes on to NEXT or idles (R277, R281, R282). -/
def Cell.dmaComplete (c : Cell) (n : Nat) : Cell :=
  let s := c.stream n
  if s.phase ≠ .record ∨ 4 ≤ n ∨ ¬ c.portFree n then c
  else if c.ringFull n then { c with io := c.io.setBit (dAddr n 1) 3 true }
  else
    let size := c.ringSize n
    let wr := c.io.rdN (dAddr n 9) 2 % size
    let base := c.io.rdN (dAddr n 6) 3
    let ptr := c.descPtr n
    let rec_ := s.record ptr
    -- a record at a protected address is a refused write, and so a bus error without a record (assumption 117)
    let refused := c.bulkRefused ((base + 8 * wr) % 0x80000)
    let mem := if refused then c.mem else (List.range 8).foldl (fun m i =>
      m.wr ((base + 8 * wr + i) % 0x80000) (rec_.getD i 0#8)) c.mem
    let wr' := (wr + 1) % size
    let st := dAddr n 1
    let error := s.cause = 1 ∨ s.cause = 2 ∨ s.cause = 3 ∨ refused
    let irq := s.cause = 0 ∧ (descCtl s.desc).testBit 7
    let io := (c.io.wrN (dAddr n 9) 2 wr').setBit st 3 false
    let io := if error then io.setBit st 2 true else io
    let io := if irq then io.setBit st 1 true else io
    let last := descLast s.desc
    let io := if last then io.setBit st 0 true
      else io.wrN (dAddr n 2) 3 (descField s.desc 12 2 % 0x8000 * 16)
    let c := { c with mem := mem, io := io }
    let c := c.setStream n fun _ =>
      { s with phase := if last then .idle else .fetch
               ringPhase := if wr' = 0 then !s.ringPhase else s.ringPhase }
    let c := if error then c.raise srcDmaErr else c
    if irq then c.raise (srcDma0 + n) else c

/-- A write of CR_RD (R281): a stream that waits for the ring goes on at its DMA_DESCRIPTOR_COMPLETE. -/
def Cell.crRead (c : Cell) (n : Nat) (bytes : List (Nat × Byte)) : Cell :=
  let io := bytes.foldl (fun io p => io.wr (dAddr n (0x0B + p.1)) (p.2 &&& maskByte 0x3FF p.1)) c.io
  let c := { c with io := io }
  if (c.stream n).phase = .record ∧ ¬ c.ringFull n then
    { c with io := c.io.setBit (dAddr n 1) 3 false } else c

/-- CR_BASE or CR_SIZE (R281, R284); a CR_SIZE outside 2 to 10 is ignored. -/
def Cell.crBase (c : Cell) (n : Nat) (bytes : List (Nat × Byte)) : Cell :=
  let io := bytes.foldl (fun io p => io.wr (dAddr n (6 + p.1)) (p.2 &&& maskByte 0x7FFF8 p.1)) c.io
  { c with io := io }.ringReset n

def Cell.crSize (c : Cell) (n : Nat) (v : Byte) : Cell :=
  let k := v.toNat % 16
  if k < 2 ∨ 10 < k then c else { c with io := c.io.wr (dAddr n 5) (BitVec.ofNat 8 k) }.ringReset n

/-- R283: a write of 0 to EN drops the stream. A stream that was moving data may still have moved some
pieces of its unit; how many is free, and so is whether a pending request is kept. -/
def Cell.dmaDrop (c : Cell) (n : Nat) : Cell :=
  let s := c.stream n
  let c := { c with io := c.io.setBit (dAddr n 0) 7 false }
  let keep := s.request && Config.keepsRequest c.free
  if s.phase = .idle ∨ s.phase = .drain then
    { (c.setStream n fun s => { s with restart := false, request := keep }) with free := c.free + 1 }
  else
    let r : Cell × DmaStream × Option (Nat × Bool) :=
      if s.phase = .moving then
        let u := c.dmaUnit n s
        Cell.dmaPieces (min u (Config.droppedPieces c.free)) u s c
      else (c, s, none)
    { (r.1.setStream n fun _ => { s with phase := .drain, request := keep, restart := false }) with
      free := c.free + 1, io := r.1.io.setBit (dAddr n 1) 3 false }

/-- R283: the drop has drained; a held EN restarts the stream with the descriptor at DESC_PTR. -/
def Cell.dmaDrained (c : Cell) (n : Nat) : Cell :=
  let s := c.stream n
  if s.phase ≠ .drain ∨ 4 ≤ n then c
  else if s.restart then c.dmaStart n
  else c.setStream n fun s => { s with phase := .idle }

/-- What a stream does once REQ changes (R278): with 00h a descriptor runs without pause, and with a source named
the rest of one that ran freely waits for its requests (assumption 117). -/
def DmaPhase.paced (p : DmaPhase) (old new : Nat) : DmaPhase :=
  match p with
  | .waiting => if new = 0 then .moving else .waiting
  | .moving => if old = 0 ∧ new ≠ 0 then .waiting else .moving
  | _ => p

/-- A write of a stream's CTL (R277, R278, R283). -/
def Cell.dmaCtl (c : Cell) (n : Nat) (v : Byte) : Cell :=
  if 0x17 ≤ v.toNat % 64 ∨ 4 ≤ n then c
  else
    let was := c.io.bit (dAddr n 0) 7
    let old := c.dmaReq n
    let on := v.getLsbD 7
    if was ∧ ¬ on then
      let c := c.dmaDrop n
      { c with io := c.io.wr (dAddr n 0) (v &&& 0xBF#8) }
    else
      let c := { c with io := c.io.wr (dAddr n 0) (v &&& 0xBF#8) }
      if ¬ was ∧ on then
        if (c.stream n).phase = .drain then c.setStream n fun s => { s with restart := true }
        else c.dmaStart n
      else c.setStream n fun s => { s with phase := s.phase.paced old (v.toNat % 64) }

/-! ### The blitter -/

/-- The fields of a command (R268). -/
def cmdField (cmd : List Byte) (off len : Nat) : Nat := leNat ((cmd.drop off).take len)
def cmdOp (cmd : List Byte) : Nat := cmdField cmd 0 1 / 16
def cmdRop (cmd : List Byte) : Nat := cmdField cmd 0 1 % 16
def cmdFlags (cmd : List Byte) : Nat := cmdField cmd 1 1
def cmdFmt (cmd : List Byte) : Nat := cmdField cmd 2 1 % 8

/-- The depth of a format (R267). -/
def fmtDepth (fmt : Nat) : Nat := 2 ^ fmt

/-- R267: a base and a pitch that a format allows. -/
def surfaceOk (fmt base pitch : Nat) : Bool :=
  if fmt < 3 then decide (base % 4 = 0 ∧ pitch % 4 = 0 ∧ 4 ≤ pitch ∧ pitch ≤ 16380)
  else if fmt = 3 then decide (1 ≤ pitch ∧ pitch ≤ 16383)
  else if fmt = 4 then decide (base % 2 = 0 ∧ pitch % 2 = 0 ∧ 2 ≤ pitch ∧ pitch ≤ 16382)
  else false

/-- The byte that holds pixel (x, y) of a surface (R267). -/
def pixelAddr (base pitch d x y : Nat) : Nat := (base + y * pitch + x * d / 8) % 0x80000

/-- A pixel's value (R267). -/
def getPixel (m : Bytes) (base pitch d x y : Nat) : Nat :=
  let a := pixelAddr base pitch d x y
  if d = 16 then (m.rd a).toNat + 256 * (m.rd ((a + 1) % 0x80000)).toNat
  else (m.rd a).toNat / 2 ^ (8 - d - x * d % 8) % 2 ^ d

def setPixel (m : Bytes) (base pitch d x y v : Nat) : Bytes :=
  let a := pixelAddr base pitch d x y
  if d = 16 then (m.wr a (BitVec.ofNat 8 v)).wr ((a + 1) % 0x80000) (BitVec.ofNat 8 (v / 256))
  else
    let sh := 8 - d - x * d % 8
    let old := (m.rd a).toNat
    m.wr a (BitVec.ofNat 8 (old - old / 2 ^ sh % 2 ^ d * 2 ^ sh + v % 2 ^ d * 2 ^ sh))

/-- R269: the raster operation, bit by bit. -/
def ropBits (rop d s t : Nat) : Nat :=
  (List.range d).foldl (fun v i =>
    if rop.testBit (2 * (s.testBit i).toNat + (t.testBit i).toNat) then v + 2 ^ i else v) 0

/-- The clip rectangles that a command enables; register mode uses rectangle 0 only (R268, R270). -/
def Cell.clipsOf (c : Cell) (cmd : List Byte) : Option (List Clip) :=
  let mask := if c.io.bit 0xE640 7 then cmdFlags cmd % 16 else cmdFlags cmd % 2
  if mask = 0 then none
  else some ((List.range 4).filterMap fun r => if mask.testBit r then c.blitter.clips[r]? else none)

def inClips (clips : Option (List Clip)) (x y : Nat) : Bool :=
  match clips with
  | none => true
  | some l => l.any fun r => decide (r.x0 ≤ x ∧ x < r.xEnd ∧ r.y0 ≤ y ∧ y < r.yEnd)

/-- The clip box's membership (R275): inside the bounding box of the enabled rectangles. -/
def inClipBox (clips : Option (List Clip)) (x y : Nat) : Bool :=
  match clips with
  | none => true
  | some [] => true
  | some (r :: t) =>
    let b := t.foldl (fun b r => { x0 := min b.x0 r.x0, y0 := min b.y0 r.y0
                                   xEnd := max b.xEnd r.xEnd, yEnd := max b.yEnd r.yEnd }) r
    decide (b.x0 ≤ x ∧ x < b.xEnd ∧ b.y0 ≤ y ∧ y < b.yEnd)

/-- The pixels of LINE in order (R271). -/
def linePixels (sx sy : Int) (ddx ddy : Int) : Nat → Int → Int → Int → List (Nat × Nat)
  | 0, x, y, _ => [(x.toNat, y.toNat)]
  | n + 1, x, y, err =>
    let e2 := 2 * err
    let a := decide (-ddy < e2)
    let b := decide (e2 < ddx)
    let err := (if a then err - ddy else err) + (if b then ddx else 0)
    (x.toNat, y.toNat) ::
      linePixels sx sy ddx ddy n (if a then x + sx else x) (if b then y + sy else y) err

def signOf (v : Int) : Int := if v < 0 then -1 else if v = 0 then 0 else 1

/-- The operations that draw a rectangle, and those with a source (R268). -/
def isRectOp (op : Nat) : Bool := op == 1 || op == 2 || op == 3 || op == 5 || op == 6
def isDrawing (op : Nat) : Bool := isRectOp op || op == 4
def hasSource (op : Nat) : Bool := op == 1 || op == 5 || op == 6

/-- A drawing command's fields. -/
structure Draw where
  op : Nat
  rop : Nat
  d : Nat
  dBase : Nat
  dPitch : Nat
  sBase : Nat
  sPitch : Nat
  sd : Nat
  dx : Nat
  dy : Nat
  w : Nat
  h : Nat
  sx : Nat
  sy : Nat
  fg : Nat
  bg : Nat
  transp : Bool
  same : Bool

def drawOf (cmd : List Byte) : Draw :=
  let op := cmdOp cmd
  let fmt := cmdFmt cmd
  let d := fmtDepth fmt
  let dBase := cmdField cmd 4 4
  let dPitch := cmdField cmd 8 2
  let sBase := cmdField cmd 12 4
  let sPitch := cmdField cmd 10 2
  { op := op, rop := cmdRop cmd, d := d, dBase := dBase, dPitch := dPitch, sBase := sBase
    sPitch := sPitch, sd := if op = 6 then 1 else d
    dx := cmdField cmd 0x10 2, dy := cmdField cmd 0x12 2, w := cmdField cmd 0x14 2
    h := cmdField cmd 0x16 2, sx := cmdField cmd 0x18 2, sy := cmdField cmd 0x1A 2
    fg := cmdField cmd 0x1C 2 % 2 ^ d, bg := cmdField cmd 0x1E 2 % 2 ^ d
    transp := (cmdFlags cmd).testBit 6
    same := dBase == sBase && dPitch == sPitch && (op != 6 || fmt == 0) }

/-- The columns of a line in the order of R272, and whether the lines run bottom-up. -/
def Draw.columns (g : Draw) : List Nat :=
  let xs := List.range g.w
  if (g.op = 1 ∨ g.op = 5) ∧ g.same ∧ g.dy = g.sy ∧ g.sx < g.dx then xs.reverse else xs

def Draw.rows (g : Draw) : List Nat :=
  let ys := List.range g.h
  if (g.op = 1 ∨ g.op = 5) ∧ g.same ∧ g.sy < g.dy then ys.reverse else ys

/-- Neighbouring items with the same key. -/
def groupBy (key : Nat → Nat) : List Nat → List (List Nat)
  | [] => []
  | x :: t =>
    match groupBy key t with
    | (y :: g) :: rest => if key x = key y then (x :: y :: g) :: rest else [x] :: (y :: g) :: rest
    | rest => [x] :: rest

/-- The work of a drawing command, in order: each unit is a destination word of a line of the clip
box, or a pixel of a LINE, as offsets (i, j) or absolute pixels (R271, R272, R275). -/
def Draw.units (g : Draw) (clips : Option (List Clip)) : List (List (Nat × Nat)) :=
  if g.op = 4 then
    let ddx : Int := ((g.sx : Int) - g.dx).natAbs
    let ddy : Int := ((g.sy : Int) - g.dy).natAbs
    (linePixels (signOf ((g.sx : Int) - g.dx)) (signOf ((g.sy : Int) - g.dy)) ddx ddy
      (max ddx ddy).toNat g.dx g.dy (ddx - ddy)).map fun p => [p]
  else
    g.rows.flatMap fun j =>
      let xs := g.columns.filter fun i => inClipBox clips (g.dx + i) (g.dy + j)
      (groupBy (fun i => pixelAddr g.dBase g.dPitch g.d (g.dx + i) (g.dy + j) / 4) xs).map fun u =>
        u.map fun i => (i, j)

/-- The source value of a pixel; `none` leaves it unwritten (R268). -/
def Draw.source (g : Draw) (m : Bytes) (pattern : List Byte) (i j : Nat) : Option Nat :=
  let two (bit : Bool) : Option Nat :=
    if bit then some g.fg else if g.transp then none else some g.bg
  match g.op with
  | 1 => some (getPixel m g.sBase g.sPitch g.d (g.sx + i) (g.sy + j))
  | 5 =>
    let s := getPixel m g.sBase g.sPitch g.d (g.sx + i) (g.sy + j)
    if s = g.fg then none else some s
  | 3 => two ((pattern.getD ((g.dy + j) % 8) 0#8).getLsbD (7 - (g.dx + i) % 8))
  | 6 => two (getPixel m g.sBase g.sPitch 1 (g.sx + i) (g.sy + j) = 1)
  | _ => some g.fg

/-- One unit drawn: its sources are read before its pixels are written (R272). -/
def Draw.unit (g : Draw) (clips : Option (List Clip)) (pattern : List Byte) (m : Bytes)
    (u : List (Nat × Nat)) : Bytes :=
  u.foldl (fun m' p =>
    let x := if g.op = 4 then p.1 else g.dx + p.1
    let y := if g.op = 4 then p.2 else g.dy + p.2
    if ¬ inClips clips x y then m'
    else match g.source m pattern p.1 p.2 with
      | none => m'
      | some s =>
        let t := getPixel m' g.dBase g.dPitch g.d x y
        setPixel m' g.dBase g.dPitch g.d x y (ropBits g.rop g.d s t)) m

/-- The bytes of a pixel. -/
def pixelBytesAt (base pitch d x y : Nat) : List Nat :=
  let a := pixelAddr base pitch d x y
  if d = 16 then [a, (a + 1) % 0x80000] else [a]

/-- The pixels that a command could write, within the clip box (R273). -/
def Draw.targets (g : Draw) (clips : Option (List Clip)) : List (Nat × Nat) :=
  (g.units clips).flatten.filterMap fun p =>
    let x := if g.op = 4 then p.1 else g.dx + p.1
    let y := if g.op = 4 then p.2 else g.dy + p.2
    if inClipBox clips x y then some (x, y) else none

/-- R273: the code of the first check that fails. -/
def Cell.blitCheck (c : Cell) (cmd : List Byte) : Option Nat :=
  let op := cmdOp cmd
  let list := c.io.bit 0xE640 7
  let reserved :=
    (cmdFlags cmd).testBit 4 || cmdField cmd 2 1 / 8 != 0 || cmdField cmd 3 1 != 0 ||
    bitsOf (cmdField cmd 4 4) 31 19 != 0 || bitsOf (cmdField cmd 8 2) 15 14 != 0 ||
    bitsOf (cmdField cmd 10 2) 15 14 != 0 || bitsOf (cmdField cmd 12 4) 31 19 != 0 ||
    bitsOf (cmdField cmd 0x10 2) 15 12 != 0 || bitsOf (cmdField cmd 0x12 2) 15 12 != 0 ||
    bitsOf (cmdField cmd 0x14 2) 15 13 != 0 || bitsOf (cmdField cmd 0x16 2) 15 13 != 0 ||
    bitsOf (cmdField cmd 0x18 2) 15 12 != 0 || bitsOf (cmdField cmd 0x1A 2) 15 12 != 0
  if (7 ≤ op ∧ op ≤ 13) ∨ reserved ∨ (14 ≤ op ∧ ¬ list) ∨
      (op = 14 ∧ bitsOf (cmdField cmd 0x18 2) 11 2 ≠ 0) then some 1
  else if ¬ isDrawing op then none
  else
    let g := drawOf cmd
    let fmt := cmdFmt cmd
    let clips := c.clipsOf cmd
    if ¬ surfaceOk fmt g.dBase g.dPitch ∨
        (hasSource op ∧ ¬ surfaceOk (if op = 6 then 0 else fmt) g.sBase g.sPitch) then some 2
    else if isRectOp op ∧ ¬ (1 ≤ g.w ∧ g.w ≤ 4096 ∧ 1 ≤ g.h ∧ g.h ≤ 4096) then some 3
    else
      let targets := g.targets clips
      let writes := targets.flatMap fun p => pixelBytesAt g.dBase g.dPitch g.d p.1 p.2
      let reads := if ¬ hasSource op ∨ g.same then []
        else targets.flatMap fun p =>
          pixelBytesAt g.sBase g.sPitch g.sd (g.sx + (p.1 - g.dx)) (g.sy + (p.2 - g.dy))
      if reads.any (fun a => writes.contains a) then some 4
      else if writes.any c.bulkRefused then some 5
      else none

/-- A command that the checks refuse (R273). -/
def Cell.blitRefuse (c : Cell) (code : Nat) : Cell :=
  { c with
    io := (c.io.setBit 0xE641 1 true).wr 0xE642 (BitVec.ofNat 8 code)
    blitter := { c.blitter with phase := .idle } }.raise srcBltErr

/-- A checked command starts (R274, R275). -/
def Cell.blitStart (c : Cell) (cmd : List Byte) : Cell :=
  match c.blitCheck cmd with
  | some code => c.blitRefuse code
  | none =>
    let base := cmdField cmd 12 4
    { c with blitter := { c.blitter with
        phase := .run, cmd := cmd, pos := 0
        pattern := (List.range 8).map fun i => c.mem.rd ((base + i) % 0x80000) } }

/-- A write of 1 to GO (R274). -/
def Cell.blitGo (c : Cell) : Cell :=
  if c.blitter.busy then { c with io := c.io.setBit 0xE641 2 true }
  else if c.io.bit 0xE640 7 then
    let pc := c.io.rdN 0xE644 3
    { c with blitter := { c.blitter with phase := .fetch, pc := pc }
             io := c.io.wrN 0xE648 3 (pc / 32 * 32) }
  else c.blitStart (c.io.block 0xE600 32)

/-- List mode: the next command is fetched and checked (R274). -/
def Cell.blitFetch (c : Cell) : Cell :=
  if c.blitter.phase ≠ .fetch ∨ ¬ c.portFree 4 then c
  else
    let pc := c.blitter.pc
    let cmd := (List.range 32).map fun i => c.mem.rd ((pc + i) % 0x80000)
    { c with io := (c.io.put 0xE600 cmd).wrN 0xE648 3 (pc / 32 * 32 % 0x80000) }.blitStart cmd

/-- A drawing command of operation `op`: its words or pixels, all that remain or `units` of them
(R268 to R272). -/
def Cell.blitDraw (c : Cell) (op : Nat) (units : Option Nat) : Cell :=
  let b := c.blitter
  if b.phase ≠ .run ∨ cmdOp b.cmd ≠ op ∨ ¬ c.portFree 4 then c
  else
    let g := drawOf b.cmd
    let clips := c.clipsOf b.cmd
    let left := (g.units clips).drop b.pos
    let now := match units with
      | some k => left.take k
      | none => left
    let pos := b.pos + now.length
    { c with
      mem := now.foldl (g.unit clips b.pattern) c.mem
      blitter := { b with pos := pos, phase := if now.length = left.length then .finished else .run } }

/-- NOP (R268). -/
def Cell.blitNop (c : Cell) : Cell :=
  if c.blitter.phase = .run ∧ cmdOp c.blitter.cmd = 0 then
    { c with blitter := { c.blitter with phase := .finished } } else c

/-- SETCLIP (R270). -/
def Cell.blitSetClip (c : Cell) : Cell :=
  let b := c.blitter
  if b.phase ≠ .run ∨ cmdOp b.cmd ≠ 14 then c
  else
    let f (off : Nat) : Nat := cmdField b.cmd off 2
    let r : Clip := { x0 := f 0x10, y0 := f 0x12, xEnd := f 0x10 + f 0x14, yEnd := f 0x12 + f 0x16 }
    { c with blitter := { b with phase := .finished
                                 clips := updateAt b.clips (f 0x18 % 4) fun _ => r } }

/-- JUMP: the next command is at SBASE (R268). -/
def Cell.blitJump (c : Cell) : Cell :=
  let b := c.blitter
  if b.phase = .run ∧ cmdOp b.cmd = 15 then { c with blitter := { b with phase := .finished } } else c

/-- The end of a command (R274). -/
def Cell.blitEnd (c : Cell) : Cell :=
  let b := c.blitter
  if b.phase ≠ .finished then c
  else
    let list := c.io.bit 0xE640 7
    let stop := (cmdFlags b.cmd).testBit 5
    let irq := (cmdFlags b.cmd).testBit 7 || (list && stop)
    let ends := !list || stop
    let next := if cmdOp b.cmd = 15 then cmdField b.cmd 12 4 else (b.pc + 32) % 0x80000
    let c := { c with blitter := { b with
      phase := if ends then .idle else .fetch, pc := if ends then b.pc else next } }
    if irq then { c with io := c.io.setBit 0xE641 0 true }.raise srcBlt else c

/-- A write of 1 to ABORT (R274): the work ends after the words or pixels completed. -/
def Cell.blitAbort (c : Cell) : Cell :=
  { c with blitter := { c.blitter with phase := .idle } }

/-- A write of a byte of CLIPr (R276). -/
def Cell.clipWrite (c : Cell) (a : Nat) (v : Byte) : Cell :=
  let set (old : Nat) : Nat :=
    if a % 2 = 0 then old / 256 * 256 + v.toNat else old % 256 + v.toNat % 16 * 256
  let inc (old : Nat) : Nat := set ((old + 0xFFF) % 0x1000) + 1
  let f (k : Clip) : Clip :=
    match (a - 0xE620) % 8 / 2 with
    | 0 => { k with x0 := set k.x0 }
    | 1 => { k with y0 := set k.y0 }
    | 2 => { k with xEnd := inc k.xEnd }
    | _ => { k with yEnd := inc k.yEnd }
  { c with blitter := { c.blitter with clips := updateAt c.blitter.clips ((a - 0xE620) / 8) f } }

/-! ### The whole I/O page -/

/-- A read of an I/O register by the core, with its effects. -/
def Cell.ioLoad (c : Cell) (a : Nat) : Byte × Cell := c.ioLoadBase a

/-- A write of a DMA register (R284). -/
def Cell.storeDma (c : Cell) (l : IoLoc) (a : Nat) (v : Byte) : Cell :=
  let n := (a - 0xE500) / 0x10
  let o := (a - 0xE500) % 0x10
  if 0xE540 ≤ a then c.plainWrite l a v
  else if o = 0 then c.dmaCtl n v
  else if o = 1 then c.plainWrite l a v
  else if o < 5 then c.descPtrWrite n [(o - 2, v)]
  else if o = 5 then c.crSize n v
  else if o < 9 then c.crBase n [(o - 6, v)]
  else if o < 0x0B then c
  else c.crRead n [(o - 0x0B, v)]

/-- A write of a blitter register (R274, R276). -/
def Cell.storeBlit (c : Cell) (l : IoLoc) (a : Nat) (v : Byte) : Cell :=
  if a < 0xE620 then (if c.io.bit 0xE640 7 then c else c.plainWrite l a v)
  else if a < 0xE640 then c.clipWrite a v
  else if a = 0xE640 then
    -- a GO written with BUSY at 1 is lost, with an ABORT beside it too
    let busy := c.blitter.busy
    let c := if v.getLsbD 0 then c.blitGo else c
    if v.getLsbD 1 ∧ busy then c.blitAbort else c
  else if l.reg.rl ∨ a = 0xE642 then c
  else c.plainWrite l a v

/-- A write of an I/O register by the core. -/
def Cell.ioStore (c : Cell) (a : Nat) (v : Byte) : Cell :=
  match locate a with
  | none => c.ioStoreBase a v
  | some l =>
    if 0xE500 ≤ a ∧ a < 0xE600 then c.storeDma l a v
    else if 0xE600 ≤ a ∧ a < 0xE700 then c.storeBlit l a v
    else c.ioStoreBase a v

/-- The three bytes of a register that is written whole, with their offsets. -/
def offsets (v : BitVec 24) : List (Nat × Byte) :=
  [(0, v.setWidth 8), (1, (v >>> 8).setWidth 8), (2, (v >>> 16).setWidth 8)]

end Sys2Proof.Machine
end

