-- ==== Sys2Proof/Machine/Flags.lean ====
section
/-! DEFINITION. The arithmetic of the Voleth core and its flags: R91 to R99, R107 and R506. -/

namespace Sys2Proof.Machine

/-- What an operation does to STATUS.H, N, V, C and Z: `none` leaves the flag unchanged (R93). -/
structure FlagUpdate where
  h : Option Bool := none
  n : Option Bool := none
  v : Option Bool := none
  c : Option Bool := none
  z : Option Bool := none
deriving DecidableEq, Repr

/-- A result and what it does to the flags. -/
structure Result (w : Nat) where
  val : BitVec w
  flags : FlagUpdate
deriving DecidableEq, Repr

/-- STATUS with bit `i` set to `b` when `b` is given. -/
def setFlag (st : Byte) (i : Nat) (b : Option Bool) : Byte :=
  match b with
  | none => st
  | some true => st ||| BitVec.ofNat 8 (2 ^ i)
  | some false => st &&& ~~~ BitVec.ofNat 8 (2 ^ i)

/-- STATUS after a flag update (R66: H bit 4, N bit 3, V bit 2, C bit 1, Z bit 0). -/
def FlagUpdate.apply (f : FlagUpdate) (st : Byte) : Byte :=
  setFlag (setFlag (setFlag (setFlag (setFlag st 4 f.h) 3 f.n) 2 f.v) 1 f.c) 0 f.z

/-- N and Z from a result (the "*" of R93). -/
def nzOf {w : Nat} (r : BitVec w) : FlagUpdate :=
  { n := some r.msb, z := some (r == 0#w) }

/-- Addition with carry in; H by R506 from the low `w - 4` bits. -/
def addc {w : Nat} (a b : BitVec w) (cin : Bool) : Result w :=
  let s := a.toNat + b.toNat + cin.toNat
  let r := BitVec.ofNat w s
  let m := 2 ^ (w - 4)
  { val := r
    flags :=
      { h := some (decide (m ≤ a.toNat % m + b.toNat % m + cin.toNat))
        n := some r.msb
        v := some (decide (r.toInt ≠ a.toInt + b.toInt + cin.toNat))
        c := some (decide (2 ^ w ≤ s))
        z := some (r == 0#w) } }

/-- Subtraction with borrow in; H by R506 from the low `w - 4` bits. -/
def subc {w : Nat} (a b : BitVec w) (cin : Bool) : Result w :=
  let r := a - b - BitVec.ofNat w cin.toNat
  let m := 2 ^ (w - 4)
  { val := r
    flags :=
      { h := some (decide (a.toNat % m < b.toNat % m + cin.toNat))
        n := some r.msb
        v := some (decide (r.toInt ≠ a.toInt - b.toInt - cin.toNat))
        c := some (decide (a.toNat < b.toNat + cin.toNat))
        z := some (r == 0#w) } }

/-- A logical result: V and C are forced to 0 (R93). -/
def logic {w : Nat} (r : BitVec w) : Result w :=
  { val := r, flags := { nzOf r with v := some false, c := some false } }

/-- The ALU and ALUW operations (R91). CMP answers the difference, which its caller discards. -/
def aluOp {w : Nat} (op : AluOp) (a b : BitVec w) (carry : Bool) : Result w :=
  match op with
  | .add => addc a b false
  | .adc => addc a b carry
  | .sub => subc a b false
  | .sbc => subc a b carry
  | .and => logic (a &&& b)
  | .or => logic (a ||| b)
  | .xor => logic (a ^^^ b)
  | .cmp => subc a b false

/-- INC and DEC: as ADD or SUB with 1, C unchanged (R93). -/
def incOp {w : Nat} (a : BitVec w) : Result w :=
  let r := addc a 1#w false
  { r with flags := { r.flags with c := none } }

def decOp {w : Nat} (a : BitVec w) : Result w :=
  let r := subc a 1#w false
  { r with flags := { r.flags with c := none } }

/-- NEG and NEGW: H as SUB from 0, V when the operand is the most negative value, C when it is
neither that value nor 0 (R93, R94). -/
def negOp {w : Nat} (a : BitVec w) : Result w :=
  let r := subc 0#w a false
  let low := BitVec.intMin w
  { val := r.val
    flags := { r.flags with v := some (a == low), c := some (a != 0#w && a != low) } }

/-- NOT: V forced to 0, H and C unchanged. -/
def notOp {w : Nat} (a : BitVec w) : Result w :=
  { val := ~~~ a, flags := { nzOf (~~~ a) with v := some false } }

/-- CLR: N, V and C 0, Z 1. -/
def clrOp (w : Nat) : Result w :=
  { val := 0#w, flags := { n := some false, v := some false, c := some false, z := some true } }

/-- TST: N and Z from the operand, V and C 0. -/
def tstOp {w : Nat} (a : BitVec w) : Result w := logic a

/-- SWAPN exchanges the nibbles of a byte. -/
def swapnOp (a : Byte) : Result 8 :=
  let r := a.rotateLeft 4
  { val := r, flags := nzOf r }

/-- SEXW fills the high register with bit 7 of the low one. -/
def sexOp (a : Half) : Result 16 :=
  let r := (a.setWidth 8).signExtend 16
  { val := r, flags := nzOf r }

/-- ZEXW clears the high register. -/
def zexOp (a : Half) : Result 16 :=
  let r := (a.setWidth 8).setWidth 16
  { val := r, flags := nzOf r }

def unOp (op : UnOp) (a : Byte) : Result 8 :=
  match op with
  | .inc => incOp a
  | .dec => decOp a
  | .neg => negOp a
  | .not => notOp a
  | .clr => clrOp 8
  | .tst => tstOp a
  | .swapn => swapnOp a

def unwOp (op : UnwOp) (a : Half) : Result 16 :=
  match op with
  | .inc => incOp a
  | .dec => decOp a
  | .neg => negOp a
  | .not => notOp a
  | .clr => clrOp 16
  | .tst => tstOp a
  | .sex => sexOp a
  | .zex => zexOp a

/-- A rotation through carry of the `w + 1` bits C:a, leftwards by `k` (R95). -/
def rotateCarry {w : Nat} (a : BitVec w) (carry : Bool) (k : Nat) : BitVec w × Bool :=
  let x := (BitVec.cons carry a).rotateLeft k
  (x.setWidth w, x.msb)

/-- The value and the carry of a shift or rotate by a count of 1 or more (R94, R95). -/
def shiftValue {w : Nat} (op : ShOp) (a : BitVec w) (count : Nat) (carry : Bool) :
    BitVec w × Bool :=
  match op with
  | .shl => (a <<< count, decide (count ≤ w) && a.getLsbD (w - count))
  | .shr => (a >>> count, a.getLsbD (count - 1))
  | .sar => (a.sshiftRight count, if count < w then a.getLsbD (count - 1) else a.msb)
  | .rol => let r := a.rotateLeft (count % w); (r, r.getLsbD 0)
  | .ror => let r := a.rotateRight (count % w); (r, r.msb)
  | .rcl => rotateCarry a carry (count % (w + 1))
  | .rcr => rotateCarry a carry ((w + 1 - count % (w + 1)) % (w + 1))

/-- A shift or rotate by a full-byte count; a count of 0 leaves H, V and C unchanged (R94, R95). -/
def shiftOp {w : Nat} (op : ShOp) (a : BitVec w) (count : Byte) (carry : Bool) : Result w :=
  if count = 0#8 then { val := a, flags := nzOf a }
  else
    let r := shiftValue op a count.toNat carry
    { val := r.1, flags := { nzOf r.1 with v := some false, c := some r.2 } }

/-- MUL and MULS: the 16-bit product and its flags (R93, R96). -/
def mulOp (signed : Bool) (a b : Byte) : Result 16 :=
  if signed then
    let p := a.toInt * b.toInt
    let r := BitVec.ofInt 16 p
    let out := decide (p < -128 ∨ 127 < p)
    { val := r, flags := { nzOf r with v := some out, c := some out } }
  else
    let r := BitVec.ofNat 16 (a.toNat * b.toNat)
    { val := r
      flags := { nzOf r with v := some false, c := some (decide (256 ≤ a.toNat * b.toNat)) } }

/-- The quotient, the remainder, V and C of DIV and DIVS (R94, R96). -/
def divValue (signed : Bool) (a : Half) (b : Byte) : Byte × Byte × Bool × Bool :=
  if b = 0#8 then (0xFF#8, a.setWidth 8, true, true)
  else if signed then
    let q := a.toInt.tdiv b.toInt
    if q < -128 ∨ 127 < q then (0x80#8, 0#8, true, false)
    else (BitVec.ofInt 8 q, BitVec.ofInt 8 (a.toInt.tmod b.toInt), false, false)
  else
    let q := a.toNat / b.toNat
    if 255 < q then (0xFF#8, 0#8, true, false)
    else (BitVec.ofNat 8 q, BitVec.ofNat 8 (a.toNat % b.toNat), false, false)

/-- DIV and DIVS: quotient in the low register, remainder in the high one (R96). -/
def divOp (signed : Bool) (a : Half) (b : Byte) : Result 16 :=
  let d := divValue signed a b
  { val := d.2.1 ++ d.1
    flags := { n := some d.1.msb, v := some d.2.2.1, c := some d.2.2.2, z := some (d.1 == 0#8) } }

/-- BFX: bits `[p + k - 1 : p]` of the source, extended to the full width (R97). -/
def bfxOp {w : Nat} (src : BitVec w) (p k : Nat) (signed : Bool) : Result w :=
  let f := src.extractLsb' p k
  let r := if signed then f.signExtend w else f.setWidth w
  { val := r, flags := nzOf r }

/-- BFI: bits `[p + k - 1 : p]` of the destination from bits `[k - 1 : 0]` of the source (R97). -/
def bfiOp {w : Nat} (dst src : BitVec w) (p k : Nat) : Result w :=
  let m := ((BitVec.allOnes k).setWidth w) <<< p
  let r := (dst &&& ~~~ m) ||| ((src <<< p) &&& m)
  { val := r, flags := nzOf r }

/-- The number of leading zero bits (R98). -/
def leadingZeros {w : Nat} (a : BitVec w) : Nat :=
  if a = 0#w then w else w - 1 - Nat.log2 a.toNat

/-- CLZ: N 0, C when the source is 0, Z when the count is 0 (R93). -/
def clzOp {w : Nat} (a : BitVec w) : Result 8 :=
  let k := leadingZeros a
  { val := BitVec.ofNat 8 k
    flags := { n := some false, c := some (a == 0#w), z := some (k == 0) } }

/-- BPERM: destination byte i is source byte `sel [2i + 1 : 2i]` (R99). -/
def bpermOp (src : Word) (sel : Byte) : Word :=
  let pick (i : Nat) : Byte := src.extractLsb' (8 * (sel.extractLsb' (2 * i) 2).toNat) 8
  pick 3 ++ pick 2 ++ pick 1 ++ pick 0

/-- The condition `cond` of R102, tested on N, V, C and Z. -/
def condHolds (cond : BitVec 4) (n v c z : Bool) : Bool :=
  match cond.toNat with
  | 0 => true
  | 1 => false
  | 2 => z
  | 3 => !z
  | 4 => c
  | 5 => !c
  | 6 => n
  | 7 => !n
  | 8 => v
  | 9 => !v
  | 10 => !c && !z
  | 11 => c || z
  | 12 => n == v
  | 13 => n != v
  | 14 => !z && (n == v)
  | _ => z || (n != v)

end Sys2Proof.Machine
end

