-- ==== Sys2Proof/Machine/CoreExc.lean ====
section
/-! DEFINITION. The Voleth core's registers, its address space, and taking an exception:
R56 to R80 and R113 to R130. -/

namespace Sys2Proof.Machine

/-- STATUS.SV, GM and LP (R66). -/
def Core.supervisor (k : Core) : Bool := k.status.getLsbD 6
def Core.masked (k : Core) : Bool := k.status.getLsbD 7
def Core.looping (k : Core) : Bool := k.status.getLsbD 5
def Core.flagN (k : Core) : Bool := k.status.getLsbD 3
def Core.flagV (k : Core) : Bool := k.status.getLsbD 2
def Core.flagC (k : Core) : Bool := k.status.getLsbD 1
def Core.flagZ (k : Core) : Bool := k.status.getLsbD 0

/-- The physical index of windowed register `f` (8 to 23) under CWP (R59). -/
def Core.physical (k : Core) (f : Nat) : Nat := (12 * k.cwp + (f - 8)) % 240

/-- The register of field value `f`, 0 to 23 (R57). -/
def Core.reg (k : Core) (f : Nat) : Byte :=
  if f < 8 then k.g.rd f else k.p.rd (k.physical f)

def Core.setReg (k : Core) (f : Nat) (v : Byte) : Core :=
  if f < 8 then { k with g := k.g.wr f v } else { k with p := k.p.wr (k.physical f) v }

/-- The pair whose low register has field value `f` (R58). -/
def Core.pair (k : Core) (f : Nat) : Half := k.reg (f + 1) ++ k.reg f

def Core.setPair (k : Core) (f : Nat) (v : Half) : Core :=
  (k.setReg f (v.setWidth 8)).setReg (f + 1) (v.extractLsb' 8 8)

/-- The quad whose lowest register has field value `f` (R58). -/
def Core.quad (k : Core) (f : Nat) : Word := k.pair (f + 2) ++ k.pair f

def Core.setQuad (k : Core) (f : Nat) (v : Word) : Core :=
  (k.setPair f (v.setWidth 16)).setPair (f + 2) (v.extractLsb' 16 16)

/-- The stack pointer in use (R69). -/
def Core.sp (k : Core) : Half := if k.supervisor then k.ssp else k.usp

def Core.setSp (k : Core) (v : Half) : Core :=
  if k.supervisor then { k with ssp := v } else { k with usp := v }

def Core.setFlags (k : Core) (f : FlagUpdate) : Core := { k with status := f.apply k.status }

/-- CWP and WRES after the window move of a CALL or an exception entry (R60, R61). -/
def Core.windowUp (k : Core) : Core := { k with cwp := (k.cwp + 1) % 20, wres := k.wres + 1 }

/-- CWP and WRES after the move back of RET and RTE (R60). -/
def Core.windowDown (k : Core) : Core := { k with cwp := (k.cwp + 19) % 20, wres := k.wres - 1 }

/-- A register field of 8 raw bits, its top bits required to be 0 (R57, R87). -/
def regOf (b : Byte) : Option Nat := if b.toNat < 24 then some b.toNat else none

/-- A pair field of 8 raw bits: the field value of its low register (R57, R87). -/
def pairOf (b : Byte) : Option Nat := if b.toNat < 12 then some (2 * b.toNat) else none

/-- A quad field of 3 bits: the field value of its lowest register (R57). -/
def quadOf (b : BitVec 3) : Option Nat := if b.toNat < 6 then some (4 * b.toNat) else none

/-- What an access at a core address reaches (R71, R72). -/
inductive Place where
  | mem (addr : Nat)
  | io (addr : Nat)
deriving DecidableEq, Repr

/-- The window k of a core address below 0E000h, for BANK_PROT (R71). -/
def windowOf (a : Half) : Nat :=
  if a.toNat < 0x4000 then 0 else if a.toNat < 0x8000 then 1 else if a.toNat < 0xC000 then 2 else 3

/-- R72: the cell address, or the I/O register, that a core address reaches. -/
def Cell.place (c : Cell) (a : Half) : Place :=
  let n := a.toNat
  if n < 0xC000 then .mem ((c.io.rd (0xE010 + windowOf a)).toNat % 32 * 0x4000 + n % 0x4000)
  else if n < 0xE000 then .mem ((c.io.rd 0xE013).toNat % 64 * 0x2000 + (n - 0xC000))
  else if n < 0xF000 then .io n
  else .mem (0x70000 + n)

/-- The kinds of access that R75 and R77 tell apart. -/
inductive Access where
  | read | write | fetch
deriving DecidableEq, Repr

/-- The vector of the exception that refuses an access at `a`, by R75, R77 and R79. -/
def Cell.refusal (c : Cell) (kind : Access) (a : Half) : Option Nat :=
  let prot := c.io.rd 0xE014
  if ¬ c.core.supervisor ∧ (0xE000 ≤ a.toNat ∨ prot.getLsbD (windowOf a)) then some 2
  else if 0xE000 ≤ a.toNat then
    if a.toNat < 0xF000 ∧ kind = .fetch then some 3 else none
  else if kind = .write ∧ prot.getLsbD (4 + windowOf a) then some 3
  else none

/-- The first refusal among `n` accesses at consecutive addresses, low address first (R78). -/
def Cell.refusalN (c : Cell) (kind : Access) (a : Half) : Nat → Option Nat
  | 0 => none
  | n + 1 => match c.refusal kind a with
    | some v => some v
    | none => c.refusalN kind (a + 1) n

/-- A byte read at what a core address reaches, with the side effects of an I/O register's read. -/
def Cell.loadAt (c : Cell) (p : Place) : Byte × Cell :=
  match p with
  | .mem n => (c.mem.rd n, c)
  | .io n => c.ioLoad n

/-- A byte write at what a core address reaches. -/
def Cell.storeAt (c : Cell) (p : Place) (v : Byte) : Cell :=
  match p with
  | .mem n => { c with mem := c.mem.wr n v }
  | .io n => c.ioStore n v

/-- A byte read and a byte write at a core address. -/
def Cell.load (c : Cell) (a : Half) : Byte × Cell := c.loadAt (c.place a)
def Cell.store (c : Cell) (a : Half) (v : Byte) : Cell := c.storeAt (c.place a) v

/-- A pair read: low address first (R76, R78). -/
def Cell.loadPair (c : Cell) (a : Half) : Half × Cell :=
  let lo := c.load a
  let hi := lo.2.load (a + 1)
  (hi.1 ++ lo.1, hi.2)

def Cell.storePair (c : Cell) (a : Half) (v : Half) : Cell :=
  (c.store a (v.setWidth 8)).store (a + 1) (v.extractLsb' 8 8)

/-- The lockup of R128, with the record of R130: the causes, the failing cycle and the PC that
the entry was saving; the cycles of the entry up to it are busy (R155). -/
def Cell.lockUp (c : Cell) (first : Byte) (second : Nat) (cycle : Nat) (saved : Half) : Cell :=
  let k := c.core
  let c := { c with core := { k with lockup := true, waiting := false, busy := k.busy + cycle } }
  c.emit (.lockup { time := c.beam.ctime, first := first, second := second, cycle := cycle,
                    savedPc := saved, ssp := k.ssp, status := k.status, cwp := k.cwp,
                    wres := k.wres, wsaved := k.wsaved })

/-- The double fault that a frame store at `a` would be (R127). -/
def Cell.frameFault (c : Cell) (a : Half) : Option Nat :=
  if 0xE000 ≤ a.toNat ∧ a.toNat < 0xF000 then some 2
  else if a.toNat < 0xE000 ∧ (c.io.rd 0xE014).getLsbD (4 + windowOf a) then some 3
  else none

/-- One frame store of exception entry, or the cause of the double fault. -/
def Cell.frameStore (c : Cell) (a : Half) (v : Byte) : Except Nat Cell :=
  match c.frameFault a with
  | some cause => .error cause
  | none => .ok (c.store a v)

/-- Vector n, in the system page (R113). -/
def Cell.vector (c : Cell) (n : Nat) : Half := c.mem.rd (0x7FE01 + 2 * n) ++ c.mem.rd (0x7FE00 + 2 * n)

/-- R117, TAKING AN EXCEPTION: entry through vector `vec` with the cause `info`, saving `saved`.
A frame that cannot be stored, a full window file or a handler in the I/O page is a double fault
and locks the core up (R127). -/
def Cell.enter (c : Cell) (saved : Half) (vec : Nat) (info : Byte) : Cell :=
  let k := c.core
  if 19 ≤ k.wres then c.lockUp info 1 1 saved
  else
    let old := k.status
    let c1 := { c with core := { k.windowUp with status := old ||| 0x40#8, excInfo := info } }
    let sp := k.ssp
    match c1.frameStore (sp - 1) old with
    | .error e => c1.lockUp info e 2 saved
    | .ok c2 =>
      match c2.frameStore (sp - 2) (saved.extractLsb' 8 8) with
      | .error e => c2.lockUp info e 3 saved
      | .ok c3 =>
        match c3.frameStore (sp - 3) (saved.setWidth 8) with
        | .error e => c3.lockUp info e 4 saved
        | .ok c4 =>
          match c4.frameStore (sp - 4) info with
          | .error e => c4.lockUp info e 5 saved
          | .ok c5 =>
            let c5 := { c5 with core := { c5.core with ssp := sp - 4 } }
            let v := c5.vector vec
            if 0xE000 ≤ v.toNat ∧ v.toNat < 0xF000 then c5.lockUp info 4 6 saved
            else
              { c5 with
                core := { c5.core with
                  status := (c5.core.status ||| 0x80#8) &&& 0xDF#8
                  pc := v, slot := none, shadow := false, waiting := false
                  busy := c5.core.busy + 6, afterEntry := true } }

/-- The RETURN from an exception (R121): STATUS and PC from the frame, the window moved back. The
caller has made the checks of R122. -/
def Cell.leave (c : Cell) : Cell :=
  let k := c.core
  let lo := c.load (k.ssp + 1)
  let hi := lo.2.load (k.ssp + 2)
  let st := hi.2.load (k.ssp + 3)
  { st.2 with
    core := { st.2.core.windowDown with ssp := k.ssp + 4, pc := hi.1 ++ lo.1, status := st.1 } }

end Sys2Proof.Machine
end

