-- ==== Sys2Proof/Machine/Microcode.lean ====
section
/-! DEFINITION. The microinstructions of a customer opcode: R142 to R148. -/

namespace Sys2Proof.Machine

/-- What a UOP holds while it runs (R142): the cell as changed so far, T0 to T3 and OPB1 to OPB3
(keyed by their micro-register fields 18h to 1Eh), the micro flags, MRET, the charge addition, the
cycles taken, and whether a write of R144 has been made. `map` is the I/O page as the UOP found it: BANK0 to BANK3
and BANK_PROT as written by the UOP map no access of its own (R74). -/
structure MicroState where
  cell : Cell
  map : Bytes
  temps : Bytes
  mn : Bool
  mz : Bool
  mc : Bool
  mv : Bool
  mret : Nat
  charge : Nat
  cycles : Nat
  wrote : Bool

/-- The cause of an exception inside a UOP (R144). -/
inductive MicroCause where
  | fault | trap | refused (vec : Nat) | reserved | stepLimit
deriving DecidableEq, Repr

/-- UC_STAT.ORIG of a cause (R139). -/
def MicroCause.orig : MicroCause → Nat
  | .fault => 1
  | .trap => 2
  | .refused v => if v = 2 then 4 else 3
  | .reserved => 5
  | .stepLimit => 6

/-- What one microinstruction does: go on at a microcode address, end the UOP with the next PC and
whether control was transferred, or raise an exception. -/
inductive MicroNext where
  | goto (u : MicroState) (upc : Nat)
  | ends (u : MicroState) (next : Half) (transfer : Bool)
  | raises (u : MicroState) (cause : MicroCause)

/-- A read of micro-register `f` (R145). -/
def MicroState.get (u : MicroState) (f : Nat) : Byte :=
  if f < 0x18 then u.cell.core.reg f else if f < 0x1F then u.temps.rd f else 0#8

/-- A write of micro-register `f`, which is not OPB1 to OPB3; Z0 discards it. -/
def MicroState.set (u : MicroState) (f : Nat) (v : Byte) : MicroState :=
  if f < 0x18 then
    { u with cell := { u.cell with core := u.cell.core.setReg f v }, wrote := true }
  else if f < 0x1C then { u with temps := u.temps.wr f v }
  else u

def MicroState.getPair (u : MicroState) (f : Nat) : Half := u.get (f + 1) ++ u.get f

def MicroState.setPair (u : MicroState) (f : Nat) (v : Half) : MicroState :=
  (u.set f (v.setWidth 8)).set (f + 1) (v.extractLsb' 8 8)

/-- A field that may name a pair (R145). -/
def microPairOk (f : Nat) : Bool := f % 2 == 0 && f != 0x1E

/-- A field that may be written: not OPB1 to OPB3 (R145). -/
def microWritable (f : Nat) : Bool := f < 0x1C || f == 0x1F

/-- The micro flags after an ALU operation (R147). -/
def MicroState.setFlags (u : MicroState) (f : FlagUpdate) : MicroState :=
  { u with
    mn := f.n.getD u.mn, mv := f.v.getD u.mv, mc := f.c.getD u.mc, mz := f.z.getD u.mz }

/-- The ALU operation of a microinstruction on `w`-bit operands (R148); `cnt` is the shift count.
MOV sets N and Z from its operand, as the worked example of R148 shows (DEDUCED). -/
def microAlu {w : Nat} (op : Nat) (a b : BitVec w) (cnt : Byte) (carry : Bool) : Option (Result w) :=
  match op with
  | 0 => some (aluOp .add a b carry)
  | 1 => some (aluOp .adc a b carry)
  | 2 => some (aluOp .sub a b carry)
  | 3 => some (aluOp .sbc a b carry)
  | 4 => some (aluOp .and a b carry)
  | 5 => some (aluOp .or a b carry)
  | 6 => some (aluOp .xor a b carry)
  | 7 => some { val := b, flags := nzOf b }
  | 8 => some (aluOp .cmp a b carry)
  | 9 => some (shiftOp .shl a cnt carry)
  | 10 => some (shiftOp .shr a cnt carry)
  | 11 => some (shiftOp .sar a cnt carry)
  | 12 => some (shiftOp .rol a cnt carry)
  | 13 => some (shiftOp .ror a cnt carry)
  | _ => none

/-- Micro flags, and STATUS when F is 1 (R147). -/
def MicroState.finishAlu (u : MicroState) (fl : FlagUpdate) (writeStatus : Bool) : MicroState :=
  let u := u.setFlags fl
  if writeStatus then
    { u with cell := { u.cell with core := u.cell.core.setFlags fl }, wrote := true }
  else u

/-- Class 0h, and class 1h as a register form whose b is the immediate (R146, R147). -/
def microAluStep (u : MicroState) (upc : Nat) (wide : Bool) (op d a : Nat) (bReg : Option Nat)
    (imm : Byte) (f : Bool) : MicroNext :=
  let goOn (u : MicroState) : MicroNext := .goto { u with cycles := u.cycles + 1 } ((upc + 1) % 1024)
  let isShift := 9 ≤ op ∧ op ≤ 13
  if op = 8 ∨ microWritable d then
    if op = 14 then
      match bReg with
      | none => .raises u .reserved
      | some b =>
        if wide ∧ microPairOk d then
          let r := mulOp false (u.get a) (u.get b)
          let u' := (u.setPair d r.val).finishAlu r.flags f
          .goto { u' with cycles := u'.cycles + 2 } ((upc + 1) % 1024)
        else .raises u .reserved
    else if wide then
      let b := bReg.getD 0
      if microPairOk d ∧ microPairOk a ∧ (isShift ∨ microPairOk b) then
        match microAlu op (u.getPair a) (u.getPair b) (u.get b) u.mc with
        | none => .raises u .reserved
        | some r => goOn ((if op = 8 then u else u.setPair d r.val).finishAlu r.flags f)
      else .raises u .reserved
    else
      let bv := match bReg with
        | some b => u.get b
        | none => imm
      match microAlu op (u.get a) bv bv u.mc with
      | none => .raises u .reserved
      | some r => goOn ((if op = 8 then u else u.set d r.val).finishAlu r.flags f)
  else .raises u .reserved

/-- The cell with the windows as the UOP found them (R74); the mode is the present one (R147). -/
def MicroState.mapped (u : MicroState) : Cell := { u.cell with io := copyBytesTo u.map 0xE010 0xE010 5 u.cell.io }

/-- A byte read and a byte write at a core address, by the windows as the UOP found them. -/
def MicroState.load (u : MicroState) (a : Half) : Byte × MicroState :=
  let r := u.cell.loadAt (u.mapped.place a)
  (r.1, { u with cell := r.2 })

/-- A STORE to a register of the I/O page counts as a write of R144 like one to memory (DESIGN CHOICE, assumption
115). -/
def MicroState.store (u : MicroState) (a : Half) (v : Byte) : MicroState :=
  { u with cell := u.cell.storeAt (u.mapped.place a) v, wrote := true }

/-- Class 2h: LOAD and STORE (R147). -/
def microMemStep (u : MicroState) (upc : Nat) (store wide : Bool) (p r : Nat) (d8 : Byte)
    (post : Bool) : MicroNext :=
  let next := (upc + 1) % 1024
  let n := if wide then 2 else 1
  if ¬ microPairOk p ∨ (wide ∧ ¬ microPairOk r) ∨ (¬ store ∧ ¬ microWritable r) ∨
      (post ∧ ¬ microWritable p) then .raises u .reserved
  else
    let base := u.getPair p
    let a := base + d8.signExtend 16
    match u.mapped.refusalN (if store then .write else .read) a n with
    | some vec => .raises u (.refused vec)
    | none =>
      let bump (u : MicroState) : MicroState :=
        if post then u.setPair p (base + BitVec.ofNat 16 n) else u
      let u' :=
        if store then
          let low := u.store a (u.get r)
          bump (if wide then low.store (a + 1) (u.get (r + 1)) else low)
        else
          let low := u.load a
          if wide then
            let high := low.2.load (a + 1)
            (bump high.2).setPair r (high.1 ++ low.1)
          else (bump low.2).set r low.1
      .goto { u' with cycles := u'.cycles + n } next

/-- Whether special register `s` is 16 bits wide (R65). -/
def specialWide (s : Nat) : Bool := 4 ≤ s && s ≤ 8

/-- A special register's value, zero-extended (R65). -/
def Core.special (k : Core) (s : Nat) : Half :=
  match s with
  | 0 => k.status.setWidth 16
  | 1 => BitVec.ofNat 16 k.cwp
  | 2 => k.wsaved.setWidth 16
  | 3 => BitVec.ofNat 16 k.wres
  | 4 => k.ssp
  | 5 => k.usp
  | 6 => k.lcnt
  | 7 => k.lstart
  | 8 => k.lend
  | 9 => k.excInfo.setWidth 16
  | _ => 0#16

/-- A write of a special register other than CWP and WRES (R65 to R67). -/
def Core.setSpecial (k : Core) (s : Nat) (v : Half) : Core :=
  let b : Byte := v.setWidth 8
  match s with
  | 0 => if k.supervisor then { k with status := b }
    else { k with status := (k.status &&& 0xE0#8) ||| (b &&& 0x1F#8) }
  | 2 => { k with wsaved := b }
  | 4 => { k with ssp := v }
  | 5 => { k with usp := v }
  | 6 => { k with lcnt := v }
  | 7 => { k with lstart := v }
  | 8 => { k with lend := v }
  | 9 => { k with excInfo := b &&& 0xDF#8 }
  | _ => k

/-- The special registers that user mode may not access (R65). -/
def specialPrivileged (s : Nat) : Bool := s == 2 || s == 4 || s == 9

/-- Class 6h: SPECIAL (R147). A number that names no special register is a reserved
microinstruction (DEDUCED). -/
def microSpecialStep (u : MicroState) (upc : Nat) (write : Bool) (s r : Nat)
    (self next : Half) : MicroNext :=
  let wide := specialWide s || s == 0x80 || s == 0x81
  if (9 < s ∧ s ≠ 0x80 ∧ s ≠ 0x81) ∨ (write ∧ (s = 0x80 ∨ s = 0x81 ∨ s = 1 ∨ s = 3)) ∨
      (wide ∧ ¬ microPairOk r) ∨ (¬ write ∧ ¬ microWritable r) then .raises u .reserved
  else if specialPrivileged s ∧ ¬ u.cell.core.supervisor then .raises u (.refused 2)
  else
    let u' :=
      if write then
        let v : Half := if wide then u.getPair r else (u.get r).setWidth 16
        { u with cell := { u.cell with core := u.cell.core.setSpecial s v }, wrote := true }
      else
        let v := if s = 0x80 then self else if s = 0x81 then next else u.cell.core.special s
        if wide then u.setPair r v else u.set r (v.setWidth 8)
    .goto { u' with cycles := u'.cycles + 1 } ((upc + 1) % 1024)

/-- One microinstruction `w` at microcode address `upc` (R146, R147); `self` is the address of the
UOP and `next` the address after it. -/
def microStep (u : MicroState) (upc : Nat) (w : Word) (self next : Half) : MicroNext :=
  let fld (lo len : Nat) : Nat := (w.extractLsb' lo len).toNat
  let one (u : MicroState) : MicroState := { u with cycles := u.cycles + 1 }
  let up := (upc + 1) % 1024
  match fld 28 4 with
  | 0 => if fld 0 7 ≠ 0 then .raises u .reserved
    else microAluStep u upc (w.getLsbD 27) (fld 23 4) (fld 18 5) (fld 13 5) (some (fld 8 5)) 0#8
      (w.getLsbD 7)
  | 1 => if fld 0 4 ≠ 0 ∨ w.getLsbD 27 then .raises u .reserved
    else microAluStep u upc false (fld 23 4) (fld 18 5) (fld 13 5) none (w.extractLsb' 5 8)
      (w.getLsbD 4)
  | 2 => if fld 0 7 ≠ 0 then .raises u .reserved
    else microMemStep u upc (w.getLsbD 27) (w.getLsbD 26) (fld 21 5) (fld 16 5) (w.extractLsb' 8 8)
      (w.getLsbD 7)
  | 3 => if fld 0 13 ≠ 0 then .raises u .reserved
    else
      let u := one (if w.getLsbD 23 then { u with mret := up } else u)
      .goto u (if condHolds (w.extractLsb' 24 4) u.mn u.mv u.mc u.mz then fld 13 10 else up)
  | 4 => if fld 0 5 ≠ 0 then .raises u .reserved
    else .goto (one u) ((fld 13 10 + ((u.get (fld 23 5)) &&& w.extractLsb' 5 8).toNat) % 1024)
  | 5 => if fld 0 14 ≠ 0 then .raises u .reserved
    else
      let add := if w.getLsbD 27 then (u.get (fld 22 5)).toNat else fld 14 8
      .goto (one { u with charge := min 65535 (u.charge + add) }) up
  | 6 => if fld 0 14 ≠ 0 then .raises u .reserved
    else microSpecialStep u upc (w.getLsbD 27) (fld 19 8) (fld 14 5) self next
  | 7 => if fld 0 19 ≠ 0 then .raises u .reserved
    else match fld 24 4 with
      | 0 => .ends (one u) next false
      | 1 => if microPairOk (fld 19 5) then .ends (one u) (u.getPair (fld 19 5)) true
        else .raises u .reserved
      | 2 => .ends (one u) self true
      | 3 => .goto (one u) u.mret
      | 4 => .raises (one u) .fault
      | 5 => .raises (one u) .trap
      | _ => .raises u .reserved
  | _ => .raises u .reserved

/-- Microinstructions from `upc` until the UOP ends, at most `fuel` of them (R143); the answer
holds the microcode address of the last one. -/
def microRun (code : Bytes) (self next : Half) : Nat → MicroState → Nat → MicroNext × Nat
  | 0, u, upc => (.raises u .stepLimit, upc)
  | fuel + 1, u, upc =>
    let w : Word := BitVec.ofNat 32 (code.rdN (4 * upc) 4)
    match microStep u upc w self next with
    | .goto u' upc' =>
      match fuel with
      | 0 => (.raises u' .stepLimit, upc)
      | _ => microRun code self next fuel u' upc'
    | r => (r, upc)

end Sys2Proof.Machine
end

