-- ==== Sys2Proof/Machine/Operands.lean ====
section
/-! DEFINITION. Instruction lengths, effective addresses and the operand forms of the Voleth core:
R57, R58, R81, R82, R88 to R91, R97 and R504. -/

namespace Sys2Proof

/-- The length of an instruction with a memory operand (R89). -/
def MemOp.len (m : MemOp) : Nat :=
  if m.mode = 1#3 ∨ m.mode = 6#3 ∨ m.mode = 7#3 then 4 else 3

end Sys2Proof

namespace Sys2Proof.Machine

/-- Entry n of the decode table (R138, R139). -/
def Core.decodeEntry (k : Core) (n : Nat) : Half := BitVec.ofNat 16 (k.decodeTable.rdN (2 * n) 2)

/-- How many bytes the core fetches (R90, R505): one for a reserved opcode and for a UOP whose EN
is 0. -/
def Core.fetchLen (k : Core) : VInstr → Nat
  | .nop | .ret | .rte | .setm | .clrm | .usr | .wait => 1
  | .trap _ | .spillw _ | .fillw _ | .mvb _ | .cmb _ | .flb _ => 2
  | .mov _ _ => 3
  | .movw _ (.pair _) => 3
  | .movw _ (.imm _) => 4
  | .ld _ m | .st m _ | .ldw _ m | .stw m _ | .lea _ m => m.len
  | .push _ | .pop _ | .pushw _ | .popw _ => 2
  | .mfs _ _ | .mts _ _ | .xch _ _ => 3
  | .alu _ _ _ => 3
  | .aluw _ _ (.pair _) => 3
  | .aluw _ _ (.imm _) => 4
  | .un _ _ | .unw _ _ => 2
  | .sh _ _ _ | .shw _ _ _ | .mul _ _ _ | .div _ _ _ => 3
  | .bfx _ _ _ | .bfi _ _ _ => 4
  | .clz _ _ | .bpermI _ _ | .bpermR _ _ => 3
  | .jmp (.pair _) | .call (.pair _) => 2
  | .jmp _ | .call _ => 3
  | .loop (.imm _) _ => 4
  | .loop (.pair _) _ => 3
  | .bcc _ _ => 2
  | .bccL _ _ => 4
  | .uop n _ _ _ =>
    let e := k.decodeEntry n.toNat
    if e.getLsbD 15 then (e.extractLsb' 12 2).toNat + 1 else 1
  | .reservedOpcode _ => 1
  | .reservedField len => len

/-- The opcode byte, which selects the pace-table entry (R90, R151). -/
def opcodeOf : VInstr → Nat
  | .nop => 0x00 | .ret => 0x01 | .rte => 0x02 | .setm => 0x03 | .clrm => 0x04 | .usr => 0x05
  | .wait => 0x06 | .trap _ => 0x08 | .spillw _ => 0x09 | .fillw _ => 0x0A | .mvb _ => 0x0B
  | .cmb _ => 0x0C | .flb _ => 0x0D | .mov _ (.reg _) => 0x10 | .mov _ (.imm _) => 0x11
  | .movw _ (.pair _) => 0x12 | .movw _ (.imm _) => 0x13 | .ld _ _ => 0x14 | .st _ _ => 0x15
  | .ldw _ _ => 0x16 | .stw _ _ => 0x17 | .lea _ _ => 0x18 | .push _ => 0x19 | .pop _ => 0x1A
  | .pushw _ => 0x1B | .popw _ => 0x1C | .mfs _ _ => 0x1D | .mts _ _ => 0x1E | .xch _ _ => 0x1F
  | .alu _ _ (.reg _) => 0x20 | .alu _ _ (.imm _) => 0x21
  | .aluw _ _ (.pair _) => 0x22 | .aluw _ _ (.imm _) => 0x23
  | .un _ _ => 0x24 | .unw _ _ => 0x25
  | .sh _ _ (.imm _) => 0x26 | .sh _ _ (.reg _) => 0x27
  | .shw _ _ (.imm _) => 0x28 | .shw _ _ (.reg _) => 0x29
  | .mul _ _ _ => 0x2A | .div _ _ _ => 0x2B | .bfx _ _ _ => 0x2C | .bfi _ _ _ => 0x2D
  | .clz _ _ => 0x2E | .bpermI _ _ => 0x2F
  | .jmp (.rel _) => 0x30 | .jmp (.pair _) => 0x31 | .jmp (.abs _) => 0x32
  | .call (.rel _) => 0x33 | .call (.pair _) => 0x34 | .call (.abs _) => 0x35
  | .loop (.imm _) _ => 0x36 | .loop (.pair _) _ => 0x37 | .bccL _ _ => 0x38
  | .bpermR _ _ => 0x39 | .bcc c _ => 0x70 + c.toNat | .uop n _ _ _ => 0xE0 + n.toNat
  | .reservedOpcode op => op.toNat
  | .reservedField _ => 0x24

/-- An effective address, with the new value of the base pair where the mode updates it (R81). -/
structure Ea where
  addr : Half
  base : Option (Nat × Half)
deriving DecidableEq, Repr

/-- The pair of a memory operand's byte 2, whose low bits the mode requires to be 0 (R89). -/
def basePair (b2 : Byte) (lowMask : Byte) : Option Nat :=
  if b2 &&& lowMask = 0#8 then pairOf (b2 >>> 4) else none

/-- R81, R89: the effective address of a memory operand for an access of `size` bytes; `next` is
the address after the instruction. `none` for a reserved field. -/
def Core.ea (k : Core) (m : MemOp) (size : Nat) (next : Half) : Option Ea :=
  let sz := BitVec.ofNat 16 size
  match m.mode.toNat with
  | 0 => (basePair m.b2 0x0F#8).map fun p => { addr := k.pair p, base := none }
  | 1 => (basePair m.b2 0x0F#8).map fun p =>
    { addr := k.pair p + m.b3.signExtend 16, base := none }
  | 2 => (basePair m.b2 0x08#8).map fun p =>
    { addr := k.pair p + (k.reg (m.b2 &&& 7#8).toNat).setWidth 16, base := none }
  | 3 => (basePair m.b2 0x0F#8).map fun p =>
    { addr := k.pair p, base := some (p, k.pair p + sz) }
  | 4 => (basePair m.b2 0x0F#8).map fun p =>
    { addr := k.pair p - sz, base := some (p, k.pair p - sz) }
  | 5 => some { addr := k.sp + m.b2.setWidth 16, base := none }
  | 6 => some { addr := m.b3 ++ m.b2, base := none }
  | _ =>
    if m.b2.toNat < 16 then some { addr := 0xE000#16 ||| (m.b2 ++ m.b3), base := none }
    else if m.b2 = 0x10#8 then some { addr := next + m.b3.signExtend 16, base := none }
    else none

/-- The update of the base pair of a post-increment or pre-decrement mode (R81). -/
def Core.updateBase (k : Core) (e : Ea) : Core :=
  match e.base with
  | none => k
  | some (p, v) => k.setPair p v

/-- The value of a byte source, or `none` for a reserved register field. -/
def Core.byteSrc (k : Core) : ByteSrc → Option Byte
  | .reg b2 => (regOf b2).map k.reg
  | .imm n => some n

def Core.pairSrc (k : Core) : PairSrc → Option Half
  | .pair b2 => (pairOf b2).map k.pair
  | .imm n => some n

/-- The 5-bit register and pair fields of formats with an op field. -/
def regOf5 (f : BitVec 5) : Option Nat := regOf (f.setWidth 8)
def pairOf5 (f : BitVec 5) : Option Nat := pairOf (f.setWidth 8)

/-- The fields of format F (R97): whether pairs are named, the two register fields, the position
and the width of the bit field. -/
structure BitField where
  wide : Bool
  rd : Nat
  rs : Nat
  pos : Nat
  width : Nat
deriving DecidableEq, Repr

/-- R97: byte 1 bit 5 is 0, and the field lies within the width. -/
def bitField (b1 b2 b3 : Byte) : Option BitField :=
  let wide := b1.getLsbD 6
  let pick (b : Byte) : Option Nat := if wide then pairOf b else regOf b
  let p := (b3 >>> 4).toNat
  let w := (b3 &&& 0x0F#8).toNat + 1
  match pick (b1 &&& 0x1F#8), pick b2 with
  | some rd, some rs =>
    if b1.getLsbD 5 ∨ (if wide then 16 else 8) < p + w then none
    else some { wide := wide, rd := rd, rs := rs, pos := p, width := w }
  | _, _ => none

/-- The two quads of format Q (R88). -/
def quadFields (b1 : Byte) : Option (Nat × Nat) :=
  if b1 &&& 0x88#8 = 0#8 then
    match quadOf (b1.extractLsb' 4 3), quadOf (b1.extractLsb' 0 3) with
    | some d, some s => some (d, s)
    | _, _ => none
  else none

/-- Whether MFS and MTS byte 1 names the register or pair that special register `s` needs (R110). -/
def specialField (b1 : Byte) (s : Byte) : Option Nat :=
  if 9 < s.toNat then none
  else if 4 ≤ s.toNat ∧ s.toNat ≤ 8 then pairOf b1 else regOf b1

/-- R87: a reserved opcode or field. -/
def Core.illegal (k : Core) : VInstr → Bool
  | .nop | .ret | .rte | .setm | .clrm | .usr | .wait | .trap _ => false
  | .spillw b | .fillw b | .mvb b | .cmb b | .flb b => b.toNat ≥ 2
  | .mov b1 src => (regOf b1).isNone || (k.byteSrc src).isNone
  | .movw b1 src => (pairOf b1).isNone || (k.pairSrc src).isNone
  | .ld r m | .st m r => (regOf5 r).isNone || (k.ea m 1 0).isNone
  | .ldw r m | .stw m r => (pairOf5 r).isNone || (k.ea m 2 0).isNone
  | .lea r m => (pairOf5 r).isNone || (k.ea m 1 0).isNone
  | .push b1 | .pop b1 => (regOf b1).isNone
  | .pushw b1 | .popw b1 => (pairOf b1).isNone
  | .mfs b1 s => (specialField b1 s).isNone
  | .mts s b1 => (specialField b1 s).isNone
  | .xch b1 b2 => (regOf b1).isNone || (regOf b2).isNone
  | .alu _ rd src => (regOf5 rd).isNone || (k.byteSrc src).isNone
  | .aluw _ pd src => (pairOf5 pd).isNone || (k.pairSrc src).isNone
  | .un _ rd => (regOf5 rd).isNone
  | .unw _ pd => (pairOf5 pd).isNone
  | .sh _ rd src => (regOf5 rd).isNone || (k.byteSrc src).isNone
  | .shw _ pd src => (pairOf5 pd).isNone || (k.byteSrc src).isNone
  | .mul _ pd b2 | .div _ pd b2 => (pairOf5 pd).isNone || (regOf b2).isNone
  | .bfx b1 b2 b3 => (bitField b1 b2 b3).isNone
  | .bfi b1 b2 b3 => (bitField b1 b2 b3).isNone || b1.getLsbD 7
  | .clz b1 b2 =>
    (regOf (b1 &&& 0x1F#8)).isNone ||
      (match (b1 >>> 5).toNat with
       | 0 => (regOf b2).isNone
       | 1 => (pairOf b2).isNone
       | _ => true)
  | .bpermI b1 _ => (quadFields b1).isNone
  | .bpermR b1 b2 => (quadFields b1).isNone || (regOf b2).isNone
  | .jmp (.pair b1) | .call (.pair b1) => (pairOf b1).isNone
  | .jmp _ | .call _ => false
  | .loop (.imm _) _ => false
  | .loop (.pair b1) _ => (pairOf b1).isNone
  | .bcc _ _ => false
  | .bccL b1 _ => decide (b1 &&& 0x0F#8 ≠ 0#8)
  | .uop n _ _ _ => !((k.decodeEntry n.toNat).getLsbD 15)
  | .reservedOpcode _ | .reservedField _ => true

/-- R79, R65: a supervisor-only instruction or special-register access. -/
def supervisorOnly : VInstr → Bool
  | .setm | .clrm | .usr | .rte | .wait | .spillw _ | .fillw _ => true
  | .mfs _ s | .mts s _ => s == 2#8 || s == 4#8 || s == 9#8
  | _ => false

/-- R101: what a delay slot must not hold. -/
def Core.barredInSlot (k : Core) : VInstr → Bool
  | .jmp _ | .call _ | .ret | .rte | .bcc _ _ | .bccL _ _ | .trap _ | .loop _ _ | .setm | .clrm
  | .usr | .wait | .spillw _ | .fillw _ | .uop _ _ _ _ => true
  | .mts s b1 => s == 0#8 && k.supervisor && !((k.reg (b1.toNat % 32)).getLsbD 6)
  | _ => false

/-- R105: what must not stand at LEND while a loop is active. -/
def barredAtLoopEnd : VInstr → Bool
  | .jmp _ | .call _ | .ret | .rte | .bcc _ _ | .bccL _ _ | .loop _ _ => true
  | _ => false

/-- R116, order 4: an instruction refused by its context. -/
def Core.badContext (k : Core) (v : VInstr) : Bool :=
  (k.slot.isSome && k.barredInSlot v) ||
  (k.looping && k.pc == k.lend && (barredAtLoopEnd v || k.slot.isSome)) ||
  (match v with
   | .trap n => n.getLsbD 7
   | .spillw _ => decide (k.wres < 2)
   | .fillw _ => decide (19 ≤ k.wres) || k.wsaved == 0#8
   | .mts s _ => s == 1#8 || s == 3#8
   | _ => false)

end Sys2Proof.Machine
end

