-- ==== Sys2Proof/Machine/CoreRun.lean ====
section
/-! DEFINITION. Running one Voleth instruction: its fetch checks, its effect, the delay slot, the
hardware loop, the pace schedule and the exceptions it raises (R100 to R110, R114 to R126,
R142 to R156). -/

namespace Sys2Proof.Machine

/-- What a completed instruction leaves: the cell, where execution continues, the delay slot it
opens, whether it transferred control (so that the action of R104 does not follow), whether a
mode-change shadow follows, its cycles, its charge beyond the pace-table entry, and the trap it
raises (vector and cause). -/
structure Done where
  cell : Cell
  next : Half
  slot : Option JumpKind := none
  transfer : Bool := false
  shadow : Bool := false
  partway : Bool := false
  cycles : Nat
  charge : Nat := 0
  trap : Option (Nat × Nat) := none

/-- How an instruction ends: completed, or in a fault through a vector, with the cell as the fault
leaves it, the cycles taken before entry and the charge before the entry's 6 (R151). -/
inductive Ran where
  | done (d : Done)
  | fault (c : Cell) (vec : Nat) (cycles : Nat) (charge : Nat)

/-- The plain case: the next instruction in sequence. -/
def Ran.seq (c : Cell) (k : Core) (next : Half) (cycles : Nat) : Ran :=
  .done { cell := { c with core := k }, next := next, cycles := cycles }

/-- A fault that leaves everything as it was (R114). -/
def Ran.refuse (c : Cell) (vec : Nat) : Ran := .fault c vec 1 1

/-- LD and POP: a load at `a` into register `rd`, after the base update `k` (R82). -/
def runLoad (c : Cell) (a : Half) (rd : Nat) (upd : Core → Core) (next : Half) : Ran :=
  match c.refusal .read a with
  | some v => .refuse c v
  | none =>
    let r := c.load a
    .seq r.2 ((upd r.2.core).setReg rd r.1) next 2

/-- ST and PUSH: the value is read before the base update (R82). -/
def runStore (c : Cell) (a : Half) (v : Byte) (upd : Core → Core) (next : Half) : Ran :=
  match c.refusal .write a with
  | some e => .refuse c e
  | none =>
    let c' := c.store a v
    .seq c' (upd c'.core) next 2

def runLoadPair (c : Cell) (a : Half) (pd : Nat) (upd : Core → Core) (next : Half) : Ran :=
  match c.refusalN .read a 2 with
  | some v => .refuse c v
  | none =>
    let r := c.loadPair a
    .seq r.2 ((upd r.2.core).setPair pd r.1) next 3

def runStorePair (c : Cell) (a : Half) (v : Half) (upd : Core → Core) (next : Half) : Ran :=
  match c.refusalN .write a 2 with
  | some e => .refuse c e
  | none =>
    let c' := c.storePair a v
    .seq c' (upd c'.core) next 3

/-- The registers of the base window, P index of its I0 (R60). -/
def Core.baseIndex (k : Core) : Nat := 12 * ((k.cwp + 21 - k.wres) % 20)

/-- SPILLW's stores, I0 first (R63). -/
def spillStores (c : Cell) (sp : Half) (base : Nat) : Nat → Cell
  | 0 => c
  | n + 1 =>
    let c := spillStores c sp base n
    c.store (sp + BitVec.ofNat 16 n) (c.core.p.rd ((base + n) % 240))

/-- FILLW's loads, I0 first (R63). -/
def fillLoads (c : Cell) (sp : Half) (base : Nat) : Nat → Cell
  | 0 => c
  | n + 1 =>
    let c := fillLoads c sp base n
    let r := c.load (sp + BitVec.ofNat 16 n)
    { r.2 with core := { r.2.core with p := r.2.core.p.wr ((base + n) % 240) r.1 } }

def Core.stackOf (k : Core) (b1 : Byte) : Half := if b1.getLsbD 0 then k.usp else k.ssp

def Core.setStackOf (k : Core) (b1 : Byte) (v : Half) : Core :=
  if b1.getLsbD 0 then { k with usp := v } else { k with ssp := v }

/-- SPILLW (R63). WSAVED, of 8 bits, wraps from FFh to 00h (R63 does not say; DESIGN CHOICE, assumption 126). -/
def runSpill (c : Cell) (b1 : Byte) (next : Half) : Ran :=
  let sp := c.core.stackOf b1 - 12
  match c.refusalN .write sp 12 with
  | some v => .refuse c v
  | none =>
    let c' := spillStores c sp c.core.baseIndex 12
    let k := c'.core.setStackOf b1 sp
    .seq c' { k with wres := k.wres - 1, wsaved := k.wsaved + 1 } next 13

/-- FILLW (R63). -/
def runFill (c : Cell) (b1 : Byte) (next : Half) : Ran :=
  let sp := c.core.stackOf b1
  match c.refusalN .read sp 12 with
  | some v => .refuse c v
  | none =>
    let c' := fillLoads c sp ((c.core.baseIndex + 228) % 240) 12
    let k := c'.core.setStackOf b1 (sp + 12)
    .seq c' { k with wres := k.wres + 1, wsaved := k.wsaved - 1 } next 13

/-- The block instructions (R106, R107). -/
inductive BlockOp where
  | mvb | cmb | flb
deriving DecidableEq, Repr

def BlockOp.stepCycles : BlockOp → Nat
  | .flb => 1
  | _ => 2

/-- R108: the refusal of a block step at `a`; the I/O page is refused in either mode. -/
def Cell.blockRefusal (c : Cell) (kind : Access) (a : Half) : Option Nat :=
  match c.refusal kind a with
  | some v => some v
  | none => if 0xE000 ≤ a.toNat ∧ a.toNat < 0xF000 then some 3 else none

/-- The globals after a completed step (R106). -/
def blockAdvance (op : BlockOp) (back : Bool) (k : Core) : Core :=
  let d : Half := if back then 0xFFFF#16 else 1#16
  let k := if op = .flb then k else k.setPair 0 (k.pair 0 + d)
  (k.setPair 2 (k.pair 2 + d)).setPair 4 (k.pair 4 - 1)

/-- How one step of a block instruction ends. -/
inductive BlockStep where
  | fault (vec : Nat)
  | differ (c : Cell)
  | goOn (c : Cell)

/-- One step (R106, R107). -/
def blockStep (op : BlockOp) (back : Bool) (c : Cell) : BlockStep :=
  let k := c.core
  let src := k.pair 0
  let dst := k.pair 2
  let refused :=
    match op with
    | .mvb => (c.blockRefusal .read src).or (c.blockRefusal .write dst)
    | .cmb => (c.blockRefusal .read src).or (c.blockRefusal .read dst)
    | .flb => c.blockRefusal .write dst
  match refused with
  | some v => .fault v
  | none =>
    match op with
    | .mvb =>
      let c := c.store dst (c.load src).1
      .goOn { c with core := blockAdvance op back c.core }
    | .flb =>
      let c := c.store dst (k.reg 6)
      .goOn { c with core := blockAdvance op back c.core }
    | .cmb =>
      let a := (c.load src).1
      let b := (c.load dst).1
      if a = b then .goOn { c with core := blockAdvance op back k }
      else .differ { c with core := k.setFlags { c := some (decide (a.toNat < b.toNat)), z := some false } }

/-- How a block instruction ends: with the steps completed. -/
inductive BlockEnd where
  | ended (c : Cell) (steps : Nat)
  | stopped (c : Cell) (steps : Nat)
  | fault (c : Cell) (vec : Nat) (steps : Nat)

/-- Steps until the count is 0, two bytes differ, a step is refused, or `stop` steps are complete.
The first argument bounds the steps by the 16-bit count. -/
def blockRun (op : BlockOp) (back : Bool) (stop : Option Nat) : Nat → Nat → Cell → BlockEnd
  | 0, n, c => .ended c n
  | fuel + 1, n, c =>
    if c.core.pair 4 = 0#16 then .ended c n
    else if stop = some n ∧ 0 < n then .stopped c n
    else
      match blockStep op back c with
      | .fault v => .fault c v n
      | .differ c => .ended c (n + 1)
      | .goOn c => blockRun op back stop fuel (n + 1) c

/-- CMB's flags when every byte was equal (R107). -/
def cmbEqualFlags (op : BlockOp) (k : Core) : Core :=
  if op = .cmb ∧ k.pair 4 = 0#16 then k.setFlags { c := some false, z := some true } else k

/-- MVB, CMB and FLB; `stop` gives the completed step after which an interrupt is due (R108). CMB's differing step counts
as a completed step of R151 (DESIGN CHOICE, assumption 128). -/
def runBlock (op : BlockOp) (c : Cell) (b1 : Byte) (stop : Option Nat) (next : Half) : Ran :=
  let pstep := (c.io.rd 0xE084).toNat % 16
  let stop := if c.core.slot.isSome then none else stop
  match blockRun op (b1.getLsbD 0) stop (c.core.pair 4).toNat 0 c with
  | .ended c' n =>
    .done { cell := { c' with core := cmbEqualFlags op c'.core }, next := next
            cycles := 2 + op.stepCycles * n, charge := n * pstep }
  | .stopped c' n =>
    .done { cell := c', next := c.core.pc, partway := true
            cycles := 2 + op.stepCycles * n, charge := n * pstep }
  | .fault c' v n =>
    .fault c' v (2 + op.stepCycles * n) (if n = 0 then 1 else
      (c.core.paceTable.rd (match op with | .mvb => 0x0B | .cmb => 0x0C | .flb => 0x0D)).toNat +
        n * pstep)

/-- The length of the delay slot that a CALL reads for its return address (R60). -/
def Cell.slotLen (c : Cell) (a : Half) : Nat :=
  match c.refusal .read a, c.refusal .fetch a with
  | none, none =>
    let b0 := (c.load a).1
    let k := c.core
    match c.refusal .read (a + 1), c.refusal .fetch (a + 1) with
    | none, none => k.fetchLen (decodeVoleth b0 (c.load (a + 1)).1 0 0)
    | _, _ =>
      if 0x14 ≤ b0.toNat ∧ b0.toNat ≤ 0x18 then 1 else k.fetchLen (decodeVoleth b0 0 0 0)
  | _, _ => 1

/-- The target of JMP and CALL (R100). -/
def Core.jumpTarget (k : Core) (dst : JumpDst) (next : Half) : Half :=
  match dst with
  | .rel d => next + d
  | .pair b1 => k.pair ((pairOf b1).getD 0)
  | .abs a => a

/-- CALL (R60, R61). -/
def runCall (c : Cell) (dst : JumpDst) (next : Half) : Ran :=
  let k := c.core
  if 18 ≤ k.wres then .refuse c 5
  else
    let t := k.jumpTarget dst next
    let ret := next + BitVec.ofNat 16 (c.slotLen next)
    let k' := (k.setPair 22 ret).windowUp
    .done { cell := { c with core := k' }, next := t, slot := some .call, cycles := 2 }

/-- A UOP (R142 to R144): bytes beyond its length are free in OPB1 to OPB3. -/
def runUop (c : Cell) (n : Nat) (b1 b2 b3 : Byte) (next : Half) : Ran :=
  let k := c.core
  let e := k.decodeEntry n
  let len := (e.extractLsb' 12 2).toNat + 1
  let opb (i : Nat) (b : Byte) : Byte := if i < len then b else Config.unfetchedOperand (c.free + i)
  let temps : Bytes := Bytes.wr (Bytes.wr (Bytes.wr [] 0x1C (opb 1 b1)) 0x1D (opb 2 b2)) 0x1E (opb 3 b3)
  let c0 := if len < 4 then { c with free := c.free + 4 } else c
  let u : MicroState :=
    { cell := c0, map := c.io, temps := temps, mn := false, mz := false, mc := false, mv := false
      mret := 0, charge := 0, cycles := 1, wrote := false }
  match microRun k.microcode k.pc next 4096 u (e.extractLsb' 0 10).toNat with
  | (.goto u _, _) => .done { cell := u.cell, next := next, cycles := u.cycles, charge := u.charge }
  | (.ends u nx tr, _) =>
    .done { cell := u.cell, next := nx, transfer := tr, cycles := u.cycles, charge := u.charge
            shadow := k.supervisor && !u.cell.core.supervisor }
  | (.raises u cause, upc) =>
    let record (c : Cell) (conv : Bool) : Cell :=
      { c with io := (c.io.wr 0xE04A (BitVec.ofNat 8 (conv.toNat * 128 + cause.orig))).wrN 0xE04B 2 upc }
    if u.wrote ∨ cause = .trap then
      .done { cell := record u.cell (decide (cause ≠ .trap)), next := next, cycles := u.cycles
              charge := u.charge, trap := some (7, 7) }
    else
      .fault (record c0 false) (match cause with | .refused v => v | _ => 7) u.cycles 1

/-- The effect of an instruction that has passed orders 1 to 4 of R116. -/
def Cell.effect (c : Cell) (v : VInstr) (stop : Option Nat) (next : Half) : Ran :=
  let k := c.core
  match v with
  | .nop => .seq c k next 1
  | .setm => .done { cell := { c with core := { k with status := k.status ||| 0x80#8 } }, next := next
                     shadow := true, cycles := 1 }
  | .clrm => .done { cell := { c with core := { k with status := k.status &&& 0x7F#8 } }, next := next
                     shadow := true, cycles := 1 }
  | .usr => .done { cell := { c with core := { k with status := k.status &&& 0xBF#8 } }, next := next
                    shadow := true, cycles := 1 }
  | .wait => .seq c { k with waiting := true } next 1
  | .ret =>
    if k.wres ≤ 1 then .refuse c 6
    else .done { cell := c, next := k.pair 10, slot := some .ret, cycles := 2 }
  | .rte =>
    if k.wres ≤ 1 then .refuse c 6
    else match c.refusalN .fetch (k.ssp + 1) 3 with
      | some _ => .refuse c 3
      | none =>
        let c' := c.leave
        .done { cell := c', next := c'.core.pc, transfer := true, shadow := true, cycles := 4 }
  | .trap n => .done { cell := c, next := next, cycles := 0, trap := some (128 + n.toNat, 0x1F) }
  | .spillw b => runSpill c b next
  | .fillw b => runFill c b next
  | .mvb b => runBlock .mvb c b stop next
  | .cmb b => runBlock .cmb c b stop next
  | .flb b => runBlock .flb c b stop next
  | .mov b1 src => .seq c (k.setReg ((regOf b1).getD 0) ((k.byteSrc src).getD 0)) next 1
  | .movw b1 src => .seq c (k.setPair ((pairOf b1).getD 0) ((k.pairSrc src).getD 0)) next 1
  | .ld rd m =>
    let e := (k.ea m 1 next).getD { addr := 0, base := none }
    runLoad c e.addr ((regOf5 rd).getD 0) (·.updateBase e) next
  | .st m rs =>
    let e := (k.ea m 1 next).getD { addr := 0, base := none }
    runStore c e.addr (k.reg ((regOf5 rs).getD 0)) (·.updateBase e) next
  | .ldw pd m =>
    let e := (k.ea m 2 next).getD { addr := 0, base := none }
    runLoadPair c e.addr ((pairOf5 pd).getD 0) (·.updateBase e) next
  | .stw m ps =>
    let e := (k.ea m 2 next).getD { addr := 0, base := none }
    runStorePair c e.addr (k.pair ((pairOf5 ps).getD 0)) (·.updateBase e) next
  | .lea pd m =>
    let e := (k.ea m 1 next).getD { addr := 0, base := none }
    .seq c ((k.updateBase e).setPair ((pairOf5 pd).getD 0) e.addr) next 1
  | .push b1 => runStore c (k.sp - 1) (k.reg ((regOf b1).getD 0)) (·.setSp (k.sp - 1)) next
  | .pop b1 => runLoad c k.sp ((regOf b1).getD 0) (·.setSp (k.sp + 1)) next
  | .pushw b1 => runStorePair c (k.sp - 2) (k.pair ((pairOf b1).getD 0)) (·.setSp (k.sp - 2)) next
  | .popw b1 => runLoadPair c k.sp ((pairOf b1).getD 0) (·.setSp (k.sp + 2)) next
  | .mfs b1 s =>
    let r := (specialField b1 s).getD 0
    let x := k.special s.toNat
    .seq c (if specialWide s.toNat then k.setPair r x else k.setReg r (x.setWidth 8)) next 1
  | .mts s b1 =>
    let r := (specialField b1 s).getD 0
    let x : Half := if specialWide s.toNat then k.pair r else (k.reg r).setWidth 16
    let k' := k.setSpecial s.toNat x
    .done { cell := { c with core := k' }, next := next, cycles := 1
            shadow := k.supervisor && !k'.supervisor }
  | .xch b1 b2 =>
    let r1 := (regOf b1).getD 0
    let r2 := (regOf b2).getD 0
    .seq c ((k.setReg r1 (k.reg r2)).setReg r2 (k.reg r1)) next 1
  | .alu op rd src =>
    let d := (regOf5 rd).getD 0
    let r := aluOp op (k.reg d) ((k.byteSrc src).getD 0) k.flagC
    .seq c ((if op = .cmp then k else k.setReg d r.val).setFlags r.flags) next 1
  | .aluw op pd src =>
    let d := (pairOf5 pd).getD 0
    let r := aluOp op (k.pair d) ((k.pairSrc src).getD 0) k.flagC
    .seq c ((if op = .cmp then k else k.setPair d r.val).setFlags r.flags) next 2
  | .un op rd =>
    let d := (regOf5 rd).getD 0
    let r := unOp op (k.reg d)
    .seq c ((if op = .tst then k else k.setReg d r.val).setFlags r.flags) next 1
  | .unw op pd =>
    let d := (pairOf5 pd).getD 0
    let r := unwOp op (k.pair d)
    .seq c ((if op = .tst then k else k.setPair d r.val).setFlags r.flags) next 2
  | .sh op rd src =>
    let d := (regOf5 rd).getD 0
    let r := shiftOp op (k.reg d) ((k.byteSrc src).getD 0) k.flagC
    .seq c ((k.setReg d r.val).setFlags r.flags) next 1
  | .shw op pd src =>
    let d := (pairOf5 pd).getD 0
    let r := shiftOp op (k.pair d) ((k.byteSrc src).getD 0) k.flagC
    .seq c ((k.setPair d r.val).setFlags r.flags) next 2
  | .mul s pd b2 =>
    let d := (pairOf5 pd).getD 0
    let r := mulOp s (k.reg d) (k.reg ((regOf b2).getD 0))
    .seq c ((k.setPair d r.val).setFlags r.flags) next 2
  | .div s pd b2 =>
    let d := (pairOf5 pd).getD 0
    let y := k.reg ((regOf b2).getD 0)
    let r := divOp s (k.pair d) y
    .done { cell := { c with core := (k.setPair d r.val).setFlags r.flags }, next := next
            cycles := if s then 10 else 9
            trap := if y = 0#8 ∧ (c.io.rd 0xE000).getLsbD 0 then some (4, 4) else none }
  | .bfx b1 b2 b3 =>
    match bitField b1 b2 b3 with
    | none => .refuse c 1
    | some f =>
      if f.wide then
        let r := bfxOp (k.pair f.rs) f.pos f.width (b1.getLsbD 7)
        .seq c ((k.setPair f.rd r.val).setFlags r.flags) next 2
      else
        let r := bfxOp (k.reg f.rs) f.pos f.width (b1.getLsbD 7)
        .seq c ((k.setReg f.rd r.val).setFlags r.flags) next 1
  | .bfi b1 b2 b3 =>
    match bitField b1 b2 b3 with
    | none => .refuse c 1
    | some f =>
      if f.wide then
        let r := bfiOp (k.pair f.rd) (k.pair f.rs) f.pos f.width
        .seq c ((k.setPair f.rd r.val).setFlags r.flags) next 2
      else
        let r := bfiOp (k.reg f.rd) (k.reg f.rs) f.pos f.width
        .seq c ((k.setReg f.rd r.val).setFlags r.flags) next 1
  | .clz b1 b2 =>
    let d := (regOf (b1 &&& 0x1F#8)).getD 0
    let r := if b1.getLsbD 5 then clzOp (k.pair ((pairOf b2).getD 0))
      else clzOp (k.reg ((regOf b2).getD 0))
    .seq c ((k.setReg d r.val).setFlags r.flags) next 1
  | .bpermI b1 sel =>
    let q := (quadFields b1).getD (0, 0)
    .seq c (k.setQuad q.1 (bpermOp (k.quad q.2) sel)) next 2
  | .bpermR b1 b2 =>
    let q := (quadFields b1).getD (0, 0)
    .seq c (k.setQuad q.1 (bpermOp (k.quad q.2) (k.reg ((regOf b2).getD 0)))) next 2
  | .jmp dst => .done { cell := c, next := k.jumpTarget dst next, slot := some .jmp, cycles := 2 }
  | .call dst => runCall c dst next
  | .loop cnt u8 =>
    let n := match cnt with
      | .imm n => n
      | .pair b1 => k.pair ((pairOf b1).getD 0)
    .seq c { k with lstart := next, lend := next + u8.setWidth 16, lcnt := n
                    status := k.status ||| 0x20#8 } next 2
  | .bcc cond d8 =>
    let t := condHolds cond k.flagN k.flagV k.flagC k.flagZ
    .done { cell := c, next := if t then next + d8.signExtend 16 else next, transfer := t
            cycles := if t then 2 else 1 }
  | .bccL b1 d16 =>
    let t := condHolds (b1.extractLsb' 4 4) k.flagN k.flagV k.flagC k.flagZ
    .done { cell := c, next := if t then next + d16 else next, transfer := t
            cycles := if t then 2 else 1 }
  | .uop n b1 b2 b3 => runUop c n.toNat b1 b2 b3 next
  | .reservedOpcode _ | .reservedField _ => .refuse c 1

/-- R116: the conditions in their order, then the effect. -/
def Cell.attempt (c : Cell) (v : VInstr) (stop : Option Nat) : Ran :=
  let k := c.core
  let len := k.fetchLen v
  match c.refusalN .fetch k.pc len with
  | some vec => .refuse c vec
  | none =>
    if k.illegal v then .refuse c 1
    else if supervisorOnly v ∧ ¬ k.supervisor then .refuse c 2
    else if k.badContext v then .refuse c 1
    else c.effect v stop (k.pc + BitVec.ofNat 16 len)

/-- A charge added to S (R151). -/
def Cell.charge (c : Cell) (ticks : Nat) : Cell :=
  { c with core := { c.core with sched := c.core.sched + BitVec.ofNat 32 ticks } }

/-- R104: the loop action of an instruction at LEND, by LP and the loop registers as they stand when
it completes; answers where execution continues. -/
def loopAction (k : Core) (at_ next : Half) : Core × Half :=
  if k.looping ∧ at_ = k.lend then
    let n := k.lcnt - 1
    if n = 0#16 then ({ k with lcnt := n, status := k.status &&& 0xDF#8 }, next)
    else ({ k with lcnt := n }, k.lstart)
  else (k, next)

/-- A fault: for a fault in a delay slot the saved PC is the jump and a CALL's move is undone
(R123); at LEND, LE is set (R126). -/
def Cell.takeFault (c : Cell) (pc : Half) (vec : Nat) : Cell :=
  let k := c.core
  let le : Nat := if k.looping ∧ pc = k.lend then 0x40 else 0
  match k.slot with
  | none => c.enter pc vec (BitVec.ofNat 8 (vec + le))
  | some s =>
    let k := { (if s.kind = .call then k.windowDown else k) with slot := none }
    { c with core := k }.enter s.jumpPc vec (BitVec.ofNat 8 (vec + le + 0x80))

/-- The instruction's end, `seq` being the address after it: the delay slot, the loop action, then a trap (R100, R104, R124, R126).
A transfer of control that the instruction or its delay slot makes takes its target, and no loop action, even where the
loop registers or LP as the instruction leaves them name its own address (DESIGN CHOICE, assumption 127). -/
def Cell.complete (c : Cell) (seq : Half) (d : Done) : Cell :=
  let was := c.core
  let k := d.cell.core
  let k := { k with shadow := d.shadow, busy := k.busy + d.cycles }
  let k :=
    if d.partway then { k with shadow := false }
    else
      match d.slot with
      | some kind =>
        { k with slot := some { target := d.next, jumpPc := was.pc, kind := kind }
                 pc := seq }
      | none =>
        match was.slot with
        | some s =>
          let k := if s.kind = .ret then k.windowDown else k
          { k with slot := none, pc := s.target }
        | none =>
          if d.transfer then { k with pc := d.next }
          else
            let r := loopAction k was.pc d.next
            { r.1 with pc := r.2 }
  let c' := { d.cell with core := k }
  match d.trap with
  | none => c'
  | some (vec, cause) => c'.enter k.pc vec (BitVec.ofNat 8 cause)

/-- PACE_CTL.PACED (R156). -/
def Cell.paced (c : Cell) : Bool := (c.io.rd 0xE080).getLsbD 0

/-- P - S as a signed 32-bit difference (R151). -/
def Core.paceLead (k : Core) : Int := (k.paceCount - k.sched).toInt

/-- The stall before an instruction (R151): dot ticks until P reaches S. `none` when the frame ends
first: FRAME_BOUNDARY then comes before the instruction. -/
def Cell.stall : Nat → Cell → Option Cell
  | 0, c => if 0 ≤ c.core.paceLead then some c else none
  | fuel + 1, c =>
    if 0 ≤ c.core.paceLead then some c
    else match c.passDot with
      | none => none
      | some c => Cell.stall fuel c

/-- R153: SLIP, SLIP_MAX and PACE_SLIP at an instruction start or interrupt entry. -/
def Cell.noteSlip (c : Cell) : Cell :=
  let slip := min 65535 c.core.paceLead.toNat
  let exceeds := decide (c.io.rdN 0xE086 2 < slip)
  let io := (c.io.wrN 0xE088 2 slip).wrN 0xE08A 2 (max slip (c.io.rdN 0xE08A 2))
  let c' := { c with io := io, core := { c.core with slipOver := exceeds } }
  if exceeds ∧ ¬ c.core.slipOver then
    { c' with io := io.wr 0xE081 1#8 }.raise srcPaceSlip
  else c'

/-- R151, R153: the start of an instruction or of an interrupt entry. -/
def Cell.begin_ (c : Cell) : Option Cell :=
  if c.paced then (c.stall c.dotsLeft).map (·.noteSlip) else some c

/-- A byte as an instruction fetch finds it, without a read's effects. -/
def Cell.peek (c : Cell) (a : Half) : Byte :=
  match c.place a with
  | .mem n => c.mem.rd n
  | .io n => c.ioPeek n

/-- The instruction at the PC (R88). -/
def Cell.atPc (c : Cell) : VInstr :=
  let p := c.core.pc
  decodeVoleth (c.peek p) (c.peek (p + 1)) (c.peek (p + 2)) (c.peek (p + 3))

/-- The cell as instruction `v` would leave it, unless it faults. -/
def Cell.wouldLeave (c : Cell) (v : VInstr) : Option Cell :=
  match c.attempt v none with
  | .done d => some (c.complete (c.core.pc + BitVec.ofNat 16 (c.core.fetchLen v)) d)
  | .fault _ _ _ _ => none

/-- The addresses whose breakpoint halts before instruction `v` at the PC: its own, and those of the delay slot and
the shadow instructions that follow it without a boundary between them (R118, R137). -/
def Cell.breakAddrs : Nat → Cell → VInstr → List Half
  | 0, c, _ => [c.core.pc]
  | n + 1, c, v =>
    c.core.pc ::
      match c.wouldLeave v with
      | some x => if x.core.slot.isSome ∨ x.core.shadow then Cell.breakAddrs n x x.atPc else []
      | none => []

/-- A breakpoint halts before instruction `v` (R137). -/
def Cell.breaksAt (c : Cell) (v : VInstr) : Bool :=
  !c.breakpoints.isEmpty && c.core.resumeAt != some c.core.pc &&
    (Cell.breakAddrs 65536 c v).any (fun a => c.breakpoints.contains a)

/-- A debug halt that was asked for, or the end of a step, comes at an interruptible boundary, which the last cycle of
an entry is not (R118, R132, R135). -/
def Core.haltsHere (k : Core) : Bool :=
  k.slot.isNone && !k.shadow && k.haltRequest && (!k.afterEntry || k.stepping)

/-- Whether a breakpoint or a debug halt comes before instruction `v` (R134, R137). -/
def Cell.haltDue (c : Cell) (v : VInstr) : Bool :=
  c.core.haltsHere || (c.core.slot.isNone && !c.core.shadow && c.breaksAt v)

/-- An interrupt comes before the next instruction (R118): GM is 0, a source is deliverable, and the
next instruction is neither a delay slot nor a shadow. -/
def Cell.interruptDue (c : Cell) : Bool :=
  !c.core.masked && c.core.slot.isNone && !c.core.shadow && (c.deliverable false).isSome

/-- The core executes: it is not waiting, locked up or halted. -/
def Cell.executes (c : Cell) : Bool :=
  c.coreOn && !c.core.waiting && !c.core.lockup && !c.core.debugHalt

/-- One instruction, from its pacing stall to its end or to the exception it raises. -/
def Cell.runInstr (c : Cell) (v : VInstr) (stop : Option Nat) : Cell :=
  if ¬ c.executes ∨ c.haltDue v ∨ c.interruptDue then c
  else match c.begin_ with
    | none => c
    | some c0 =>
      let paced := c0.paced
      let pc := c0.core.pc
      let pay (c : Cell) (n : Nat) : Cell := if paced ∧ ¬ c.core.repaced then c.charge n else c
      let c1 := { c0 with core := { c0.core with resumeAt := none, afterEntry := false, repaced := false } }
      match c1.attempt v stop with
      | .fault cf vec cycles charge =>
        let cf := { cf with core := { cf.core with busy := cf.core.busy + cycles } }
        pay (cf.takeFault pc vec) (charge + 6)
      | .done d =>
        let entry := match d.trap with
          | some (_, 0x1F) => 0
          | some _ => 6
          | none => 0
        pay (c1.complete (pc + BitVec.ofNat 16 (c1.core.fetchLen v)) d)
          ((c1.core.paceTable.rd (opcodeOf v)).toNat + d.charge + entry)

/-- BPERM by its two opcodes (R90, R99): the selector is an immediate or a register. -/
def bpermOf (b1 : Byte) (sel : ByteSrc) : VInstr :=
  match sel with
  | .imm n => .bpermI b1 n
  | .reg b2 => .bpermR b1 b2

end Sys2Proof.Machine
end

