-- ==== Sys2Proof/Machine/Hub.lean ====
section
/-! DEFINITION. The hub's books: channels and their views, cells and reserves, the notifications, the
catch log, and what the hub sends outwards (R9 to R15, R48, R374, R388, R395, R396, R430 to R432,
R436). -/

namespace Sys2Proof.Machine

/-! ### Channels -/

/-- A pad that nothing drives (R331). -/
def floatPads : List Pad := List.replicate 16 { drive := none, pull := 0 }

def StreamHold.blank : StreamHold :=
  { held := [], partialFrame := none, sherds := 0, blocks := 0, payload := 0, dropped := 0
    refreshes := 0 }

/-- The VF status registers after reset (R395). -/
def VfRegs.blank : VfRegs :=
  { epochLatch := 0, cmdEpoch := 0, stale := false, done := false, staleCount := 0, msix := msixBlank 4 }

/-- Channel n after a device reset (R48). -/
def Chan.blank (n : Nat) : Chan :=
  { n := n, state := .uncast, view := .uncast, epoch := 0, viewEpoch := 0, cause := 0
    draining := false, drainFault := false, pendingCast := none, castTag := none, stopTags := []
    stale := 0, castReplaced := 0, audDropped := 0, ntqDiscarded := 0, catches := 0, lastU := 0#8
    u := 0#8, mould := 0, share := 1, interval := 0, place := none, cloneWait := none, before := .uncast, cell := none
    pads := floatPads, rising := 0#16, falling := 0#16, attached := false, checkpoint := none
    snapshot := none, sinceSnap := 0, snapDue := false, forced := false, log := [], logOld := 0
    logFull := false, netOff := [], netEnds := [], detached := false, step := .none, faultTime := 0
    faultCause := 0, faultBlock := 0, oldPlace := (0, 0), planned := none, testDue := false
    lockup := none, vf := .blank, queues := List.replicate 16 .blank, deficit := 0, shq := .blank
    clq := .blank, svc := .blank, auq := [], ntq := [], ntqLost := 0, refreshWait := []
    layerNext := [0, 0], layerOff := [0, 0], layerReads := [[], []], layerOld := [0, 0], layerStopped := [false, false] }

def findChan : List Chan → Nat → Option Chan
  | [], _ => none
  | c :: t, n => if c.n = n then some c else findChan t n

def insertChan : List Chan → Chan → List Chan
  | [], c => [c]
  | d :: t, c => if c.n < d.n then c :: d :: t else if c.n = d.n then c :: t else d :: insertChan t c

/-- Channel n. -/
def State.chan (s : State) (n : Nat) : Chan := (findChan s.chans n).getD (Chan.blank n)

def State.setChan (s : State) (c : Chan) : State := { s with chans := insertChan s.chans c }

def State.onChan (s : State) (n : Nat) (f : Chan → Chan) : State := s.setChan { f (s.chan n) with n := n }

def State.onHub (s : State) (f : Hub → Hub) : State := { s with hub := f s.hub }

/-- The channels and the channel dies of a part (R9). -/
def partChannels (part : Nat) : Nat := if part = 1 then 80 else if part = 2 then 240 else 560
def partDies (part : Nat) : Nat := if part = 1 then 1 else if part = 2 then 3 else 7

/-- Whether the part offers channel n (R9). -/
def State.offers (s : State) (n : Nat) : Bool := decide (n < partChannels s.hub.part)

/-- The card of channel n (R46). -/
def State.card (s : State) (n : Nat) : Option Card :=
  s.hub.image.bind fun i => i.cards.find? fun c => c.channel = n

/-- A mould of the image store (R45): of two of one index, the first (DESIGN CHOICE, assumption 113). -/
def State.mould (s : State) (m : Nat) : Option Mould :=
  s.hub.image.bind fun i => i.moulds.find? fun x => x.index = m

/-- The management state's code (R402). -/
def ChanState.code : ChanState → Nat
  | .uncast => 0
  | .casting => 1
  | .running => 2
  | .napping => 3
  | .halted => 4
  | .stopped => 5
  | .safe => 6
  | .catching => 7
  | .testing => 8

/-- The state that the VF shows (R48, R395). -/
def ChanState.seen : ChanState → ChanState
  | .catching => .running
  | .testing => .running
  | x => x

/-- The channel's cell changed. -/
def Chan.onCell (c : Chan) (f : Cell → Cell) : Chan := { c with cell := c.cell.map f }

/-- The channel time, or 0 when the channel has no cell (R388). -/
def Chan.now (c : Chan) : Nat := c.cell.elim 0 (·.beam.ctime)

/-- The channel holds no cell, or is draining (R397, R400). -/
def Chan.cellLess (c : Chan) : Bool := c.draining || [.uncast, .stopped, .safe].contains c.state

/-- A delivery from the host is accepted: the island runs and does not nap (R366, R420). -/
def Chan.accepts (c : Chan) : Bool := c.cell.elim false fun x => x.runs && !x.nap.napping

/-! ### Sending -/

/-- The functions may send requests: the link is up and PF0 is not in D3hot (R372). -/
def Hub.canSend (h : Hub) : Bool := h.linkUp && !h.d3hot

def State.send (s : State) (x : Sent) : State := s.onHub fun h => { h with sent := h.sent ++ [x] }

/-- The MSI-X table of a function, and whether its vector is masked (R374; assumption 121). -/
def State.msixTable (s : State) (fn : Nat) : Bytes := if fn = 0 then s.hub.msix else (s.chan (fn - 1)).vf.msix
def State.vectorMasked (s : State) (fn vec : Nat) : Bool := (s.msixTable fn).bit (16 * vec + 12) 0

/-- An MSI-X message of function `fn` (R374); one that cannot go now waits with its pending bit set. -/
def State.signal (s : State) (fn vec : Nat) : State :=
  if s.hub.canSend ∧ s.vectorMasked fn vec = false then s.send (.msi fn vec)
  else s.onHub fun h => { h with pba := if h.pba.contains (fn, vec) then h.pba else h.pba ++ [(fn, vec)] }

/-- The messages that wait and can go now are sent (R374). -/
def State.releasePending (s : State) : State :=
  if ¬ s.hub.canSend then s
  else
    let go (p : Nat × Nat) : Bool := !s.vectorMasked p.1 p.2
    (s.hub.pba.filter go).foldl (fun s p => s.send (.msi p.1 p.2))
      (s.onHub fun h => { h with pba := h.pba.filter fun p => !go p })

/-- The pending bits of a function are cleared. -/
def Hub.clearPending (h : Hub) (fn : Nat) : Hub := { h with pba := h.pba.filter fun p => p.1 != fn }

/-- Record writes of a function carry relaxed ordering (R370, R381). -/
def State.relaxed (s : State) (fn : Nat) : Bool := !(s.hub.unrelaxed.contains fn)

/-- A management event (R374). -/
def State.managementEvent (s : State) : State := s.signal 0 1

/-! ### Notifications -/

/-- The bytes of an NTQ record; the epoch is written when it is delivered (R388). -/
def ntqBytes (code detail epoch time : Nat) : List Byte :=
  leBytes 4 (4 * 2 ^ 28 + code * 2 ^ 20 + detail % 2 ^ 20) ++ leBytes 4 epoch ++
    leBytes 4 (time % 2 ^ 32) ++ leBytes 2 (time / 2 ^ 32) ++ leBytes 2 0

/-- Records of queue q discarded (R379, R392). -/
def Chan.countDropped (c : Chan) (q n : Nat) : Chan :=
  { c with queues := updateAt c.queues q fun x => { x with dropped := (x.dropped + n) % 0x100000000 } }

/-- A notification enters the NTQ holding; a full one discards its oldest record (R392). -/
def Chan.notify (c : Chan) (code detail time : Nat) : Chan :=
  let r : Held := { bytes := ntqBytes code detail 0 time, moved := 0 }
  if c.ntq.length < 128 then { c with ntq := c.ntq ++ [r] }
  else
    { c with ntq := c.ntq.drop 1 ++ [r], ntqLost := c.ntqLost + 1
             ntqDiscarded := c.ntqDiscarded + 1 }.countDropped 11 1

/-- R396: the last step of an epoch change writes the VF's view, with a STATE record when the state it
shows changes. -/
def Chan.showView (c : Chan) : Chan :=
  let seen := c.state.seen
  let c' := { c with view := seen, viewEpoch := c.epoch }
  if seen = c.view then c' else c'.notify 0x07 seen.code c.now

/-! ### Cells and reserves -/

def State.die (s : State) (d : Nat) : Die := s.dies.getD (d - 1) { cells := [], banks := [], consumed := 0 }

def State.onDie (s : State) (d : Nat) (f : Die → Die) : State :=
  { s with dies := updateAt s.dies (d - 1) f }

/-- Whether the part populates die d (R9). -/
def State.populated (s : State) (d : Nat) : Bool := decide (1 ≤ d ∧ d ≤ partDies s.hub.part)

def Die.cell (d : Die) (n : Nat) : CellUnit := d.cells.getD n { CellUnit.fresh with role := .retired }

def Die.onCell (d : Die) (n : Nat) (f : CellUnit → CellUnit) : Die := { d with cells := updateAt d.cells n f }

def State.onCellUnit (s : State) (d n : Nat) (f : CellUnit → CellUnit) : State :=
  s.onDie d fun x => x.onCell n f

/-- The cells of a die with a property, in ascending number. -/
def Die.numbers (d : Die) (p : CellUnit → Bool) : List Nat :=
  (d.cells.zipIdx.filter fun x => p x.1).map (·.2)

/-- R430: the cells of the die that host a channel, its pool, its free cells and its reserves. -/
def CellUnit.hosts (c : CellUnit) : Bool :=
  match c.role with
  | .hosting _ => true
  | _ => false

def CellUnit.pooled (c : CellUnit) : Bool := c.role == .pool

def Die.pool (d : Die) : List Nat := d.numbers (·.pooled)
def Die.freeCount (d : Die) : Nat := 80 - (d.numbers (·.hosts)).length
def Die.free (d : Die) : List Nat := d.pool.take d.freeCount
def Die.reserves (d : Die) : List Nat := d.pool.drop d.freeCount

/-- The dies that the part populates. -/
def State.dieNumbers (s : State) : List Nat := (List.range (partDies s.hub.part)).map (· + 1)

/-- The die with the most of something, the lower number winning a tie. -/
def bestDie (count : Nat → Nat) : List Nat → Option Nat
  | [] => none
  | d :: t =>
    match bestDie count t with
    | none => if count d = 0 then none else some d
    | some e => if count d = 0 then some e else if count e ≤ count d then some d else some e

/-- A free cell that is tested (R53). -/
def State.freeTested (s : State) (d : Nat) : List Nat :=
  (s.die d).free.filter fun n => ((s.die d).cell n).tested

/-- Step 1 of R53: the cell for a channel whose card names die `d`, or any die when `d` is 0; `none`
but for `avoid`. -/
def State.castCell (s : State) (d : Nat) (avoid : Option (Nat × Nat)) : Option (Nat × Nat) :=
  let ok (d : Nat) : List Nat := (s.freeTested d).filter fun n => some (d, n) ≠ avoid
  let pick (d : Nat) : Option (Nat × Nat) := (ok d).head?.map fun n => (d, n)
  if d = 0 then (bestDie (fun d => (ok d).length) s.dieNumbers).bind pick
  else if s.populated d then pick d else none

/-- The tested reserves of a die (R431). -/
def State.testedReserves (s : State) (d : Nat) : List Nat :=
  (s.die d).reserves.filter fun n => ((s.die d).cell n).tested

/-- A reserve whose test the kiln would abandon for a catch (R446). -/
def State.testedNow (s : State) (d : Nat) : List Nat :=
  (s.die d).numbers fun u => u.role == .testing && u.tested && u.reserve

/-- R431, R446: the reserve that a catch takes from a cell of die `d`; `pinless` for a channel that
owns no pins. -/
def State.catchCell (s : State) (d : Nat) (pinless : Bool) : Option (Nat × Nat) :=
  match s.testedReserves d, s.testedNow d with
  | n :: _, _ => some (d, n)
  | [], n :: _ => some (d, n)
  | [], [] =>
    if pinless then
      (bestDie (fun d => if s.testedReserves d = [] then 0 else (s.die d).reserves.length) s.dieNumbers).bind fun d =>
        (s.testedReserves d).head?.map fun n => (d, n)
    else none

/-- Whether channel n owns no pins (R15, R46). -/
def State.pinless (s : State) (n : Nat) : Bool :=
  (s.card n).elim true fun c => c.die == 0 || c.pins.all (· == 0xFFFF)

/-- R432: NETLOW_N by the reserves and the thresholds; at each assertion a new forecast is signalled. -/
def State.netlow (s : State) : State :=
  match s.hub.image with
  | none => s
  | some i =>
    let low := s.dieNumbers.any fun d =>
      decide ((s.die d).reserves.length ≤ i.device.thresholds.getD (d - 1) 0)
    let was := !s.hub.netlowN
    let s' := s.onHub fun h => { h with netlowN := !low }
    if low ∧ ¬ was then s'.managementEvent else s'

/-- The role of a cell changes (R430). -/
def State.setRole (s : State) (p : Nat × Nat) (f : CellUnit → CellUnit) : State :=
  (s.onCellUnit p.1 p.2 f).netlow

/-- A cell is taken by a channel. -/
def State.host (s : State) (p : Nat × Nat) (ch : Nat) : State :=
  s.setRole p fun u => { u with role := .hosting ch, inTest := false, reserve := false }

/-- A cell passes to the kiln after a fault (R409, R420 step 8); `scope` as in R452. -/
def State.toKiln (s : State) (p : Nat × Nat) (scope : Nat) : State :=
  s.setRole p fun u => { u with role := .testing, tested := u.tested && scope == 4, scope := scope
                                inTest := false, reserve := false }

/-- A cell joins its die's pool (R51, R430). -/
def State.toPool (s : State) (p : Nat × Nat) : State :=
  s.setRole p fun u => { u with role := .pool, inTest := false, reserve := false }

/-- A retirement or repair record that waits for the flash (R442, R443). -/
def State.record (s : State) (r : RepairRecord) : State := s.onHub fun h => { h with repairs := h.repairs ++ [r] }

/-- A cell is retired (R33, R429): its die has one reserve less, and a record is written. -/
def State.retire (s : State) (p : Nat × Nat) : State :=
  let s := s.setRole p fun u => { u with role := .retired, inTest := false, reserve := false }
  let s := s.onDie p.1 fun d => { d with consumed := d.consumed + 1 }
  s.record { type := 2, die := p.1, unit := p.2, memory := 0, spare := 0xFFFF, address := 0, bit := 0
             uptime := s.hub.uptime }

/-! ### The catch log -/

/-- A cell as R402 and R436 write it. -/
def cellWord : Option (Nat × Nat) → Nat
  | none => 0xFFFF
  | some (d, n) => d * 256 + n

/-- A record of the catch log (R436); the ringmaster keeps the latest 1,024. A new entry is a
management event (R374). -/
def State.catchEntry (s : State) (kind cause : Nat) (c : Chan) (old new : Option (Nat × Nat))
    (ctime block detail delay lag : Nat) : State :=
  let r : CatchRecord :=
    { seq := s.hub.catchSeq + 1, kind := kind, cause := cause, channel := c.n, epoch := c.epoch
      oldCell := cellWord old, newCell := cellWord new, ctime := ctime, block := block, u := c.u
      detail := detail, delay := delay, lag := lag }
  (s.onHub fun h =>
    { h with catchSeq := h.catchSeq + 1
             catchLog := (h.catchLog ++ [r]).drop (h.catchLog.length + 1 - 1024) }).managementEvent

/-! ### LOCKUP_N -/

/-- R129: LOCKUP_N is low while a channel that is not masked is HALTED by lockup. -/
def State.lockupPin (s : State) : State :=
  let masked := (s.hub.image.map (·.device.masked)).getD []
  let low := s.chans.any fun c => (c.state == .halted || (c.state == .testing && c.cell.elim false (·.core.lockup))) && !(masked.contains c.n)
  s.onHub fun h => { h with lockupN := !low }

/-- The bank that powers channel pin `k` of channel n is powered (R475). -/
def State.pinPowered (s : State) (n k : Nat) : Bool :=
  match s.card n with
  | none => false
  | some c =>
    let p := c.pins.getD k 0xFFFF
    decide (p < 144) && (s.die c.die).banks.getD (p / 72) 0 != 0

/-- The pads of channel n as its cell drives them; a pin in an unpowered bank stays high-impedance. -/
def State.padsOf (s : State) (n : Nat) (c : Cell) : List Pad :=
  c.pads.zipIdx.map fun p => if s.pinPowered n p.2 then p.1 else { drive := none, pull := 0 }

end Sys2Proof.Machine
end

