-- ==== Sys2Proof/Machine/Ports.lean ====
section
/-! DEFINITION. The rings of the host port: their registers, arming, doorbells, index write-back, messages
and errors, and the responses of PF0 (R377 to R382, R398, R399). -/

namespace Sys2Proof.Machine

/-- The function that a queue belongs to (R377, R398). -/
def fnOf : QueueId → Nat
  | .vf ch _ => ch + 1
  | _ => 0

/-- The direction, the unit and the minimum LOG2SIZE of a queue (R377, R398). -/
def isInbound : QueueId → Bool
  | .vf _ q => decide (q < 8)
  | .mcq => true
  | .mrq => false

def unitOf : QueueId → Nat
  | .vf _ q => if q = 6 ∨ q = 7 then 32 else 16
  | .mcq => 64
  | .mrq => 16

def minLog : QueueId → Nat
  | .vf _ 8 => 12
  | .vf _ 9 => 12
  | .vf _ 10 => 5
  | _ => 4

def State.queue (s : State) : QueueId → Queue
  | .mcq => s.hub.mcq
  | .mrq => s.hub.mrq
  | .vf ch q => (s.chan ch).queues.getD q .blank

def State.onQueue (s : State) (q : QueueId) (f : Queue → Queue) : State :=
  match q with
  | .mcq => s.onHub fun h => { h with mcq := f h.mcq }
  | .mrq => s.onHub fun h => { h with mrq := f h.mrq }
  | .vf ch n => s.onChan ch fun c => { c with queues := updateAt c.queues n f }

/-- A queue of a function that the part offers. -/
def State.hasQueue (s : State) : QueueId → Bool
  | .vf ch q => s.offers ch && decide (q < 16)
  | _ => true

/-- Units of a ring (R378), and the difference of two counts modulo 2³² (R380, R381). -/
def Queue.size (q : Queue) : Nat := 2 ^ q.log2
def gap (a b : Nat) : Nat := (a + 0x100000000 - b % 0x100000000) % 0x100000000

/-- The host address of unit `i` of a ring (R378). -/
def Queue.at (q : Queue) (unit i : Nat) : Nat := q.base + i % q.size * unit

/-- The vector of a queue's messages: the response ring's is vector 0 of PF0 (R374, R379). -/
def Queue.vector (x : Queue) : QueueId → Nat
  | .mrq => 0
  | .mcq => x.vec
  | .vf _ _ => x.vec

/-- A message of a queue, with the start of its holdoff (R382). -/
def State.queueMessage (s : State) (q : QueueId) : State :=
  (s.signal (fnOf q) ((s.queue q).vector q)).onQueue q fun x => { x with quiet := x.holdoff != 0 }

/-- R382: the device's index has advanced to `index`: write-back, then a message or a deferred one. -/
def State.advanced (s : State) (q : QueueId) (index : Nat) : State :=
  let x := s.queue q
  let s := if x.wbEn ∧ s.hub.canSend then s.send (.mem (fnOf q) x.wb (leBytes 4 index) false) else s
  if ¬ x.ie then s
  else if x.quiet then s.onQueue q fun x => { x with deferred := true }
  else s.queueMessage q

/-- A queue stops carrying traffic: what it had read and not delivered is dropped (R378, R481). -/
def Queue.disarmed (q : Queue) : Queue :=
  { q with arm := false, issued := 0, bells := [], reading := false, inHand := none, samples := none, live := [] }

/-- R382: an error of R378, R380 or R381. -/
def State.queueError (s : State) (q : QueueId) (code : Nat) : State :=
  let s := s.onQueue q fun x => { x.disarmed with errc := code }
  let s := if (s.queue q).ie then s.queueMessage q else s
  match q with
  | .vf ch n => if n = 11 then s else s.onChan ch fun c => c.notify 0x08 (n * 256 + code) c.now
  | _ => s

/-- A write of CTL (R378, R379). -/
def State.ctlWrite (s : State) (q : QueueId) (v : Word) : State :=
  let s := s.onQueue q fun x =>
    { x with wbEn := v.getLsbD 30, ie := v.getLsbD 29, vec := bitsOf v.toNat 17 16
             holdoff := v.toNat % 65536 }
  let x := s.queue q
  if ¬ v.getLsbD 31 then s.onQueue q Queue.disarmed
  else if x.arm then s
  else if x.log2 < minLog q ∨ 16 < x.log2 then s.queueError q 5
  else s.onQueue q fun x => { x.disarmed with arm := true, prod := 0, cons := 0 }

/-- The doorbells that tell of entries not yet taken by the cell (R404). -/
def Queue.waiting (x : Queue) : List (Nat × Nat) :=
  let head := gap x.issued (if x.reading || x.inHand.isSome then 1 else 0)
  x.bells.filter fun b => decide (0 < gap b.1 head ∧ gap b.1 head ≤ x.size)

/-- The order of the oldest one, after every other when there is none. -/
def Queue.age (x : Queue) (none_ : Nat) : Nat := (x.waiting.head?).elim none_ (·.2)

/-- R380: a write of an inbound doorbell. -/
def State.inDoorbell (s : State) (q : QueueId) (prod : Nat) : State :=
  let x := s.queue q
  if ¬ x.arm then s
  else if gap prod x.cons ≤ x.size then
    (s.onHub fun h => { h with bellCount := h.bellCount + 1 }).onQueue q fun x =>
      { x with prod := prod, bells := x.waiting ++ [(prod, s.hub.bellCount)] }
  else s.queueError q 1

/-- R381: a write of an outbound doorbell. -/
def State.outDoorbell (s : State) (q : QueueId) (cons : Nat) : State :=
  let x := s.queue q
  if ¬ x.arm then s
  else if gap cons x.cons ≤ gap x.prod x.cons then s.onQueue q fun x => { x with cons := cons }
  else s.queueError q 2

def State.doorbell (s : State) (q : QueueId) (v : Nat) : State :=
  if isInbound q then s.inDoorbell q v else s.outDoorbell q v

/-- A write of a queue register at offset `o` (R378, R379). -/
def State.queueWrite (s : State) (q : QueueId) (o : Nat) (v : Word) : State :=
  let n := v.toNat
  let low (x old : Nat) : Nat := old / 0x100000000 * 0x100000000 + x
  let high (x old : Nat) : Nat := x * 0x100000000 + old % 0x100000000
  let unarmed (f : Queue → Queue) : State := s.onQueue q fun x => if x.arm then x else f x
  match o with
  | 0x00 => unarmed fun x => { x with base := low (n / 64 * 64) x.base }
  | 0x04 => unarmed fun x => { x with base := high n x.base }
  | 0x08 => unarmed fun x => { x with log2 := n % 32 }
  | 0x0C => unarmed fun x => { x with wb := low (n / 4 * 4) x.wb }
  | 0x10 => unarmed fun x => { x with wb := high n x.wb }
  | 0x14 => s.ctlWrite q v
  | 0x20 => s.onQueue q fun x => { x with errc := Nat.land x.errc (15 - n % 16) }
  | _ => s

/-- An entry has been consumed: CONS passes `n` of them (R380). -/
def State.consume (s : State) (q : QueueId) (n : Nat) : State :=
  let s := s.onQueue q fun x => { x with cons := (x.cons + n) % 0x100000000 }
  s.advanced q (s.queue q).cons

/-- Whether an outbound ring has room for `slots` units (R381). -/
def Queue.room (q : Queue) (slots : Nat) : Bool := q.arm && decide (gap q.prod q.cons + slots ≤ q.size)

/-! ### Responses -/

/-- A response (R399). -/
def responseBytes (op status tag ch d16 epoch d32 : Nat) : List Byte :=
  leBytes 1 op ++ leBytes 1 status ++ leBytes 2 tag ++ leBytes 2 ch ++ leBytes 2 d16 ++ leBytes 4 epoch ++
    leBytes 4 d32

/-- The responses that MRQ has room for are written (R381, R398). -/
def State.flushMrq : Nat → State → State
  | 0, s => s
  | n + 1, s =>
    match s.hub.responses with
    | [] => s
    | r :: t =>
      let q := s.hub.mrq
      if ¬ s.hub.canSend ∨ ¬ q.room 1 then s
      else
        let s := (s.send (.mem 0 (q.at 16 q.prod) r (s.relaxed 0))).onHub fun h =>
          { h with responses := t, mrq := { h.mrq with prod := (h.mrq.prod + 1) % 0x100000000 } }
        State.flushMrq n (s.advanced .mrq s.hub.mrq.prod)

def State.flushResponses (s : State) : State := State.flushMrq s.hub.responses.length s

/-- The response to command `op` of tag `tag`, with the channel's epoch after the command (R399). -/
def State.respond (s : State) (op status tag ch d16 d32 : Nat) : State :=
  let r := responseBytes op status tag ch d16 (s.chan ch).epoch d32
  (s.onHub fun h => { h with responses := h.responses ++ [r] }).flushResponses

/-- The response to a command whose tag may have been lost with a reset (R394, R481). -/
def State.respondTo (s : State) (tag : Option Nat) (op status ch : Nat) : State :=
  match tag with
  | some t => s.respond op status t ch 0 0
  | none => s

/-- The ringmaster takes a command from MCQ, in ring order (R399). The command is the entry that its host read has
returned. -/
def State.takeCommand (s : State) : State := s.consume .mcq 1

/-- PF0 carries management commands (R37, R372), and MCQ has an entry to take (R398). -/
def State.manages (s : State) : Bool :=
  s.hub.ready && s.hub.canSend && s.hub.mcq.arm && s.hub.mcq.cons != s.hub.mcq.prod

/-- The host reaches the BARs: the link is up and configuration requests complete (R34). -/
def State.hostReaches (s : State) : Bool := s.hub.linkUp && s.hub.ready

/-- A read command's bytes go to its host buffer, as far as its length allows; DETAIL32 gives the
bytes written (R399). -/
def State.answer (s : State) (op tag buf len : Nat) (ch : Nat) (bytes : List Byte) : State :=
  let out := bytes.take len
  let s := if out = [] then s else s.send (.mem 0 buf out false)
  s.respond op 0 tag ch 0 out.length

end Sys2Proof.Machine
end

