-- ==== Sys2Proof/Machine/Net.lean ====
section
/-! DEFINITION. The safety net of a channel: the input log, snapshots and checkpoints, running without a
net, stops, catches and SAFE (R51, R133, R409 to R435, R503). -/

namespace Sys2Proof.Machine

/-! ### The input log -/

/-- The bytes of a record (R416). -/
def LogRecord.size (r : LogRecord) : Nat := 8 + (r.payload.length + 7) / 8 * 8

/-- The bytes of the record area in use (R417). -/
def Chan.logUsed (c : Chan) : Nat := (c.log.map (·.size)).sum

abbrev logArea : Nat := 49152
abbrev logForce : Nat := 40960

/-- The cause in effect of highest rank, and NET_STAT (R418, R434). -/
def netCode : NetCause → Nat
  | .logFull => 1
  | .slotError => 2
  | .debug => 3

def Chan.netStat (c : Chan) : Nat :=
  if c.netOff = [] then 0 else 0x80 + (c.netOff.map fun x => netCode x.1).foldl max 0

def Chan.netIs (c : Chan) (x : NetCause) : Bool := c.netOff.any fun y => y.1 == x

/-- NET_STAT follows the causes in effect (R434). -/
def Chan.showNet (c : Chan) : Chan :=
  c.onCell fun x => { x with io := x.io.wr 0xEE00 (BitVec.ofNat 8 c.netStat) }

/-- A cause begins (R418). -/
def State.netBegins (s : State) (ch : Nat) (cause : NetCause) : State :=
  let c := s.chan ch
  if c.netIs cause then s
  else
    (s.onChan ch fun c => { c with netOff := c.netOff ++ [(cause, c.now)] }.showNet).catchEntry 0x03
      (0x0F + netCode cause) c c.place none c.now 0 0 0 0

/-- R417: a forced checkpoint is requested at 40 KB or more in use with no snapshot pending or being
copied. -/
def Chan.mayForce (c : Chan) : Chan :=
  if logForce ≤ c.logUsed ∧ c.snapshot.isNone ∧ c.netOff = [] then { c with forced := true } else c

/-- R415, R416, R418: an input is logged with the channel time at which the cell takes it. -/
def State.logAt (s : State) (ch time kind : Nat) (payload : List Byte) : State :=
  let c := s.chan ch
  let r : LogRecord := { time := time, kind := kind, payload := payload }
  if c.netIs .debug ∨ c.logFull ∨ c.cell.isNone then s
  else if c.logUsed + r.size ≤ logArea then s.setChan { c with log := c.log ++ [r] }.mayForce
  else
    (s.setChan { c with logFull := true, netEnds := c.netEnds.filter (· != .logFull) }).netBegins ch
      .logFull

/-- An input that the cell takes now. -/
def State.log (s : State) (ch kind : Nat) (payload : List Byte) : State := s.logAt ch (s.chan ch).now kind payload

/-- The record of kind 0Fh (R415, R435). -/
def State.logNet (s : State) (ch : Nat) : State :=
  let c := s.chan ch
  if c.netOff ≠ [] then s
  else
    s.log ch 0x0F (c.cell.elim [] fun x =>
      x.io.block 0xEE00 1 ++ x.io.block 0xEE02 2 ++ x.io.block 0xEE04 2 ++ leBytes 3 0)

/-- A cause ends (R418, R435). -/
def State.netEnded (s : State) (ch : Nat) (cause : NetCause) : State :=
  let c := s.chan ch
  match c.netOff.find? fun x => x.1 == cause with
  | none => s
  | some (_, t0) =>
    let us := c.cell.elim 0 fun x => x.micros (x.beam.ctime - t0)
    let s := s.onChan ch fun c => { c with netOff := c.netOff.filter fun x => x.1 != cause }.showNet
    (s.catchEntry 0x04 (0x0F + netCode cause) c c.place none c.now 0 us 0 0).logNet ch

/-- CATCHES or TESTS of the net-status block, by address, increases (R434). -/
def Chan.countNet (c : Chan) (addr : Nat) : Chan := c.onCell fun x => { x with io := x.io.count16 addr 1 }

/-! ### Snapshots -/

/-- The cell stands at the tick of a frame boundary, or of the start of a line (R412). -/
def Cell.atBoundary (x : Cell) : Bool := x.beam.boundary && !x.beam.entered
def Cell.atLineStart (x : Cell) : Bool := x.beam.dot == 0

/-- The state record of a slot or a snapshot holds of each key only its type, usage and origin (R456). -/
def Cell.stateRecord (x : Cell) : Cell :=
  { x with slots := x.slots.map fun k => k.map fun y => { y with bytes := [] } }

/-- A snapshot: the state of this tick is copied next, the slots go into escrow, and the causes that end
with its copy are noted (R412, R418, R456). A log that was full starts again here. -/
def State.snapshot (s : State) (ch : Nat) : State :=
  let c := s.chan ch
  let ends := (c.netOff.map (·.1)).filter fun x => x != .debug || c.detached
  let c := { c with
    snapshot := c.cell.map Cell.stateRecord
    log := if c.logFull ∨ c.detached then [] else c.log
    logOld := if c.logFull ∨ c.detached then 0 else c.log.length
    logFull := false, netEnds := ends, sinceSnap := 0, snapDue := false, forced := false
    detached := false, lastU := c.u, u := 0#8 }
  (s.setChan c).onHub fun h =>
    { h with keys := { h.keys with
        escrow := insertNat h.keys.escrow ch (c.cell.elim [] (·.slots)) } }

/-- A snapshot may be taken now (R412, R133). -/
def Chan.maySnap (c : Chan) : Bool :=
  c.snapshot.isNone && c.step == .none && !c.attached && !c.draining &&
    [.running, .napping, .halted].contains c.state

/-- The regular snapshot: at the I-th frame boundary, or one that is due (R412). -/
def State.regularSnapshot (s : State) (ch : Nat) : State :=
  let c := s.chan ch
  if c.maySnap ∧ c.cell.elim false (·.atBoundary) ∧ (c.snapDue ∨ c.detached ∨ c.interval ≤ c.sinceSnap) then
    s.snapshot ch
  else s

/-- R413: the copy completes: the checkpoint is replaced, older records are freed and the causes that
waited for it end. A copy that meets an uncorrectable error leaves no readable checkpoint (R418). -/
def State.copied (s : State) (ch : Nat) (bad : Bool) : State :=
  let c := s.chan ch
  if c.snapshot.isNone then s
  else if bad then
    (s.setChan { c with snapshot := none, checkpoint := none }).netBegins ch .slotError
  else
    let s := s.setChan { c with checkpoint := c.snapshot, snapshot := none
                                log := c.log.drop c.logOld, logOld := 0, netEnds := [] }
    (c.netEnds.foldl (fun s x => s.netEnded ch x) s).onChan ch Chan.mayForce

/-! ### Stops -/

/-- The stop states of a card as pads (R46, R332); `hold` keeps the level, the direction and the
pull. -/
def State.stopPads (s : State) (ch : Nat) : List Pad :=
  let old := (s.chan ch).pads
  match s.card ch with
  | none => floatPads
  | some c => old.zipIdx.map fun p =>
    if ¬ s.pinPowered ch p.2 then { drive := none, pull := 0 }
    else match c.stops.getD p.2 1 with
      | 0 => p.1
      | 2 => { drive := some false, pull := 0 }
      | 3 => { drive := some true, pull := 0 }
      | _ => { drive := none, pull := 0 }

/-- R51: an accepted STOP: the core and every block of the cell halt and the drain begins. A cast or a
catch in progress is cut short (R51, R426), and a cell under test goes back to the kiln (R450). -/
def State.beginDrain (s : State) (ch : Nat) : State :=
  let c := s.chan ch
  let s := (s.onChan ch fun c => { c with castTag := none }).respondTo c.castTag 0x01 5 ch
  s.onChan ch fun c => Chan.showView
    { c with
      epoch := c.epoch + 1, draining := true, step := .none, planned := none, testDue := false
      drainFault := c.state == ChanState.testing
      cell := c.cell.map fun x => { x with runs := false, outq := [] } }

/-- The key slots of a channel and their escrow are erased (R51, R433, R454). -/
def State.eraseKeys (s : State) (ch : Nat) : State :=
  s.onHub fun h => { h with keys := { h.keys with escrow := h.keys.escrow.filter fun e => e.1 != ch } }

/-- What ends with a channel's cell: the checkpoint, the log, the debugger's attachment and the net's
causes. They end with no record 04h and no duration, of which R133 says nothing where the cell itself ends (DESIGN
CHOICE, assumption 114). -/
def Chan.withoutCell (c : Chan) : Chan :=
  { c with
    cell := none, place := none, checkpoint := none, snapshot := none, log := [], logOld := 0
    logFull := false, netOff := [], netEnds := [], attached := false, detached := false
    snapDue := false, forced := false, sinceSnap := 0, step := .none, draining := false
    drainFault := false, planned := none, testDue := false, rising := 0#16, falling := 0#16
    layerReads := [[], []], layerOld := [0, 0], layerNext := [0, 0], layerOff := [0, 0] }

/-! ### Catches -/

/-- R433: the channel enters SAFE with cause `cause`, 20h NO_RESERVE or 21h CHECKPOINT_LOST. -/
def State.enterSafe (s : State) (ch cause : Nat) (old : Option (Nat × Nat)) (time block detail : Nat) : State :=
  let pads := s.stopPads ch
  let s := (s.eraseKeys ch).onChan ch fun c => { c.withoutCell with state := .safe, pads := pads }.showView
  ((s.catchEntry 0x05 cause (s.chan ch) old none time block detail 0 0).managementEvent).lockupPin

/-- R420, steps 1, 2 and 8: a hardware fault in a protected channel. The reserve is chosen while the failed cell still
hosts it (R430, R431). `lost` when the checkpoint or the log cannot be read (R433). -/
def State.catch_ (s : State) (ch cause block detail : Nat) (lost : Bool) : State :=
  let c := s.chan ch
  match c.place with
  | none => s
  | some old =>
    let again := c.step != .none
    let time := if again then max c.faultTime c.now else c.now
    let s := s.setChan { c with
      epoch := c.epoch + 1
      state := if c.state = .running then .catching else c.state
      -- the frame in progress at the fault counts (R425)
      u := c.cell.elim c.u fun x => if c.u.toNat < x.utilNow x.beam.ctime then BitVec.ofNat 8 (x.utilNow x.beam.ctime) else c.u
      rising := if again then c.rising else 0#16
      falling := if again then c.falling else 0#16
      cell := c.cell.map fun x => { x with runs := false, outq := [] } }
    if lost ∨ (c.checkpoint.isNone ∧ c.snapshot.isNone) then
      (s.toKiln old 2).enterSafe ch 0x21 (some old) time block detail
    else match s.catchCell old.1 (s.pinless ch) with
      | none => (s.toKiln old 2).enterSafe ch 0x20 (some old) time block detail
      | some new =>
        ((s.host new ch).toKiln old 2).onChan ch fun c =>
          { c with
            place := some new, step := .loading
            oldPlace := if again then c.oldPlace else old
            faultTime := if again then c.faultTime else time
            faultCause := if again then c.faultCause else cause
            faultBlock := if again then c.faultBlock else block }.showView

/-- R503: a fault during a cast restarts it on another free cell, or returns NO_CELL. -/
def State.castRestart (s : State) (ch cause block detail : Nat) : State :=
  let c := s.chan ch
  match c.place with
  | none => s
  | some old =>
    let die := if s.pinless ch then 0 else (s.card ch).elim 0 (·.die)
    match s.castCell die (some old) with
    | some p =>
      (((s.host p ch).toKiln old 2).onChan ch fun c => { c with place := some p }).catchEntry 0x07 cause c (some old)
        (some p) 0 block detail 0 0
    | none =>
      -- the pads take the state of R332 for the state to which the channel returns
      let pads := if c.before = .uncast then floatPads else s.stopPads ch
      let s := (s.toKiln old 2).onChan ch fun c =>
        { c.withoutCell with state := c.before, cause := 3, castTag := none, pads := pads }.showView
      (s.catchEntry 0x07 cause (s.chan ch) (some old) none 0 block detail 0 0).respondTo c.castTag 0x01 4 ch

/-- What a hardware fault in the cell of channel `ch` leads to (R133, R409, R419, R420, R503). `cause` and
`block` are those of R436. -/
def State.hardwareFault (s : State) (ch cause block detail : Nat) (lost : Bool) : State :=
  let c := s.chan ch
  if c.place.isNone then s
  else if c.draining then
    (s.onChan ch fun c => { c with drainFault := true }).catchEntry 0x08 cause c c.place none c.now block
      detail 0 0
  else if c.state = .casting then s.castRestart ch cause block detail
  else if c.state = .testing then s
  else if c.netOff ≠ [] then
    let why := if c.netIs .debug then 0x13 else 0x14
    let s := s.beginDrain ch
    s.catchEntry 0x06 why (s.chan ch) c.place none c.now block detail 0 0
  else s.catch_ ch cause block detail lost

end Sys2Proof.Machine
end

