-- ==== Sys2Proof/Machine/Cells.lean ====
section
/-! DEFINITION. An event of a channel's cell: the cell's step, the level requests that follow from it, and
what the cell hands to the hub (R239, R257, R258, R306, R309, R359, R386 to R388, R392, R415). -/

namespace Sys2Proof.Machine

/-! ### Level sources -/

/-- LN_RX and LN_TX (R390). -/
def Cell.lnRxRequest (c : Cell) : Bool :=
  (List.range 4).any fun n =>
    let a := 0xEC20 + 0x10 * n
    let thr := (c.io.rd (a + 8)).toNat
    (c.io.bit (a + 1) 6 && decide (thr ≠ 0 ∧ thr ≤ (c.line n).rx.length)) ||
      (c.io.bit (a + 1) 4 && c.io.bit (a + 2) 5)

def Cell.lnTxRequest (c : Cell) : Bool :=
  (List.range 4).any fun n =>
    let a := 0xEC20 + 0x10 * n
    c.io.bit (a + 1) 5 && decide ((c.line n).txLevel ≤ (c.io.rd (a + 9)).toNat)

/-- The requests of the level sources (R359). -/
def Cell.requests (c : Cell) : List (Nat × Bool) :=
  (List.range 4).map (fun n => (n, c.timerRequest n)) ++
    [(srcAudPcm, decide (c.audio.pcmFifo.length ≤ 16)), (srcAudLb, decide (32 ≤ c.audio.loopback.length))] ++
    (List.range 4).map (fun k => (srcPioFlag0 + k, c.pio.flags.getLsbD k)) ++
    [(srcPin, c.pinRequest), (srcEvq, !c.evf.isEmpty), (srcLnRx, c.lnRxRequest), (srcLnTx, c.lnTxRequest)]

/-- A timer source raised during a nap is caught by a latch (R366, R367). -/
def Cell.napLatch (c : Cell) : Cell :=
  { c with nap := { c.nap with timers := (List.range 4).foldl (fun w n =>
      if c.timerRequest n ∧ ¬ c.intc.request.getLsbD n ∧ c.srcEnabled n ∧ c.srcWakes n then
        w ||| BitVec.ofNat 4 (2 ^ n) else w) c.nap.timers } }

/-- The interrupt controller sees the level requests as they stand (R360). -/
def Cell.settle (c : Cell) : Cell :=
  if c.nap.napping then c.napLatch else c.requests.foldl (fun c r => c.present r.1 r.2) c

/-! ### Holdings -/

/-- The slots of a record (R381), and the bytes of its slots. -/
def slotsOf (bytes : List Byte) : Nat := (bytes.length + 15) / 16
def Held.size (h : Held) : Nat := 16 * slotsOf h.bytes
def heldSize (l : List Held) : Nat := (l.map (·.size)).sum

/-- R257, R392: the oldest records go until `need` more bytes fit in `limit`, one that has moved in part among
them. The answer is what stays and what goes. -/
def makeRoom (limit need : Nat) : List Held → List Held × List Held
  | [] => ([], [])
  | h :: t =>
    if heldSize (h :: t) + need ≤ limit then (h :: t, [])
    else
      let r := makeRoom limit need t
      (r.1, h :: r.2)

/-- The frame of a record, and whether it is a seal (R246, R248). -/
def Held.frame (h : Held) : Nat := leNat ((h.bytes.drop 4).take 4)
def Held.isSeal (h : Held) : Bool := (h.bytes.getD 3 0#8) >>> 4 == 2#8

/-- A seal with PARTIAL set (R248). -/
def Held.partial_ (h : Held) : Held := { h with bytes := updateAt h.bytes 3 fun b => b ||| 2#8 }

/-- A record enters a stream's holding: counts of R258, and the discards of R257. The answer tells
whether any record was discarded. -/
def StreamHold.take (k : StreamHold) (limit blocks : Nat) (bytes : List Byte) : StreamHold × Nat :=
  let r : Held := { bytes := bytes, moved := 0 }
  let room := makeRoom limit r.size k.held
  let lost := room.2
  let isLast := r.isSeal
  let r := if isLast ∧ k.partialFrame = some r.frame then r.partial_ else r
  let hit (h : Held) : Bool := h.isSeal && lost.any fun x => !x.isSeal && x.frame == h.frame
  let open_ := lost.any fun x => !x.isSeal && x.frame == r.frame
  let r := if isLast ∧ open_ then r.partial_ else r
  ({ k with
     held := room.1.map (fun h => if hit h then h.partial_ else h) ++ [r]
     partialFrame := if isLast then none else if open_ then some r.frame else k.partialFrame
     sherds := k.sherds + (if isLast then 0 else 1)
     blocks := k.blocks + blocks
     payload := k.payload + (bytes.length - 16)
     dropped := k.dropped + lost.length
     refreshes := k.refreshes + (if isLast ∧ (bytes.getD 3 0#8).getLsbD 0 then 1 else 0) }, lost.length)

/-- The number of blocks of a sherd record (R246). -/
def sherdBlocks (bytes : List Byte) : Nat := bitsOf (leNat (bytes.take 4)) 10 6 + 1

abbrev streamLimit : Nat := 40960
abbrev serviceLimit : Nat := 1048576

/-- A record of stream `st` leaves the cell (R245, R257). -/
def Chan.takeRecord (c : Chan) (st : Stream) (bytes : List Byte) : Chan :=
  let blocks := if (bytes.getD 3 0#8) >>> 4 = 2#8 then 0 else sherdBlocks bytes
  let renew (c : Chan) (n : Nat) : Chan := if n = 0 then c else c.onCell fun x => x.refreshStream st
  match st with
  | .shq =>
    let r := c.shq.take streamLimit blocks bytes
    (renew { c with shq := r.1 } r.2).countDropped 8 r.2
  | .clq =>
    let r := c.clq.take streamLimit blocks bytes
    (renew { c with clq := r.1 } r.2).countDropped 9 r.2
  | .svc =>
    let r := c.svc.take serviceLimit blocks bytes
    renew { c with svc := r.1 } r.2

/-- An audio packet enters the AUQ holding (R387, R392). -/
def Chan.takeAudio (c : Chan) (k stamp : Nat) (w24 : Bool) (body : List Byte) : Chan :=
  let head := leBytes 4 (3 * 2 ^ 28 + w24.toNat * 2 ^ 27) ++ leBytes 4 k ++ leBytes 4 (stamp % 2 ^ 32) ++
    leBytes 2 (stamp / 2 ^ 32) ++ leBytes 2 body.length
  let r : Held := { bytes := head ++ body, moved := 0 }
  let room := makeRoom 4096 r.size c.auq
  { c with auq := room.1 ++ [r], audDropped := c.audDropped + room.2.length }.countDropped 10 room.2.length

/-! ### Video-layer descriptors -/

/-- The retired entries at the front of an LYQ are passed by CONS (R386). -/
def State.retireLayers (s : State) (ch l : Nat) : State :=
  let q : QueueId := .vf ch (6 + l)
  let live := (s.queue q).live
  let n := (live.takeWhile fun e => e.2.2).length
  if n = 0 then s
  else (s.onQueue q fun x => { x with live := live.drop n }).consume q n

/-- The entries that have taken effect and that a later one has replaced are retired. -/
def retireReplaced : List (Nat × Bool × Bool) → List (Nat × Bool × Bool)
  | [] => []
  | e :: t => (if e.2.1 ∧ t.any (·.2.1) then (e.1, true, true) else e) :: retireReplaced t

/-- Host reads of layer l are outstanding: whole units, a unit begun, or reads from before the latest cut (R386). -/
def Chan.layerBusy (c : Chan) (l : Nat) : Bool :=
  decide (c.layerReads.getD l [] ≠ [] ∨ c.layerOff.getD l 0 ≠ 0 ∨ c.layerOld.getD l 0 ≠ 0)

/-- R386: a replaced descriptor is retired once the last fetch through it has completed. -/
def State.layerSettles (s : State) (ch l : Nat) (busy : Bool) : State :=
  (if busy then s
   else s.onQueue (.vf ch (6 + l)) fun x => { x with live := retireReplaced x.live }).retireLayers ch l

/-- R386: the descriptor accepted last has taken effect at a cut, or was refused. -/
def State.layerTaken (s : State) (ch l : Nat) (refused : Bool) : State :=
  let take (e : Nat × Bool × Bool) : Nat × Bool × Bool :=
    if e.2.1 ∨ e.2.2 then e else (e.1, !refused, refused)
  (s.onQueue (.vf ch (6 + l)) fun x => { x with live := x.live.map take }).layerSettles ch l
    ((s.chan ch).layerBusy l)

/-- The reads outstanding at a cut, or at a pause, are those of the frame before (R386). -/
def Chan.dropReads (c : Chan) : Chan :=
  { c with
    layerOld := c.layerOld.zipIdx.map fun p =>
      p.1 + (c.layerReads.getD p.2 []).length + (if c.layerOff.getD p.2 0 = 0 then 0 else 1)
    layerNext := [0, 0], layerOff := [0, 0], layerReads := [[], []] }

/-! ### The service outputs -/

/-- A sample in its 32 clocks of the I²S output: 24 bits, MSB first, then 8 zero bits (R309). -/
def i2sSlot (x : Int) : Word := BitVec.ofNat 32 (wordOf 24 x * 256)

/-- A sample as the fade lets it through (R309). -/
def Panel.faded (p : Panel) (rising : Bool) (x : Int) : Int :=
  if p.fade < 32 then (Config.fade x p.fade rising).toInt else x

/-- The channel heard and its place in the fade; with no channel selected the output carries zeros (R309). -/
def State.hears (s : State) (heard : Option Nat) (fade : Nat) : State :=
  s.onHub fun h => { h with panel := { h.panel with
    heard := heard, fade := fade, i2s := if heard.isNone then (0#32, 0#32) else h.panel.i2s } }

/-- A frame on the I²S output (R309). -/
def State.playFrame (s : State) (l r : Int) : State :=
  (s.send (.frame l r)).onHub fun h => { h with panel := { h.panel with i2s := (i2sSlot l, i2sSlot r) } }

/-- R309: a frame of outputs 6 and 7 of channel `ch` to the I²S output, through the fades. -/
def State.serviceFrame (s : State) (ch : Nat) (l r : Int) : State :=
  let p := s.hub.panel
  -- a channel heard before that has no running cell sends nothing to fade
  let silent := p.heard.elim true fun m => !((s.chan m).cell.elim false (·.runs))
  if p.heard ≠ some ch ∧ p.selected = some ch ∧ silent then
    (s.playFrame (Config.fade l 0 true).toInt (Config.fade r 0 true).toInt).hears p.selected 1
  else if p.heard = some ch then
    if p.selected = some ch then (s.playFrame (p.faded true l) (p.faded true r)).hears p.heard (min 32 (p.fade + 1))
    else if 1 < p.fade then (s.playFrame (p.faded false l) (p.faded false r)).hears p.heard (p.fade - 1)
    else
      ((s.playFrame (p.faded false l) (p.faded false r)).hears p.selected 0).onChan ch fun c =>
        c.onCell fun x => { x with audio := { x.audio with service := false } }
  else s

/-! ### What a cell hands over -/

/-- A lockup (R128 to R130): HALTED, the notification, the record, LOCKUP_N and the management event. -/
def State.lockedUp (s : State) (ch : Nat) (r : LockupInfo) : State :=
  let s := s.onChan ch fun c =>
    let c : Chan := { c with
      state := if c.draining then c.state else .halted
      lockup := some { epoch := c.epoch, info := r }
      cell := c.cell.map fun x => { x with picture := { x.picture with held := true } } }
    (c.notify 0x01 (r.second * 256 + r.first.toNat) r.time).showView
  (s.managementEvent).lockupPin

/-- A nap begins or ends (R365, R368, R397, R412). -/
def State.napChange (s : State) (ch : Nat) (begins : Bool) : State :=
  s.onChan ch fun c =>
    if begins then
      Chan.showView { c with
        state := .napping, snapDue := true
        cell := c.cell.map fun x => { x with picture := { x.picture with held := true } } }
    else
      let c : Chan := { c with
        state := .running, refreshWait := []
        cell := c.cell.map fun x =>
          c.refreshWait.foldl (fun x st => x.refreshStream st)
            { x with picture := { x.picture with held := x.dry } } }
      c.showView

def State.flushOne (s : State) (ch : Nat) : Emit → State
  | .lockup r => s.lockedUp ch r
  | .notify code detail time => s.onChan ch fun c => c.notify code detail time
  | .logRecord kind payload => s.log ch kind payload
  | .logAt time kind payload => s.logAt ch time kind payload
  | .layerTaken l _ refused => s.layerTaken ch l refused
  | .record st _ bytes => s.onChan ch fun c => c.takeRecord st bytes
  | .audio k stamp w24 bytes => s.onChan ch fun c => c.takeAudio k stamp w24 bytes
  | .nap begins => s.napChange ch begins
  | .service l r => s.serviceFrame ch l r

/-- The pads follow the cell while the channel is RUNNING or HALTED (R332). -/
def State.showPads (s : State) (ch : Nat) : State :=
  let c := s.chan ch
  match c.cell with
  | some x =>
    if (c.state = .running ∨ c.state = .halted) ∧ c.step = .none ∧ ¬ c.draining then
      s.setChan { c with pads := s.padsOf ch x }
    else s
  | none => s

/-- What the cell has handed over goes to the hub, oldest first. -/
def State.flush (s : State) (ch : Nat) : State :=
  match (s.chan ch).cell with
  | none => s
  | some x =>
    (x.outq.foldl (fun s e => s.flushOne ch e)
      (s.onChan ch fun c => c.onCell fun x => { x with outq := [] })).showPads ch

/-- An event `f` of the cell of channel `ch`; nothing happens in a channel whose island does not run. -/
def State.cellEvent (s : State) (ch : Nat) (f : Cell → Cell) : State :=
  match (s.chan ch).cell with
  | none => s
  | some x =>
    if ¬ x.runs ∨ ¬ s.offers ch then s
    else (s.setChan { s.chan ch with cell := some (f x).settle }).flush ch

end Sys2Proof.Machine
end

