-- ==== Sys2Proof/Machine/Carousel.lean ====
section
/-! DEFINITION. The carousel: what one visit moves, the entries that the cell accepts, the host reads of
the queues and of the video layers, and the records written to the rings (R221, R257, R380 to R388,
R391, R403, R404). -/

namespace Sys2Proof.Machine

/-- A change of a cell by a delivery of the hub, with the level requests that follow from it. -/
def State.deliver (s : State) (ch : Nat) (f : Cell → Cell) : State :=
  (s.onChan ch fun c => c.onCell fun x => (f x).settle).flush ch

/-- What an item of a visit does, and the bytes that it costs (R403). -/
abbrev Item := Option (State × Nat)

/-! ### Outbound -/

/-- The next item of the record `h` into its ring; its PROD advances when the record is whole. The rest of
the record stays held (R381, R404). -/
def State.moveHead (s : State) (q : QueueId) (h : Held) : Option (State × Option Held × Nat) :=
  let x := s.queue q
  let moved := if x.issued = 0 then 0 else h.moved
  if ¬ x.arm ∨ (moved = 0 ∧ ¬ x.room (h.size / 16)) then none
  else
    let k := min 512 (h.size - moved)
    let padded := h.bytes ++ List.replicate (h.size - h.bytes.length) 0#8
    let s := (List.range (k / 16)).foldl (fun s i =>
      s.send (.mem (fnOf q) (x.at 16 (x.prod + moved / 16 + i)) ((padded.drop (moved + 16 * i)).take 16)
        (s.relaxed (fnOf q)))) s
    if h.size ≤ moved + k then
      let s := s.onQueue q fun x => { x with issued := 0, prod := (x.prod + h.size / 16) % 0x100000000 }
      some (s.advanced q (s.queue q).prod, none, k)
    else some (s.onQueue q fun x => { x with issued := 1 }, some { h with moved := moved + k }, k)

/-- The head of a holding moves. -/
def State.moveHeld (s : State) (q : QueueId) (held : List Held) (put : List Held → State → State) : Item :=
  match held with
  | [] => none
  | h :: t => (s.moveHead q h).map fun r => (put (r.2.1.toList ++ t) r.1, r.2.2)

/-- R388, R392: the next NTQ record, with the epoch as it is delivered; NTQ_LOST goes first. -/
def State.itemNtq (s : State) (ch : Nat) : Item :=
  let c := s.chan ch
  let epoch (h : Held) : Held :=
    { h with bytes := h.bytes.take 4 ++ leBytes 4 c.epoch ++ h.bytes.drop 8 }
  if 0 < c.ntqLost then
    let r : Held := { bytes := ntqBytes 0x09 (min c.ntqLost 0xFFFFF) c.epoch c.now, moved := 0 }
    (s.moveHead (.vf ch 11) r).map fun r => (r.1.onChan ch fun c => { c with ntqLost := 0 }, r.2.2)
  else
    s.moveHeld (.vf ch 11) (c.ntq.map epoch) fun l s => s.onChan ch fun c => { c with ntq := l }

def State.itemAuq (s : State) (ch : Nat) : Item :=
  s.moveHeld (.vf ch 10) (s.chan ch).auq fun l s => s.onChan ch fun c => { c with auq := l }

def State.itemShq (s : State) (ch : Nat) : Item :=
  s.moveHeld (.vf ch 8) (s.chan ch).shq.held fun l s =>
    s.onChan ch fun c => { c with shq := { c.shq with held := l } }

def State.itemClq (s : State) (ch : Nat) : Item :=
  s.moveHeld (.vf ch 9) (s.chan ch).clq.held fun l s =>
    s.onChan ch fun c => { c with clq := { c.clq with held := l } }

/-- The next service record that has not crossed to the hub moves (R262, R404). -/
def moveService : List Held → Option (List Held × Nat)
  | [] => none
  | h :: t =>
    if h.moved < h.size then
      let k := min 512 (h.size - h.moved)
      some ({ h with moved := h.moved + k } :: t, k)
    else (moveService t).map fun r => (h :: r.1, r.2)

def State.itemSvc (s : State) (ch : Nat) : Item :=
  if s.hub.panel.selected ≠ some ch then none
  else (moveService (s.chan ch).svc.held).map fun r =>
    (s.onChan ch fun c => { c with svc := { c.svc with held := r.1 } }, r.2)

/-- The bytes at the front of a transmit FIFO, at most `n` (R384). -/
def lineBytes : Nat → List LineOut → List Byte
  | n + 1, .byte v :: t => v :: lineBytes n t
  | _, _ => []

/-- R384: an outbound LNQ entry of line l from its transmit FIFO; the drain is logged (R391). -/
def State.itemLineOut (s : State) (ch l : Nat) : Item :=
  let c := s.chan ch
  let q : QueueId := .vf ch (12 + l)
  match c.cell with
  | none => none
  | some x =>
    if ¬ c.accepts ∨ ¬ x.io.bit (0xEC21 + 0x10 * l) 7 ∨ ¬ (s.queue q).room 1 then none
    else
      let out (entry : List Byte) (n : Nat) (s : State) : Item :=
        let r : Held := { bytes := entry, moved := 0 }
        let s := s.deliver ch fun x => x.setLine l { x.line l with tx := (x.line l).tx.drop n, txAt := (x.line l).txAt.drop n }
        (s.moveHead q r).map fun r => (r.1, r.2.2)
      match (x.line l).tx with
      | [] => none
      | .status v :: _ => out ([2, 0, BitVec.ofNat 8 v] ++ List.replicate 13 0#8) 1 s
      | .byte _ :: _ =>
        let bytes := lineBytes 14 (x.line l).tx
        out ([1, BitVec.ofNat 8 bytes.length] ++ bytes ++ List.replicate (14 - bytes.length) 0#8)
          bytes.length (s.log ch 0x03 (leBytes 1 l ++ leBytes 1 bytes.length ++ leBytes 6 0))

/-! ### Inbound -/

def allZero (l : List Byte) : Bool := l.all (· == 0#8)

/-- R380: the next entry of an inbound ring is read. -/
def State.issueRead (s : State) (ch n : Nat) : Item :=
  let q : QueueId := .vf ch n
  let x := s.queue q
  if ¬ x.arm ∨ x.reading ∨ x.inHand.isSome ∨ x.issued = x.prod then none
  else
    let s := (s.send (.hostRead ch (x.at (unitOf q) x.issued) (unitOf q))).onQueue q fun x =>
      { x with reading := true, issued := (x.issued + 1) % 0x100000000 }
    some (s, unitOf q)

/-- The entry in hand is consumed; `skip` counts it in SKIPPED (R380). -/
def State.passEntry (s : State) (q : QueueId) (skip : Bool) : State :=
  (s.onQueue q fun x =>
    { x with inHand := none, samples := none
             skipped := (x.skipped + skip.toNat) % 0x100000000 }).consume q 1

/-- An EVQ entry (R383): the cell accepts it while EVF_CTL.EN is 1 and the event FIFO has room. -/
def State.acceptEvent (s : State) (ch : Nat) (e : List Byte) : Option State :=
  let q : QueueId := .vf ch 0
  let cls := (e.getD 0 0#8).toNat
  let c := s.chan ch
  if cls = 0 ∨ (4 ≤ cls ∧ cls < 0x80) ∨ ¬ allZero (e.drop 8) then some (s.passEntry q true)
  else if c.accepts ∧ c.cell.elim false (fun x => x.io.bit 0xEC09 7 && decide (x.evf.length < evfDepth)) then
    let ev := e.take 8
    let s := s.deliver ch fun x => ({ x with evf := x.evf ++ [ev] } : Cell).timerSource .accept
    some ((s.log ch 0x01 ev).passEntry q false)
  else none

/-- IN_SIG of line l, with SIG_CHG (R384, R389). -/
def Cell.lineSignal (x : Cell) (l v : Nat) : Cell :=
  let a := 0xEC22 + 0x10 * l
  let old := x.io.rd a
  let new := (old &&& 0xF0#8) ||| BitVec.ofNat 8 (v % 16)
  { x with io := x.io.wr a (if old = new then old else new ||| 0x20#8) }

/-- An LNQ in entry of line l (R384): data is delivered whole, status sets IN_SIG. -/
def State.acceptLine (s : State) (ch l : Nat) (e : List Byte) : Option State :=
  let q : QueueId := .vf ch (1 + l)
  let kind := (e.getD 0 0#8).toNat
  let n := (e.getD 1 0#8).toNat
  let c := s.chan ch
  let bad : Bool := match kind with
    | 1 => decide (n = 0 ∨ 14 < n)
    | 2 => n != 0 || decide (16 ≤ (e.getD 2 0#8).toNat) || !(allZero (e.drop 3))
    | _ => true
  if bad then some (s.passEntry q true)
  else if ¬ c.accepts then none
  else match c.cell with
    | none => none
    | some x =>
      if ¬ x.io.bit (0xEC21 + 0x10 * l) 7 ∨ (kind = 1 ∧ lineDepth < (x.line l).rx.length + n) then none
      else
        let s := s.deliver ch fun x =>
          if kind = 1 then x.setLine l { x.line l with rx := (x.line l).rx ++ (e.drop 2).take n }
          else x.lineSignal l (e.getD 2 0#8).toNat
        some ((s.log ch 0x02 e).passEntry q false)

/-- The stereo frames of an AIQ packet (R385): 16-bit samples, or 24-bit ones in 32-bit words, as Q1.23. -/
def aiqFrames (w24 : Bool) (data : List Byte) : List (Int × Int) :=
  (List.range 48).map fun i =>
    let size := if w24 then 4 else 2
    let at_ (k : Nat) : Int :=
      let v := leNat ((data.drop ((2 * i + k) * size)).take size)
      if w24 then signedOf 24 v else signedOf 16 v * 256
    (at_ 0, at_ 1)

/-- The samples of the AIQ entry in hand are read, while AIN_CTL.EN is 1 (R304, R385). -/
def State.readSamples (s : State) (ch : Nat) (e : List Byte) : Item :=
  let q : QueueId := .vf ch 5
  let c := s.chan ch
  let x := s.queue q
  if x.reading ∨ x.samples.isSome ∨ ¬ c.accepts ∨ ¬ c.cell.elim false (fun x => x.eff.bit 0xEB80 7) then none
  else
    let len := if e.getD 12 0#8 = 1#8 then 384 else 192
    some ((s.send (.hostRead ch (leNat (e.take 8)) len)).onQueue q fun x => { x with reading := true }, len)

/-- An AIQ entry with its samples (R304): the cell accepts or refuses the packet, and logs it. -/
def State.acceptAudio (s : State) (ch : Nat) (e : List Byte) : Option State :=
  let q : QueueId := .vf ch 5
  let fmt := (e.getD 12 0#8).toNat
  let c := s.chan ch
  if 2 ≤ fmt ∨ ¬ allZero ((e.drop 13).take 3) then some (s.passEntry q true)
  else match (s.queue q).samples, c.cell with
    | some data, some x =>
      if ¬ c.accepts ∨ ¬ x.eff.bit 0xEB80 7 then none
      else
        let rate := leNat ((e.drop 8).take 4)
        let outcome := if rate ≠ 48000 then 1 else if 8 ≤ x.audio.ain.length then 2 else 0
        let s := s.deliver ch fun x => x.ainPacket rate (aiqFrames (fmt == 1) data)
        let s := s.log ch (if fmt = 1 then 0x05 else 0x04)
          (leBytes 4 rate ++ leBytes 1 fmt ++ leBytes 1 outcome ++ leBytes 2 0 ++ data)
        some (s.passEntry q false)
    | _, _ => none

/-- The descriptor of an LYQ entry (R386). -/
def layerDescOf (e : List Byte) : LayerDesc :=
  let f (off n : Nat) : Nat := leNat ((e.drop off).take n)
  { base0 := f 0 8, base1 := f 8 8, pitch := f 16 4, sw := f 0x14 2 % 0x800, sh := f 0x16 2 % 0x400
    format := f 0x18 1 % 16, xfer := bitsOf (f 0x18 1) 5 4, prim := bitsOf (f 0x18 1) 6 6
    range := bitsOf (f 0x18 1) 7 7, tag := f 0x1A 2 }

/-- A descriptor that is accepted replaces the one accepted before it (R216). -/
def Cell.acceptLayer (x : Cell) (l : Nat) (d : LayerDesc) : Cell :=
  { x with picture := { x.picture with
      layers := updateAt x.picture.layers l fun y => { y with accepted := some d } } }

/-- An LYQ entry of layer l (R216, R386): an entry that it replaces before it took effect is retired. -/
def State.acceptDescriptor (s : State) (ch l : Nat) (e : List Byte) : Option State :=
  let q : QueueId := .vf ch (6 + l)
  let f (off n : Nat) : Nat := leNat ((e.drop off).take n)
  let bad := f 0x14 2 / 0x800 != 0 || f 0x16 2 / 0x400 != 0 || f 0x19 1 != 0 || f 0x1C 4 != 0
  let tag := f 0x1A 2
  if bad then
    some ((s.onQueue q fun x =>
      { x with inHand := none, skipped := (x.skipped + 1) % 0x100000000
               live := x.live ++ [(tag, false, true)] }).retireLayers ch l)
  else if ¬ (s.chan ch).accepts then none
  else
    let s := s.deliver ch fun x => x.acceptLayer l (layerDescOf e)
    let s := s.onQueue q fun x =>
      { x with inHand := none
               live := x.live.map (fun y => if y.2.1 then y else (y.1, false, true)) ++ [(tag, false, false)] }
    some ((s.onChan ch fun c => { c with layerStopped := updateAt c.layerStopped l fun _ => false }).retireLayers
      ch l)

/-- The entry in hand of inbound queue n is accepted, if the cell takes it now. -/
def State.accept (s : State) (ch n : Nat) : Option State :=
  match (s.queue (.vf ch n)).inHand with
  | none => none
  | some e =>
    if n = 0 then s.acceptEvent ch e
    else if n ≤ 4 then s.acceptLine ch (n - 1) e
    else if n = 5 then s.acceptAudio ch e
    else s.acceptDescriptor ch (n - 6) e

/-- The next item of inbound queue n. -/
def State.itemIn (s : State) (ch n : Nat) : Item :=
  match s.accept ch n, (s.queue (.vf ch n)).inHand with
  | some s', _ => some (s', 0)
  | none, some e => if n = 5 then s.readSamples ch e else none
  | none, none => s.issueRead ch n

/-! ### Video layers -/

/-- The descriptor through which layer l reads: the one that takes effect next, or the one in effect. -/
def Cell.layerSource (x : Cell) (l : Nat) : Option LayerDesc :=
  (x.picture.layers[l]?).bind fun y => y.next.or y.effect

/-- The last band whose lines may be read now (R221). -/
def Cell.fetchBand (x : Cell) : Nat :=
  if x.beam.line < x.vActive then x.beam.line / 8 + 1 else 0

/-- The source lines that layer l needs up to a band (R221). -/
def Cell.linesNeeded (x : Cell) (l : Nat) (d : LayerDesc) (band : Nat) : Nat :=
  let view := (x.beam.snap).getD x.eff
  let b := 0xE9A0 + 0x20 * l
  let dy := view.rdN (b + 4) 2
  let dh := view.rdN (b + 8) 2
  if ¬ view.bit b 7 then 0
  else (List.range (8 * (band + 1))).foldl (fun m y =>
    if dy ≤ y ∧ y < dy + dh then (linesUsed d.sh dh (y - dy)).foldl (fun m n => max m (n + 1)) m else m) 0

/-- Those up to the band that may be read now. -/
def Cell.linesWanted (x : Cell) (l : Nat) (d : LayerDesc) : Nat := x.linesNeeded l d x.fetchBand

/-- The pieces of host memory of a unit of layer l: a source line with its chroma line, or a band record
(R217, R255). -/
def unitPieces (d : LayerDesc) (n : Nat) : List (Nat × Nat) :=
  match d.format with
  | 0 => [(d.base0 + n * d.pitch, 3 * d.sw)]
  | 1 => [(d.base0 + n * d.pitch, 4 * d.sw)]
  | 2 => [(d.base0 + n * d.pitch, d.sw), (d.base1 + n / 2 * d.pitch, (d.sw + 1) / 2 * 2)]
  | 3 => [(d.base0 + n * d.pitch, 2 * d.sw), (d.base1 + n / 2 * d.pitch, (d.sw + 1) / 2 * 4)]
  | _ => [(d.base0 + n / 8 * d.pitch, d.pitch)]

/-- The piece of at most 512 bytes at offset `off` of a unit. -/
def pieceAt : List (Nat × Nat) → Nat → Option (Nat × Nat)
  | [], _ => none
  | (a, len) :: t, off => if off < len then some (a + off, min 512 (len - off)) else pieceAt t (off - len)

/-- R221: the next host read of layer l. -/
def State.itemLayer (s : State) (ch l : Nat) : Item :=
  let c := s.chan ch
  match c.cell with
  | none => none
  | some x =>
    match x.layerSource l with
    | none => none
    | some d =>
      let n := c.layerNext.getD l 0
      let off := c.layerOff.getD l 0
      if ¬ c.accepts ∨ x.dry ∨ c.layerStopped.getD l false ∨ x.linesWanted l d ≤ n then none
      else match pieceAt (unitPieces d n) off with
        | none =>
          -- no record fits in a PITCH of 0: the read is not issued, and ends in an error (R255)
          let lines := min 8 (d.sh - n)
          let s := s.onChan ch fun c => { c with layerNext := updateAt c.layerNext l fun _ => n + lines }
          some (s.deliver ch fun x => x.layerReadError l ((List.range lines).map (n + ·)), 0)
        | some (a, len) =>
          let total := ((unitPieces d n).map (·.2)).sum
          let lines := if d.format = 4 then min 8 (d.sh - n) else 1
          let whole := total ≤ off + len
          let s := s.send (.hostRead ch a len)
          some (s.onChan ch fun c =>
            { c with
              layerOff := updateAt c.layerOff l fun _ => if whole then 0 else off + len
              layerNext := updateAt c.layerNext l fun _ => if whole then n + lines else n
              layerReads := updateAt c.layerReads l fun r => if whole then r ++ [(n, lines)] else r }, len)

/-- The lines of a unit that has been read, or `none` for a read error (R217, R255). -/
def unitLines (d : LayerDesc) (n : Nat) (data : List Byte) : Option (List (Nat × List Rgb)) :=
  if d.format = 4 then
    (decodeBand d.pitch ((d.sw + 31) / 32) 0 data).map fun rows =>
      (rows.zipIdx.filter fun r => n + r.2 < d.sh).map fun r => (n + r.2, r.1.take d.sw)
  else
    let luma := match unitPieces d n with
      | (_, len) :: _ => len
      | [] => 0
    some [(n, decodeLine d (data.take luma) (data.drop luma))]

/-- A host read of layer l has ended, with its data or in an error (R221). -/
def State.layerRead (s : State) (ch l : Nat) (data : Option (List Byte)) : State :=
  let c := s.chan ch
  if 0 < c.layerOld.getD l 0 then
    -- a read of the frame before has ended; nothing waits for its data
    let s := s.onChan ch fun c => { c with layerOld := updateAt c.layerOld l (· - 1) }
    s.layerSettles ch l (decide (1 < c.layerOld.getD l 0))
  else
  match c.cell, c.layerReads.getD l [] with
  | some x, (n, k) :: t =>
    let s := s.onChan ch fun c => { c with layerReads := updateAt c.layerReads l fun _ => t }
    let lines := (List.range k).map (n + ·)
    match x.layerSource l, data with
    | some d, some bytes =>
      (match unitLines d n bytes with
       | some found => s.deliver ch fun x => found.foldl (fun x r => x.placeLine l r.1 r.2) x
       | none => s.deliver ch fun x => x.layerReadError l lines)
    | _, _ => s.deliver ch fun x => x.layerReadError l lines
  | _, _ => s

/-! ### A visit -/

/-- The first item of a list of choices. -/
def firstItem (s : State) : List (State → Item) → Item
  | [] => none
  | f :: t =>
    match f s with
    | some r => some r
    | none => firstItem s t

/-- An insertion after every element whose key is not greater, and the list in the order of its keys. -/
def insertBy (key : Nat → Nat) (a : Nat) : List Nat → List Nat
  | [] => [a]
  | b :: t => if key a < key b then a :: b :: t else b :: insertBy key a t

def orderBy (key : Nat → Nat) (l : List Nat) : List Nat := l.foldr (insertBy key) []

/-- Inbound queues of one kind, the one with the oldest doorbell first (R404). -/
def State.oldestIn (s : State) (ch : Nat) (l : List Nat) : List Nat :=
  orderBy (fun n => (s.queue (.vf ch n)).age s.hub.bellCount) l

/-- The lines by the channel time at which the head of the transmit FIFO was written (R404). -/
def State.oldestOut (s : State) (ch : Nat) : List Nat :=
  let head (l : Nat) : Nat := (s.chan ch).cell.elim 0 fun x => ((x.line l).txAt.head?).elim (x.beam.ctime + 1) id
  orderBy head [0, 1, 2, 3]

/-- The first band whose reading makes layer l's next source line due (R221). -/
def State.dueBand (s : State) (ch l : Nat) : Nat :=
  match (s.chan ch).cell with
  | none => 0
  | some x => (x.layerSource l).elim 0 fun d =>
      ((List.range (x.fetchBand + 1)).find? fun b => decide ((s.chan ch).layerNext.getD l 0 < x.linesNeeded l d b)).getD
        x.fetchBand

/-- The layers, the one whose next line was due first before the other (R404). -/
def State.oldestLayer (s : State) (ch : Nat) : List Nat :=
  let both := (s.chan ch).cell.elim false fun x => (x.layerSource 0).isSome && (x.layerSource 1).isSome
  if both ∧ s.dueBand ch 1 < s.dueBand ch 0 then [1, 0] else [0, 1]

/-- R404: the kinds of item, in their order, and within one kind oldest first (assumption 72). -/
def State.visitItem (s : State) (ch : Nat) : Item :=
  let inbound (l : List Nat) : List (State → Item) := l.map fun n s => s.itemIn ch n
  firstItem s ([fun s => s.itemNtq ch] ++ inbound [0] ++ inbound (s.oldestIn ch [1, 2, 3, 4]) ++ inbound [5] ++
    inbound (s.oldestIn ch [6, 7]) ++ (s.oldestLayer ch).map (fun l s => s.itemLayer ch l) ++
    [fun s => s.itemAuq ch] ++ (s.oldestOut ch).map (fun l s => s.itemLineOut ch l) ++
    [fun s => s.itemShq ch, fun s => s.itemClq ch, fun s => s.itemSvc ch])

/-- R403: items are moved while D > 0; a channel left without work sets D to 0. -/
def State.visitItems : Nat → State → Nat → Int → State × Int
  | 0, s, _, d => (s, d)
  | n + 1, s, ch, d =>
    if d ≤ 0 then (s, if (s.visitItem ch).isNone then 0 else d)
    else match s.visitItem ch with
      | none => (s, 0)
      | some (s', k) => State.visitItems n s' ch (d - k)

/-- The channel visited next: the first with pending work in ascending number, cyclically (R403). -/
def State.nextVisit (s : State) : Option Nat :=
  let ns := s.chans.map (·.n)
  (ns.filter (fun n => s.hub.turn ≤ n) ++ ns.filter (fun n => n < s.hub.turn)).find? fun n =>
    s.offers n && (s.visitItem n).isSome

/-- A visit of channel `ch`, when its turn has come (R403). A channel without pending work is passed over. -/
def State.visit (s : State) (ch : Nat) : State :=
  if ¬ s.hub.canSend ∨ s.nextVisit ≠ some ch then s
  else
    let r := State.visitItems 16384 s ch ((s.chan ch).deficit + 256 * (s.chan ch).share)
    (r.1.onChan ch fun c => { c with deficit := r.2 }).onHub fun h => { h with turn := ch + 1 }

/-- A completion of a host read arrives: `none` for an error (R380). -/
def State.readEnds (s : State) (ch : Nat) (t : ReadTarget) (data : Option (List Byte)) : State :=
  match t with
  | .layer l => s.layerRead ch l data
  | .entry n =>
    let q : QueueId := .vf ch n
    if 8 ≤ n ∨ ¬ (s.queue q).reading ∨ (s.queue q).inHand.isSome then s
    else match data with
      | none => s.queueError q 3
      | some e =>
        let s := s.onQueue q fun x => { x with reading := false, inHand := some (e.take (unitOf q)) }
        (s.accept ch n).getD s
  | .samples =>
    let q : QueueId := .vf ch 5
    if ¬ (s.queue q).reading ∨ (s.queue q).inHand.isNone then s
    else match data with
      | none => s.queueError q 3
      | some e =>
        let s := s.onQueue q fun x => { x with reading := false, samples := some e }
        (s.accept ch 5).getD s
  | .command =>
    let x := s.hub.mcq
    if ¬ x.arm ∨ x.cons = x.prod then s
    else match data with
      | none => s.queueError .mcq 3
      -- an entry with a reserved byte that is not 0 has no effect; any other is a command of its own (R380, R399)
      | some e => if allZero ((e.drop 1).take 1 ++ (e.drop 6).take 2) then s else s.passEntry .mcq true

/-! ### Frames and cuts -/

/-- FRAME_BOUNDARY with the ringmaster's count of frames and largest UTIL since the snapshot (R161, R412, R425). -/
def State.frameEvent (s : State) (ch : Nat) : State :=
  let frame (s : State) : Nat := (s.chan ch).cell.elim 0 (·.beam.frame)
  let s' := s.cellEvent ch Cell.frameBoundary
  if frame s' = frame s then s'
  else s'.onChan ch fun c =>
    let util := c.cell.elim 0#8 fun x => x.io.rd 0xE094
    { c with sinceSnap := c.sinceSnap + 1, u := if c.u.toNat < util.toNat then util else c.u }

/-- The cell stands at its cut, with the cut made. -/
def Cell.cutMade (x : Cell) : Bool := x.isAt x.cutLine 0 && x.beam.done.contains evCut

/-- CUT (R173, R216, R221): after it the layers' source lines are fetched from the first one on. -/
def State.cutEvent (s : State) (ch : Nat) : State :=
  let made (s : State) : Bool := (s.chan ch).cell.elim false Cell.cutMade
  let s' := s.cellEvent ch Cell.cut
  if made s ∨ ¬ made s' then s'
  else s'.onChan ch Chan.dropReads

end Sys2Proof.Machine
end

