-- ==== Sys2Proof/Machine/ExecAudio.lean ====
section
/-! DEFINITION. The meanings of the commands of audio: one definition for each row. -/

namespace Sys2Proof.Machine

/-- TONE_RELOAD (R290). -/
def execToneReload (ch v : Nat) (s : State) : Host.Outcome State Fault Refusal :=
  .next (s.cellEvent ch fun c => c.toneReload v)

/-- NOISE_STEP (R291). -/
def execNoiseStep (ch : Nat) (s : State) : Host.Outcome State Fault Refusal :=
  .next (s.cellEvent ch fun c => c.noiseStep)

/-- WAVE_ADVANCE (R292). -/
def execWaveAdvance (ch w : Nat) (s : State) : Host.Outcome State Fault Refusal :=
  .next (s.cellEvent ch fun c => c.waveAdvance w)

/-- CLICK_ACCEPT (R293). -/
def execClickAccept (ch : Nat) (s : State) : Host.Outcome State Fault Refusal :=
  .next (s.cellEvent ch fun c => c.clickAccept)

/-- PCM_DATA (R294). -/
def execPcmData (ch : Nat) (v : Byte) (s : State) : Host.Outcome State Fault Refusal :=
  .next (s.cellEvent ch fun c => c.ioStore 0xEB59 v)

/-- PCM_TRIGGER (R294). -/
def execPcmTrigger (ch clocks : Nat) (s : State) : Host.Outcome State Fault Refusal :=
  .next (s.cellEvent ch fun c => c.pcmTriggered clocks)

/-- PCM_SLOW (R294). -/
def execPcmSlow (ch : Nat) (s : State) : Host.Outcome State Fault Refusal :=
  .next (s.cellEvent ch fun c => c.pcmSlows)

/-- NODE_GAIN_WRITE (R298). -/
def execNodeGainWrite (ch : Nat) (v : Half) (s : State) : Host.Outcome State Fault Refusal :=
  .next (s.cellEvent ch fun c => (c.ioStore 0xEB62 (v.setWidth 8)).ioStore 0xEB63 ((v >>> 8).setWidth 8))

/-- ROUTE_MOVE (R299). -/
def execRouteMove (ch : Nat) (v : Half) (s : State) : Host.Outcome State Fault Refusal :=
  .next (s.cellEvent ch fun c => (c.ioStore 0xEB68 (v.setWidth 8)).ioStore 0xEB69 ((v >>> 8).setWidth 8))

/-- BQ_APPLY (R300). -/
def execBqApply (ch : Nat) (v : Byte) (s : State) : Host.Outcome State Fault Refusal :=
  .next (s.cellEvent ch fun c => c.ioStore 0xEB7B v)

/-- AUDIO_PACKET (R306). -/
def execAudioPacket (ch : Nat) (s : State) : Host.Outcome State Fault Refusal :=
  .next (s.cellEvent ch fun c => c.audioPacket)

/-- PIN_IN_WINDOW (R305). -/
def execPinInWindow (ch : Nat) (s : State) : Host.Outcome State Fault Refusal :=
  .next (s.cellEvent ch fun c => c.pinInWindow)

/-- LB_DATA_READ (R308). -/
def execLbDataRead (ch : Nat) (s : State) : Host.Outcome State Fault Refusal :=
  .next (s.cellEvent ch fun c => (c.ioLoad 0xEB9C).2)

/-- MIX_TICK (R287). -/
def execMixTick (ch since : Nat) (s : State) : Host.Outcome State Fault Refusal :=
  .next (s.cellEvent ch fun c => c.mixTick since)

/-- PWM_PERIOD (R307). -/
def execPwmPeriod (ch n : Nat) (s : State) : Host.Outcome State Fault Refusal :=
  .next (s.cellEvent ch fun c => c.pwmPeriod n)

end Sys2Proof.Machine
end

