-- ==== Sys2Proof/Machine/ExecBeam.lean ====
section
/-! DEFINITION. The meanings of the commands of the beam, the sequencer, sprites, composition and the encoder: one definition for each row. -/

namespace Sys2Proof.Machine

/-- FRAME_BOUNDARY (R161). -/
def execFrameBoundary (ch : Nat) (s : State) : Host.Outcome State Fault Refusal :=
  .next (s.frameEvent ch)

/-- VBL (R165). -/
def execVbl (ch : Nat) (s : State) : Host.Outcome State Fault Refusal :=
  .next (s.cellEvent ch fun c => c.vbl)

/-- BLINK_TOGGLE (R189). -/
def execBlinkToggle (ch : Nat) (s : State) : Host.Outcome State Fault Refusal :=
  .next (s.cellEvent ch fun c => c.blinkToggle)

/-- BEAM_COMPARE_MATCH (R164). -/
def execBeamCompareMatch (ch n : Nat) (s : State) : Host.Outcome State Fault Refusal :=
  .next (s.cellEvent ch fun c => c.compareMatch n)

/-- COMMIT (R171). -/
def execCommit (ch : Nat) (s : State) : Host.Outcome State Fault Refusal :=
  .next (s.cellEvent ch fun c => c.commit)

/-- CUT (R173). -/
def execCut (ch : Nat) (s : State) : Host.Outcome State Fault Refusal :=
  .next (s.cutEvent ch)

/-- TRANSFER (R174). -/
def execTransfer (ch : Nat) (s : State) : Host.Outcome State Fault Refusal :=
  .next (s.cellEvent ch fun c => c.transfer)

/-- INSTALL_TICK (R174). -/
def execInstallTick (ch : Nat) (s : State) : Host.Outcome State Fault Refusal :=
  .next (s.cellEvent ch fun c => c.install)

/-- RS_WAIT (R177). -/
def execRsWait (ch : Nat) (s : State) : Host.Outcome State Fault Refusal :=
  .next (s.cellEvent ch fun c => c.seqWait)

/-- RS_WRITE (R177). -/
def execRsWrite (ch : Nat) (s : State) : Host.Outcome State Fault Refusal :=
  .next (s.cellEvent ch fun c => c.seqWrite)

/-- RS_SKIP (R177). -/
def execRsSkip (ch : Nat) (s : State) : Host.Outcome State Fault Refusal :=
  .next (s.cellEvent ch fun c => c.seqSkip)

/-- RS_BRANCH (R177). -/
def execRsBranch (ch : Nat) (s : State) : Host.Outcome State Fault Refusal :=
  .next (s.cellEvent ch fun c => c.seqBranch)

/-- RS_END (R177). -/
def execRsEnd (ch : Nat) (s : State) : Host.Outcome State Fault Refusal :=
  .next (s.cellEvent ch fun c => c.seqEnd)

/-- SPRITE_SEARCH (R194). -/
def execSpriteSearch (ch : Nat) (s : State) : Host.Outcome State Fault Refusal :=
  .next (s.cellEvent ch fun c => c.spriteSearch)

/-- SPRITE_SPRITE_COLLISION (R200). -/
def execSpriteSpriteCollision (ch line dot : Nat) (s : State) : Host.Outcome State Fault Refusal :=
  .next (s.cellEvent ch fun c => c.spriteCollision line dot)

/-- SPRITE_PLANE_COLLISION (R201). -/
def execSpritePlaneCollision (ch line dot : Nat) (s : State) : Host.Outcome State Fault Refusal :=
  .next (s.cellEvent ch fun c => c.planeCollision line dot)

/-- LAYER_UNDERRUN (R221). -/
def execLayerUnderrun (ch l y : Nat) (s : State) : Host.Outcome State Fault Refusal :=
  .next (s.cellEvent ch fun c => c.layerUnderrun l y)

/-- GUARD_COMPARE (R228). -/
def execGuardCompare (ch b : Nat) (s : State) : Host.Outcome State Fault Refusal :=
  .next (s.cellEvent ch fun c => c.guardCompare b)

/-- BAND_CLOSE (R237). -/
def execBandClose (ch b : Nat) (s : State) : Host.Outcome State Fault Refusal :=
  .next (s.cellEvent ch fun c => c.bandClose b)

/-- REFRESH_ALL (R242). -/
def execRefreshAll (ch : Nat) (s : State) : Host.Outcome State Fault Refusal :=
  .next (s.cellEvent ch fun c => c.refreshAll)

/-- PAL_HI_WRITE (R213). -/
def execPalHiWrite (ch : Nat) (v : Byte) (s : State) : Host.Outcome State Fault Refusal :=
  .next (s.cellEvent ch fun c => c.ioStore 0xE965 v)

/-- TBL_DATA_WRITE (R214). -/
def execTblDataWrite (ch : Nat) (v : Byte) (s : State) : Host.Outcome State Fault Refusal :=
  .next (s.cellEvent ch fun c => c.ioStore 0xE975 v)

end Sys2Proof.Machine
end

