-- ==== Sys2Proof/Machine/Cast.lean ====
section
/-! DEFINITION. Casting a channel and stopping it: CAST, the cell that a cast makes from its mould and
its card, STOP and the end of a drain (R45 to R53, R399 to R401, R455). -/

namespace Sys2Proof.Machine

/-! ### The cell that a cast makes -/

/-- The bits of an I/O byte that a cast takes from the mould: the bits that a write sets, but for those
whose After cast entry is not "mould", and UC_CTL.LOCK, PIO_SYNC.LOCK and BLT_CTL.MODE, which a write cannot set
freely (R45, R139, R276, R327). -/
def mouldMask (a : Nat) : Byte :=
  let within (lo hi : Nat) : Bool := decide (lo ≤ a ∧ a ≤ hi)
  match locate a with
  | none => 0#8
  | some l =>
    let m := maskByte l.reg.rw l.off ||| (if a = 0xE040 ∨ a = 0xE401 ∨ a = 0xE640 then 0x80#8 else 0#8)
    if within 0xE000 0xE001 || within 0xE041 0xE049 || within 0xE095 0xE097 || within 0xE30C 0xE30D ||
        within 0xE322 0xE323 || within 0xE500 0xE542 || within 0xE600 0xE63F || within 0xE708 0xE70F ||
        a == 0xE767 || within 0xE960 0xE965 || within 0xE970 0xE975 || within 0xEA06 0xEA07 ||
        a == 0xEB60 || a == 0xEB70 || a == 0xEB76 || within 0xED00 0xED1F || within 0xEC20 0xEC20 ||
        a == 0xEC30 || a == 0xEC40 || a == 0xEC50 then 0#8
    else if a = 0xE1E0 ∨ a = 0xE700 ∨ a = 0xEB50 then m &&& 0x7F#8
    else if a = 0xE21A ∨ a = 0xE23A ∨ a = 0xE25A ∨ a = 0xE27A then m &&& 0xFB#8
    else if a = 0xE400 then m &&& 0xF0#8
    else if a = 0xEC21 ∨ a = 0xEC31 ∨ a = 0xEC41 ∨ a = 0xEC51 then m &&& 0xF0#8
    else m

/-- The I/O page after a cast (R45, R73, R284, R203, R434). -/
def castPage (regs : Bytes) (interval : Nat) : Bytes :=
  let io := (List.range 0x1000).foldr (fun i (io : Bytes) =>
    let v := regs.rd (0xE000 + i) &&& mouldMask (0xE000 + i)
    if v = 0#8 then io else (0xE000 + i, v) :: io) []
  let io := (List.range 4).foldl (fun io n =>
    (io.wr (0xE501 + 0x10 * n) 1#8).wr (0xE505 + 0x10 * n) 2#8) io
  ((io.wr 0xE001 0x11#8).wr 0xE7C1 1#8).wr 0xEE01 (BitVec.ofNat 8 interval)

/-- The core after a cast (R53 step 7, R61, R65, R111, R149). -/
def castCore (m : Mould) (mem : Bytes) : Core :=
  { g := [], p := [], pc := mem.rd 0x7FE01 ++ mem.rd 0x7FE00, status := 0xC0#8, cwp := 0, wsaved := 0#8
    wres := 1, ssp := m.ssp, usp := m.usp, lcnt := 0#16, lstart := 0#16, lend := 0#16, excInfo := 0#8
    slot := none, shadow := false, waiting := false, lockup := false, debugHalt := false
    haltRequest := false, resumeAt := none, decodeTable := m.decodeTable, microcode := m.microcode
    paceTable := m.paceTable, paceAcc := 0, paceCount := 0#32, paceRestart := false, sched := 0#32
    slipOver := false, busy := 0, spent := 0, spentFrom := 0
    afterEntry := false, stepping := false, repaced := false }

def castTimer (io : Bytes) (n : Nat) : Timer :=
  { count := 0, acc := 0
    cur := copyBytesTo io (tAddr n 0x04) 0x04 4 (copyBytesTo io (tAddr n 0x0C) 0x0C 4 [])
    freshA := false, freshB := false, pendA := none, pendB := none, resync := false
    events := 0, from_ := 0, capA := 0, capB := 0 }

/-- Biquads that pass their input: b0 is 1.0 in Q2.21 (R300). -/
def passCoef : List Int := [0x200000, 0, 0, 0, 0, 0x200000, 0, 0, 0, 0]

def castOut (o : Bool × Nat × Nat × List Int) : MixOut :=
  let z : Biquad := { x1 := 0, x2 := 0, y1 := 0, y2 := 0 }
  { limEn := o.1, limThr := o.2.1, limRel := o.2.2.1, coef := o.2.2.2, shadow := o.2.2.2, bq0 := z
    bq1 := z, busF := 0, busY := 0, filtered := 0, delay := List.replicate 48 0, limGain := 0x800000
    next := 0, sample := 0, clip := 0, sat := 0 }

/-- The audio block after a cast (R287, R290 to R292, R298 to R308). -/
def castAudio (m : Mould) (io : Bytes) (service : Bool) : Audio :=
  let v (a : Nat) : Voice := { count := io.rdN a 2, phase := 0 }
  { chipPhase := 0, chipTicks := 0, chipDirty := false, clickDirty := false
    tones := (List.range 4).map fun n => v (0xEB10 + 4 * n)
    noise := v 0xEB20
    shift := 0x3FFFF#18
    waves := (List.range 2).map fun n => v (0xEB24 + 4 * n)
    history := [], pcmFifo := [], pcmSamples := [], pcmInterval := 0, pcmTrigger := 0, pcmSlow := false, pcmAt := none
    mixTicks := 0, mixWrites := []
    nodes := m.nodes.foldl (fun l n =>
      let g := if n.2.2 then 0 else n.2.1
      insertNat l n.1 { gain := n.2.1, mute := n.2.2, target := g, from_ := g, k := 32, move := none }) []
    outs := (List.range 8).map fun o => castOut (m.outs.getD o (false, 0x7FFF, 0, passCoef))
    ain := [], playing := false
    pinIn := { ticks := 0, empties := 0, fulls := 0, refused := false, value := 0, from_ := 0, k := 0 }
    pwm := List.replicate 2 { length := 64, high := 0, start := 0 }
    loopback := [], packet := [], packetStamp := 0, service := service }

def castEngine (m : Mould) (n : Nat) : Engine :=
  { pc := 0, a := 0#32, k0 := 0#32, k1 := 0#32, rs := 0#32, rn := 0, ts := 0#32, tn := 0, cyc := 0#32
    latch := none, values := m.pioValues.getD n 0#16, dirs := m.pioDirs.getD n 0#16, acc := 0, tx := []
    rx := [], triggers := 0#4 }

def castStream : DmaStream :=
  { phase := .idle, desc := [], src := 0, dst := 0, done := 0, cause := 0, side := false, request := false
    ringPhase := true, restart := false }

def castCrypto : Crypto :=
  { busy := false, finished := false, op := 0, key := 0, key2 := 0, mode := 0, left := 0, blocks := 0
    chain := [], inBuf := [], outBuf := [], wrapped := [], din := [], dout := [] }

/-- The beam after a cast: channel time, line, dot and frame at 0 (R53). -/
def castBeam : Beam :=
  { line := 0, dot := 0, ctime := 0, frame := 0, boundary := false, entered := false, done := [], commits := []
    shadowLog := [], snap := none, installAt := none, endFrame := false, earlyEnd := false
    resized := false, geometry := false, bcAccepted := [0, 0], bcOld := [0, 0], blinkCount := 0, pendLive := [] }

/-- The output stage after a cast: every stream refreshes in frame 0, cloning is off (R242, R245). -/
def castPicture (m : Mould) (service : Bool) : Picture :=
  let layer : Layer := { accepted := none, next := none, effect := none, lines := [], missing := [] }
  { palette := m.palette, guardPalette := m.palette, tables := m.tables, guardTables := m.tables
    lines := [], layers := [layer, layer], crcs := [], missed := 0#8, releasing := 0#8
    unguarded := false, notified := 0#8, prevSig := none, hashes := [], rc := 0, refreshNext := []
    refreshNow := [.shq, .clq, .svc], clone := false, cloneNext := none, service := service
    joined := false, counts := [], firstBand := 0, held := false }

/-- The pins that a card's map names, and the initial locks on them (R46, R330, R346). -/
def ownedPins (card : Card) : BitVec 16 :=
  (List.range 16).foldl (fun w k =>
    if card.pins.getD k 0xFFFF < 144 then w ||| BitVec.ofNat 16 (2 ^ k) else w) 0#16

def castPins (card : Card) : Pins :=
  let owned := ownedPins card
  { owned := owned, locked := card.locks &&& owned, lockupPin := card.lockupPin, delivered := 0#16
    samples := List.replicate 16 0#16, armed := 0#16, storms := List.replicate 16 0, window := 0
    stormed := 0#16, tick := 0, before := 0#16, fresh := 0, lockKey := false, pulse := 0#16, pulsing := 0#16
    pulseTick := List.replicate 16 0 }

/-- A card's key under the image key, by R455: `none` when it fails to unwrap. -/
def cardKey (imageKey : Option (List Byte)) (w : WrappedKey) : Option SlotKey :=
  imageKey.bind fun key => (keyUnwrap key w.bytes).bind fun k =>
    let type := if k.length = 16 then 1 else if k.length = 32 then 2 else if k.length = 24 then 3 else 0
    if type = 0 then none
    else some { type := type, usage := w.usage, fromUnwrap := false, bytes := k, count := 0 }

def castSlots (imageKey : Option (List Byte)) (card : Card) : List (Option SlotKey) :=
  (List.range 8).map fun h => ((card.keys[h]?).join).bind (cardKey imageKey)

/-- The mask of the handles whose card key failed to unwrap (R455). -/
def failedKeys (imageKey : Option (List Byte)) (card : Card) : Nat :=
  ((List.range 8).map fun h =>
    match (card.keys[h]?).join with
    | some w => if (cardKey imageKey w).isNone then 2 ^ h else 0
    | none => 0).sum

/-- FUNC 7 on the card's lockup output (R334). -/
def lockupFunc (card : Card) (io : Bytes) : Bytes :=
  match card.lockupPin with
  | none => io
  | some k => io.wr (0xE340 + 2 * k) ((io.rd (0xE340 + 2 * k) &&& 0x1F#8) ||| 0xE0#8)

/-- Steps 3, 4 and 7 of R53: the cell of mould `m` and card `card`. -/
def freshCell (m : Mould) (card : Card) (imageKey : Option (List Byte)) (service : Bool) : Cell :=
  let mem := m.memory.put card.identityAt card.identity
  let io := lockupFunc card (castPage m.regs card.interval)
  let blit : Blitter :=
    { phase := .idle, cmd := [], pc := 0, pattern := [], pos := 0
      clips := List.replicate 4 { x0 := 0, y0 := 0, xEnd := 1, yEnd := 1 } }
  let c : Cell :=
    { core := castCore m mem, mem := mem, tickMem := mem, io := io, eff := io, holds := [], latched := []
      beam := castBeam
      seq := { run := false, pc := 0, ready := 0, word := none, posLine := 0, posDot := 0, reachable := false,
               count := 0 }
      sprites := { latch := [], target := none, due := none, rows := [], group := [] }
      picture := castPicture m service
      timers := (List.range 4).map (castTimer io)
      intc := { pend := 0#48, request := 0#48, active := 0#48, holds := [] }
      nap := { napping := false, pins := 0#16, timers := 0#4, evq := false, line := false }
      audio := castAudio m io service
      blitter := blit
      dma := List.replicate 4 castStream
      pio := { engines := (List.range 4).map (castEngine m), flags := 0#8, before := 0#8, sets := 0#8 }
      pins := castPins card
      crypto := castCrypto
      slots := castSlots imageKey card
      evf := []
      lines := List.replicate 4 { rx := [], tx := [], txAt := [] }
      breakpoints := []
      coreFreq := m.coreFreq
      ioFreq := m.ioFreq
      runs := true
      dry := false
      outq := []
      free := 0 }
  c.seqStart

/-! ### CAST -/

/-- A channel command that the ringmaster takes (R399): a stale epoch is dropped and counted (R50). A
channel that the part does not offer is a bad argument. -/
def State.channelCommand (s : State) (op ch tag epoch : Nat) (f : State → State) : State :=
  if ¬ s.manages then s
  else
    let s := s.takeCommand
    if ¬ s.offers ch then s.respond op 6 tag ch 0 0
    else if epoch ≠ (s.chan ch).epoch then
      (s.onChan ch fun c => { c with stale := c.stale + 1 }).respond op 2 tag ch 0 0
    else f s

/-- A device command that the ringmaster takes (R399, R400). -/
def State.deviceCommand (s : State) (f : State → State) : State :=
  if s.manages then f s.takeCommand else s

/-- R49, R53 step 1: the cell and the mould of a cast, or the STATUS of its refusal and the cause shown. -/
def State.castDecision (s : State) (ch mould : Nat) : Except (Nat × Option Nat) ((Nat × Nat) × Nat) :=
  match s.hub.image, s.card ch with
  | none, _ => .error (6, some 4)
  | some _, none => .error (6, some 1)
  | some _, some card =>
    let die := if s.pinless ch then 0 else card.die
    let m := if mould = 255 then card.mould else mould
    if die ≠ 0 ∧ ¬ s.populated die then .error (6, some 2)
    else if (s.mould m).isNone then .error (6, none)
    else match s.castCell die none with
      | none => .error (4, some 3)
      | some p => .ok (p, m)

/-- A CAST that has passed the state check is refused, or accepted (R49, R50, R53). -/
def State.carryOut (s : State) (ch : Nat) (tag : Option Nat) (mould : Nat) : State :=
  match s.castDecision ch mould with
  | .error (status, cause) =>
    (s.onChan ch fun c => { c with cause := cause.getD c.cause }).respondTo tag 0x01 status ch
  | .ok (p, m) =>
    (s.host p ch).onChan ch fun c => Chan.showView
      { c.withoutCell with
        epoch := c.epoch + 1, before := c.state, state := .casting, castTag := tag, place := some p
        mould := m, cause := 0, lockup := none, cloneWait := none, pads := floatPads }

/-- CAST (R49, R52). -/
def State.castCommand (s : State) (ch tag mould : Nat) : State :=
  let c := s.chan ch
  if c.draining then
    let s := match c.pendingCast with
      | some w =>
        (s.onChan ch fun c => { c with castReplaced := c.castReplaced + 1 }).respondTo w.tag 0x01 5 ch
      | none => s
    s.onChan ch fun c => { c with pendingCast := some { tag := some tag, mould := mould } }
  else if [.uncast, .stopped, .safe].contains c.state then s.carryOut ch (some tag) mould
  else s.respond 0x01 1 tag ch 0 0

/-- Steps 2 to 7 of R53 end: the channel is RUNNING on its cell. -/
def State.castComplete (s : State) (ch : Nat) : State :=
  let c := s.chan ch
  match c.place, s.card ch, s.mould c.mould with
  | some _, some card, some m =>
    if c.state ≠ .casting ∨ c.draining then s
    else
      let key := s.hub.keys.imageKey
      let selected := s.hub.panel.selected == some ch
      let cell := freshCell m card key selected
      let cell := { cell with picture := { cell.picture with cloneNext := c.cloneWait } }
      let failed := failedKeys key card
      let blank (k : StreamHold) : StreamHold := { k with partialFrame := none }
      let s := s.onChan ch fun c =>
        let c : Chan := { c with
          state := .running, castTag := none, cloneWait := none, share := card.share, interval := card.interval
          cell := some cell, checkpoint := some cell.stateRecord, refreshWait := [], lastU := 0#8, u := 0#8
          shq := blank c.shq, clq := blank c.clq, svc := blank c.svc }
        (if failed = 0 then c else c.notify 0x0A failed 0).showView
      let s := s.onHub fun h =>
        { h with keys := { h.keys with escrow := insertNat h.keys.escrow ch cell.slots }
                 panel := if selected then { h.panel with startFrame := none } else h.panel }
      (s.showPads ch).respondTo c.castTag 0x01 0 ch
  | _, _, _ => s

/-! ### STOP -/

/-- STOP (R49, R51). -/
def State.stopCommand (s : State) (ch tag : Nat) : State :=
  let c := s.chan ch
  if c.draining then
    let s := match c.pendingCast with
      | some w =>
        (s.onChan ch fun c =>
          { c with castReplaced := c.castReplaced + 1, pendingCast := none }).respondTo w.tag 0x01 5 ch
      | none => s
    s.onChan ch fun c => { c with stopTags := c.stopTags ++ [tag] }
  else if c.state = .uncast ∨ c.state = .stopped then s.respond 0x02 1 tag ch 0 0
  else (s.beginDrain ch).onChan ch fun c => { c with stopTags := c.stopTags ++ [tag] }

/-- The queues of a channel's VF are disarmed (R51, R481). -/
def Chan.disarmAll (c : Chan) : Chan := { c with queues := c.queues.map Queue.disarmed }

/-- A record that the drain delivered can still be written to its ring (R393). -/
def State.drainWrites (s : State) (ch : Nat) : Bool :=
  s.hub.canSend && ((s.itemNtq ch).isSome || (s.itemAuq ch).isSome || (s.itemShq ch).isSome || (s.itemClq ch).isSome)

/-- The end of a drain (R51, R52, R393, R503). -/
def State.drainEnd (s : State) (ch : Nat) : State :=
  let c := s.chan ch
  if ¬ c.draining ∨ s.drainWrites ch then s
  else
    let pads := s.stopPads ch
    let s := s.eraseKeys ch
    let s := s.onChan ch fun c => Chan.showView
      { c.withoutCell.disarmAll with
        state := .stopped, cause := 0, pads := pads, stopTags := [], pendingCast := none }
    let s := match c.place with
      | some p => if c.drainFault then s.toKiln p 2 else s.toPool p
      | none => s
    let s := c.stopTags.foldl (fun s t => s.respond 0x02 0 t ch 0 0) s.lockupPin
    match c.pendingCast with
    | some w => s.carryOut ch w.tag w.mould
    | none => s

end Sys2Proof.Machine
end

