-- ==== Sys2Proof/Machine/Debug.lean ====
section
/-! DEFINITION. Interrupt entry, the end of WAIT, and debug through PF0 (R109, R117, R118, R132 to
R137). -/

namespace Sys2Proof.Machine

/-! ### Interrupts and WAIT -/

/-- An interrupt entry at an interruptible boundary (R117, R118, R361); a full window file locks the core
up before the source becomes ACTIVE (R127). -/
def Cell.takeInterrupt (c : Cell) : Cell :=
  match c.begin_ with
  | none => c
  | some c0 =>
    match c0.deliverable false with
    | none => c0
    | some s =>
      let c1 := if 19 ≤ c0.core.wres then c0 else c0.activate s
      let c2 := c1.enter c1.core.pc (32 + s) 0#8
      if c0.paced then c2.charge 6 else c2

/-- EXCEPTION_ENTRY: the interrupt that comes before the next instruction. A debug halt that was asked for
comes first. -/
def Cell.exceptionEntry (c : Cell) : Cell :=
  if c.executes ∧ c.interruptDue ∧ ¬ c.core.haltRequest then c.takeInterrupt else c

/-- WAIT ends when a source is deliverable, moderation holds lifted; the schedule restarts, and with GM 0
the source is taken (R109, R152, R363). -/
def Cell.waitEnd (c : Cell) : Cell :=
  let k := c.core
  if ¬ c.coreOn ∨ ¬ k.waiting ∨ k.lockup ∨ k.debugHalt ∨ k.haltRequest then c
  else match c.deliverable true with
    | none => c
    | some s =>
      let c := { c with core := { k with waiting := false } }.restartPace
      if k.masked then c
      else
        let c1 := if 19 ≤ k.wres then c else c.activate s
        let c2 := c1.enter c1.core.pc (32 + s) 0#8
        if c.paced then c2.charge 6 else c2

/-! ### Halts and steps -/

/-- The core as debug halts it. -/
def Core.halted (k : Core) : Core := { k with haltRequest := false, debugHalt := true, stepping := false }

/-- A debug halt that was asked for is taken (R134). -/
def Cell.debugHaltTaken (c : Cell) : Cell :=
  if c.coreOn ∧ c.core.haltsHere ∧ ¬ c.core.lockup then { c with core := c.core.halted } else c

/-- A breakpoint before instruction `v` at the PC, or before what follows a jump or a mode change (R137); an interrupt
that is due comes first. -/
def Cell.breakpointHalt (c : Cell) (v : VInstr) : Cell :=
  let k := c.core
  if c.executes ∧ k.slot.isNone ∧ ¬ k.shadow ∧ ¬ c.interruptDue ∧ c.breaksAt v then { c with core := k.halted } else c

/-- The core resumes, with the schedule restarted, past a breakpoint at the PC (R136, R137). -/
def Cell.resume (c : Cell) : Cell :=
  { c with core := { c.core with debugHalt := false, haltRequest := false
                                 resumeAt := some c.core.pc } }.restartPace

/-- An instruction of a step: breakpoints do not halt within it, and a block instruction stops at the end of its first
step where a source is due there (R108, R135). -/
def Cell.stepInstr (c : Cell) : Cell :=
  let due := !c.core.masked && (c.deliverable false).isSome
  { c with core := { c.core with resumeAt := some c.core.pc }, breakpoints := [] }.runInstr c.atPc
    (if due then some 1 else none)

/-- What follows in the same step: the delay slot, and each shadow instruction (R125, R135). -/
def Cell.stepRest : Nat → Cell → Cell
  | 0, c => c
  | n + 1, c => if c.core.slot.isSome ∨ c.core.shadow then Cell.stepRest n c.stepInstr else c

/-- R135: one step of a halted core: an interrupt entry that is due, or one instruction with its delay slot
and its shadow. A slot or shadow that waits for its pace past the end of the frame comes after the frame boundary, and
the core halts then. -/
def Cell.debugStep (c : Cell) : Cell :=
  let points := c.breakpoints
  let c0 := c.resume
  let c1 := c0.waitEnd
  let c :=
    if c1.core.waiting ∨ (c0.core.waiting ∧ ¬ c0.core.masked) then c1
    else if c1.interruptDue then c1.takeInterrupt
    else Cell.stepRest 65536 c1.stepInstr
  let k := { c.core with resumeAt := none }
  let k :=
    if k.lockup then k
    else if k.slot.isSome ∨ k.shadow then { k with haltRequest := true, stepping := true }
    else k.halted
  { c with breakpoints := points, core := k }

/-! ### DBG_READ and DBG_WRITE -/

/-- A special register as the debugger numbers it: by R65, and PC, which R65 gives no number, as 0Ah (DESIGN CHOICE,
assumption 114). -/
def Core.debugReg (k : Core) (s : Nat) : Half := if s = 10 then k.pc else k.special s

/-- What DBG_READ returns of each space: the registers by their fields of R57, the window file P0 to P239,
special registers at two bytes each, cell memory, and the I/O page without side effects (R132). -/
def Cell.debugByte (c : Cell) (space : DebugSpace) (a : Nat) : Byte :=
  match space with
  | .memory => if a < 0x80000 then c.mem.rd a else 0#8
  | .ioPage => if 0xE000 ≤ a ∧ a < 0xF000 then c.ioPeek a else 0#8
  | .registers => if a < 24 then c.core.reg a else 0#8
  | .file => if a < 240 then c.core.p.rd a else 0#8
  | .special => byteOf (c.core.debugReg (a / 2)).toNat (a % 2)

/-- A debug write of special registers, two bytes each. Of CWP and WRES a value outside their ranges changes nothing
(DESIGN CHOICE, assumption 114). -/
def Core.debugSpecial (k : Core) (a : Nat) (v : Byte) : Core :=
  let old := (k.debugReg (a / 2)).toNat
  let new := if a % 2 = 0 then old / 256 * 256 + v.toNat else old % 256 + 256 * v.toNat
  match a / 2 with
  | 0 => if a % 2 = 0 then { k with status := v } else k
  | 1 => if new < 20 then { k with cwp := new } else k
  | 3 => if 1 ≤ new ∧ new < 20 then { k with wres := new } else k
  | 10 => { k with pc := BitVec.ofNat 16 new }
  | s => k.setSpecial s (BitVec.ofNat 16 new)

def Cell.debugPut (c : Cell) (space : DebugSpace) (a : Nat) (v : Byte) : Cell :=
  match space with
  | .memory => if a < 0x80000 then { c with mem := c.mem.wr a v } else c
  | .registers => if a < 24 then { c with core := c.core.setReg a v } else c
  | .special => { c with core := c.core.debugSpecial a v }
  | .ioPage | .file => c

def Cell.debugPutAll (space : DebugSpace) : Nat → List Byte → Cell → Cell
  | _, [], c => c
  | a, v :: t, c => Cell.debugPutAll space (a + 1) t (c.debugPut space a v)

/-- The addresses that a debug command may name in each space. -/
def debugRange (space : DebugSpace) (a len : Nat) : Bool :=
  match space with
  | .memory => decide (a + len ≤ 0x80000)
  | .ioPage => decide (0xE000 ≤ a ∧ a + len ≤ 0xF000)
  | .registers => decide (a + len ≤ 24)
  | .file => decide (a + len ≤ 240)
  | .special => decide (a + len ≤ 22)

/-! ### The commands -/

/-- DBG_ATTACH (R132, R133). A DEBUG cause that a copy in progress would have ended stays in effect. During the drain
of a STOP it is refused (DESIGN CHOICE, assumption 114). -/
def State.attach (s : State) (ch tag : Nat) : State :=
  let c := s.chan ch
  if ¬ [.running, .napping, .halted].contains c.state ∨ c.draining then s.respond 0x10 1 tag ch 0 0
  else
    let s := s.netBegins ch .debug
    (s.onChan ch fun c =>
      { c with
        attached := true, detached := false, forced := false
        netEnds := c.netEnds.filter (· != .debug) }).respond 0x10 0 tag ch 0 0

/-- A debug command to an attached channel: refused with WRONG_STATE where it is not allowed (R132), the drain of a
STOP included (DESIGN CHOICE, assumption 114). -/
def State.debugCommand (s : State) (op ch tag : Nat) (allowed : Cell → Bool) (f : State → State) : State :=
  let c := s.chan ch
  if c.attached ∧ ¬ c.draining ∧ c.cell.elim false allowed then f s else s.respond op 1 tag ch 0 0

/-- DBG_HALT, STEP, RESUME and BREAK change the cell and answer OK. -/
def State.debugCell (s : State) (op ch tag : Nat) (f : Cell → Cell) : State :=
  (s.deliver ch f).respond op 0 tag ch 0 0

/-- DBG_READ (R132, R399). -/
def State.debugRead (s : State) (ch tag : Nat) (space : DebugSpace) (addr len buf : Nat) : State :=
  match (s.chan ch).cell with
  | none => s.respond 0x14 1 tag ch 0 0
  | some x =>
    if ¬ debugRange space addr len then s.respond 0x14 6 tag ch 0 0
    else s.answer 0x14 tag buf len ch ((List.range len).map fun i => x.debugByte space (addr + i))

/-- DBG_WRITE (R132). -/
def State.debugWrite (s : State) (ch tag : Nat) (space : DebugSpace) (addr : Nat) (data : List Byte) : State :=
  if ¬ debugRange space addr data.length ∨ space = .ioPage ∨ space = .file then s.respond 0x15 6 tag ch 0 0
  else (s.deliver ch fun x => Cell.debugPutAll space addr data x).respond 0x15 0 tag ch 0 0

/-- DBG_DETACH (R132, R133). A core that debug halted resumes as DBG_RESUME resumes it, the restart of its schedule
included (DESIGN CHOICE, assumption 114). -/
def State.detach (s : State) (ch tag : Nat) : State :=
  let s := s.deliver ch fun x =>
    let x := { x with breakpoints := [] }
    if x.core.debugHalt then x.resume
    else { x with core := { x.core with haltRequest := false } }
  (s.onChan ch fun c => { c with attached := false, detached := true }).respond 0x17 0 tag ch 0 0

/-- DBG_HALT is allowed while the core runs or waits (R132). -/
def Cell.mayHalt (c : Cell) : Bool := !c.core.debugHalt && !c.core.lockup
def Cell.requestHalt (c : Cell) : Cell := { c with core := { c.core with haltRequest := true } }

/-- DBG_WRITE is allowed while the core is halted by debug or locked up (R132). -/
def Cell.mayWrite (c : Cell) : Bool := c.core.debugHalt || c.core.lockup

/-- DBG_BREAK: up to four addresses; none clears them (R132). -/
def State.setBreakpoints (s : State) (ch tag : Nat) (addrs : List Half) : State :=
  if 4 < addrs.length then s.respond 0x16 6 tag ch 0 0
  else s.debugCell 0x16 ch tag fun c => { c with breakpoints := addrs }

end Sys2Proof.Machine
end

