-- ==== Sys2Proof/Machine/ExecCore.lean ====
section
/-! DEFINITION. The meanings of the commands of core events, the microcode and pace tables: one definition for each row. -/

namespace Sys2Proof.Machine

/-- DEBUG_HALT_TAKEN (R134). -/
def execDebugHaltTaken (ch : Nat) (s : State) : Host.Outcome State Fault Refusal :=
  .next (s.cellEvent ch fun c => c.debugHaltTaken)

/-- BREAKPOINT_HALT (R137). -/
def execBreakpointHalt (ch : Nat) (v : VInstr) (s : State) : Host.Outcome State Fault Refusal :=
  .next (s.cellEvent ch fun c => c.breakpointHalt v)

/-- EXCEPTION_ENTRY (R117). -/
def execExceptionEntry (ch : Nat) (s : State) : Host.Outcome State Fault Refusal :=
  .next (s.cellEvent ch fun c => c.exceptionEntry)

/-- WAIT_END (R109). -/
def execWaitEnd (ch : Nat) (s : State) : Host.Outcome State Fault Refusal :=
  .next (s.cellEvent ch fun c => c.waitEnd)

/-- DT_ENTRY_WRITE (R140). -/
def execDtEntryWrite (ch : Nat) (v : Byte) (s : State) : Host.Outcome State Fault Refusal :=
  .next (s.cellEvent ch fun c => c.ioStore 0xE043 v)

/-- UC_DATA_WRITE (R140). -/
def execUcDataWrite (ch : Nat) (v : Byte) (s : State) : Host.Outcome State Fault Refusal :=
  .next (s.cellEvent ch fun c => c.ioStore 0xE049 v)

/-- UC_DATA_READ (R140). -/
def execUcDataRead (ch k : Nat) (s : State) : Host.Outcome State Fault Refusal :=
  .next (s.cellEvent ch fun c => (c.ioLoad (0xE046 + k % 4)).2)

/-- UC_CTL_LOCK (R139). -/
def execUcCtlLock (ch : Nat) (s : State) : Host.Outcome State Fault Refusal :=
  .next (s.cellEvent ch fun c => c.ioStore 0xE040 0x80#8)

/-- PT_DATA_WRITE (R156). -/
def execPtDataWrite (ch : Nat) (v : Byte) (s : State) : Host.Outcome State Fault Refusal :=
  .next (s.cellEvent ch fun c => c.ioStore 0xE097 v)

/-- PACE_RATE_WRITE (R150). -/
def execPaceRateWrite (ch : Nat) (den : Bool) (v : Byte) (s : State) : Host.Outcome State Fault Refusal :=
  .next (s.cellEvent ch fun c => c.ioStore (if den then 0xE083 else 0xE082) v)

/-- PACED_WRITE (R152). -/
def execPacedWrite (ch : Nat) (v : Byte) (s : State) : Host.Outcome State Fault Refusal :=
  .next (s.cellEvent ch fun c => c.ioStore 0xE080 v)

end Sys2Proof.Machine
end

