-- ==== Sys2Proof/Machine/ExecCrypto.lean ====
section
/-! DEFINITION. The meanings of the commands of the crypto unit: one definition for each row. -/

namespace Sys2Proof.Machine

/-- CR_GO (R457). -/
def execCrGo (ch : Nat) (v : Byte) (s : State) : Host.Outcome State Fault Refusal :=
  .next (s.cellEvent ch fun c => c.ioStore 0xED00 (v ||| 0x80#8))

/-- ECB_ENCRYPT (R457). -/
def execEcbEncrypt (ch : Nat) (s : State) : Host.Outcome State Fault Refusal :=
  .next (s.cellEvent ch fun c => c.crRun 1 finishCipher)

/-- ECB_DECRYPT (R457). -/
def execEcbDecrypt (ch : Nat) (s : State) : Host.Outcome State Fault Refusal :=
  .next (s.cellEvent ch fun c => c.crRun 2 finishCipher)

/-- CBC_ENCRYPT (R457). -/
def execCbcEncrypt (ch : Nat) (s : State) : Host.Outcome State Fault Refusal :=
  .next (s.cellEvent ch fun c => c.crRun 3 finishCipher)

/-- CBC_DECRYPT (R457). -/
def execCbcDecrypt (ch : Nat) (s : State) : Host.Outcome State Fault Refusal :=
  .next (s.cellEvent ch fun c => c.crRun 4 finishCipher)

/-- CTR (R457). -/
def execCtr (ch : Nat) (s : State) : Host.Outcome State Fault Refusal :=
  .next (s.cellEvent ch fun c => c.crRun 5 finishCipher)

/-- CMAC (R457). -/
def execCmac (ch : Nat) (s : State) : Host.Outcome State Fault Refusal :=
  .next (s.cellEvent ch fun c => c.crRun 6 finishCmac)

/-- MAC_ALGORITHM_3 (R457). -/
def execMacAlgorithm3 (ch : Nat) (s : State) : Host.Outcome State Fault Refusal :=
  .next (s.cellEvent ch fun c => c.crRun 7 finishAlg3)

/-- UNWRAP (R458). -/
def execUnwrap (ch : Nat) (s : State) : Host.Outcome State Fault Refusal :=
  .next (s.cellEvent ch fun c => c.crRun 8 finishUnwrap)

/-- ERASE (R457). -/
def execErase (ch : Nat) (s : State) : Host.Outcome State Fault Refusal :=
  .next (s.cellEvent ch fun c => c.crErase)

/-- CRYPTO_DONE (R460). -/
def execCryptoDone (ch : Nat) (s : State) : Host.Outcome State Fault Refusal :=
  .next (s.cellEvent ch fun c => c.crDone)

/-- CR_ABORT (R462). -/
def execCrAbort (ch : Nat) (s : State) : Host.Outcome State Fault Refusal :=
  .next (s.cellEvent ch fun c => c.crAbort)

/-- CR_DIN (R462). -/
def execCrDin (ch : Nat) (v : Byte) (s : State) : Host.Outcome State Fault Refusal :=
  .next (s.cellEvent ch fun c => c.ioStore 0xED20 v)

/-- CR_DOUT (R462). -/
def execCrDout (ch : Nat) (s : State) : Host.Outcome State Fault Refusal :=
  .next (s.cellEvent ch fun c => (c.ioLoad 0xED21).2)

end Sys2Proof.Machine
end

