-- ==== Sys2Proof/Machine/Panel.lean ====
section
/-! DEFINITION. The service panel and the streams' refreshes and cloning through PF0 and the VF (R242, R245,
R260 to R263, R309, R397, R400). -/

namespace Sys2Proof.Machine

/-! ### CLONE, STREAM_REFRESH and VF_CMD REFRESH -/

/-- The streams of a refresh argument: bit 0 SHQ, bit 1 CLQ, bit 2 service (R397, R400). -/
def refreshStreams (v : Byte) : List Stream :=
  (if v.getLsbD 0 then [.shq] else []) ++ (if v.getLsbD 1 then [.clq] else []) ++
    (if v.getLsbD 2 then [.svc] else [])

/-- A host refresh request reaches the channel (R242, R397, R400). -/
def State.requestRefresh (s : State) (ch : Nat) (streams : List Stream) : State :=
  s.onChan ch fun c =>
    if c.cellLess ∨ c.state = .casting then c
    else if c.state = .catching ∨ c.state = .testing ∨ c.state = .napping ∨ c.step ≠ .none then
      { c with refreshWait := c.refreshWait ++ streams.filter fun x => !c.refreshWait.contains x }
    else c.onCell fun x => streams.foldl (fun x st => x.refreshStream st) x

/-- CLONE (R245, R400): the change waits for the frame boundary. -/
def State.cloneCommand (s : State) (ch tag : Nat) (on : Bool) : State :=
  let c := s.chan ch
  if c.cellLess then s.respond 0x03 1 tag ch 0 0
  else
    (s.onChan ch fun c =>
      if c.state = .casting then { c with cloneWait := some on }
      else c.onCell fun x =>
        { x with picture := { x.picture with cloneNext := some on } }).respond 0x03 0 tag ch 0 0

/-- STREAM_REFRESH (R400). -/
def State.streamRefresh (s : State) (ch tag : Nat) (streams : Byte) : State :=
  (s.requestRefresh ch (refreshStreams streams)).respond 0x04 0 tag ch 0 0

/-- VF_CMD REFRESH (R397): a stale epoch is dropped and counted on the VF and on PF0. -/
def State.vfRefresh (s : State) (ch : Nat) (arg : Byte) : State :=
  let c := s.chan ch
  if c.vf.cmdEpoch ≠ c.epoch then
    s.onChan ch fun c => { c with
      stale := c.stale + 1
      vf := { c.vf with stale := true, staleCount := c.vf.staleCount + 1 } }
  else
    (s.requestRefresh ch (refreshStreams (arg &&& 3#8))).onChan ch fun c =>
      { c with vf := { c.vf with done := true } }

/-! ### The panel's packets -/

/-- Two bytes, high byte first. -/
def two (v : Nat) : List Byte := beBytes 2 v

/-- Pixel bytes in packets of at most 1,536: 2Ch first, then 3Ch (R261). -/
def pixelPackets : Nat → Byte → List Byte → List (List Byte)
  | 0, _, _ => []
  | _, _, [] => []
  | n + 1, cmd, l => (cmd :: l.take 1536) :: pixelPackets n 0x3C#8 (l.drop 1536)

/-- The packets of the rectangle of columns `x0` to `x1` and pages `y0` to `y1`, each end included. -/
def rectPackets (x0 x1 y0 y1 : Nat) (pixels : List Byte) : List (List Byte) :=
  [0x2A#8 :: (two x0 ++ two x1), 0x2B#8 :: (two y0 ++ two y1)] ++
    pixelPackets (pixels.length / 1536 + 1) 0x2C#8 pixels

def State.sendPackets (s : State) (l : List (List Byte)) : State := l.foldl (fun s p => s.send (.panel p)) s

def State.device (s : State) : Device :=
  (s.hub.image.map (·.device)).getD
    { levels := [], thresholds := [], masked := [], svcChannel := none, panelW := 64, panelH := 64
      laneRate := 80, teEn := false, wakeMs := 120 }

/-- A black rectangle from (x0, y0) up to (x1, y1), the ends not included. -/
def State.black (s : State) (x0 x1 y0 y1 : Nat) : State :=
  if x1 ≤ x0 ∨ y1 ≤ y0 then s
  else s.sendPackets (rectPackets x0 (x1 - 1) y0 (y1 - 1) (List.replicate (3 * (x1 - x0) * (y1 - y0)) 0#8))

def State.blackPanel (s : State) : State := s.black 0 s.device.panelW 0 s.device.panelH

/-- Where the picture of area `a` lies on the panel: its first column and page (R261). -/
def State.pictureAt (s : State) (a : Nat × Nat) : Nat × Nat :=
  ((s.device.panelW - a.1) / 2, (s.device.panelH - a.2) / 2)

/-- The panel areas outside the picture are written black (R263). -/
def State.blackOutside (s : State) (a : Nat × Nat) : State :=
  let w := s.device.panelW
  let h := s.device.panelH
  let p := s.pictureAt a
  let x1 := min w (p.1 + a.1)
  let y1 := min h (p.2 + a.2)
  (((s.black 0 w 0 p.2).black 0 w y1 h).black 0 p.1 p.2 y1).black x1 w p.2 y1

/-- The active area of channel n. -/
def State.areaOf (s : State) (n : Nat) : Nat × Nat := (s.chan n).cell.elim s.hub.panel.area fun x => (x.hActive, x.vActive)

/-! ### Decoding the service stream -/

/-- A component of 10 bits as the panel takes it (R260). -/
def panelComponent (c : Nat) : Byte := BitVec.ofNat 8 (min 255 ((c + 2) / 4))

def panelPixel (p : Nat × Nat × Nat) : List Byte :=
  [panelComponent p.1, panelComponent p.2.1, panelComponent p.2.2]

def colourOf (w : Nat) : Nat × Nat × Nat := (w / 0x100000 % 1024, w / 1024 % 1024, w % 1024)

/-- A palette-run block's pixels, with the bytes it takes (R250). -/
def unrunBlock (bytes : List Byte) : List (Nat × Nat × Nat) × Nat :=
  let n := (bytes.getD 0 0#8).toNat % 16 + 1
  let entry (i : Nat) : Nat × Nat × Nat := colourOf (leNat ((bytes.drop (1 + 4 * i)).take 4))
  let rec go : Nat → Nat → List (Nat × Nat × Nat) → List (Nat × Nat × Nat) × Nat
    | 0, i, px => (px, i)
    | fuel + 1, i, px =>
      if 256 ≤ px.length then (px, i)
      else
        let b := (bytes.getD i 0#8).toNat
        go fuel (i + 1) (px ++ List.replicate (b % 16 + 1) (entry (b / 16)))
  let r := go 256 (1 + 4 * n) []
  (r.1, (r.2 + 3) / 4 * 4)

/-- The pixels of each block of a sherd's payload (R249 to R252). -/
def unsherd (coding : Nat) : Nat → List Byte → List (List (Nat × Nat × Nat))
  | 0, _ => []
  | n + 1, bytes =>
    let r : List (Nat × Nat × Nat) × Nat := match coding with
      | 0 => ((List.range 256).map fun i => colourOf (leNat ((bytes.drop (4 * i)).take 4)), 1024)
      | 1 => unrunBlock bytes
      | _ => match unslipBlock bytes with
        | some b => (b.1.flatten, b.2)
        | none => ([], 1028)
    r.1 :: unsherd coding n (bytes.drop r.2)

/-- The packets of one sherd (R261): its blocks clipped to the active area, then to the panel. -/
def State.sherdPackets (s : State) (a : Nat × Nat) (bytes : List Byte) : List (List Byte) :=
  let w0 := leNat (bytes.take 4)
  let band := bitsOf w0 22 16
  let first := bitsOf w0 15 11
  let count := bitsOf w0 10 6 + 1
  let p := s.pictureAt a
  let blocks := unsherd (bitsOf w0 27 26) count (bytes.drop 16)
  let x0 := 32 * first
  let xEnd := min (min (x0 + 32 * count) a.1) (s.device.panelW - p.1)
  let y0 := 8 * band
  let yEnd := min (min (y0 + 8) a.2) (s.device.panelH - p.2)
  if xEnd ≤ x0 ∨ yEnd ≤ y0 then []
  else
    let px (x y : Nat) : Nat × Nat × Nat :=
      (blocks.getD ((x - x0) / 32) []).getD ((y - y0) * 32 + (x - x0) % 32) (0, 0, 0)
    let rows := (List.range (yEnd - y0)).flatMap fun j => (List.range (xEnd - x0)).flatMap fun i =>
      panelPixel (px (x0 + i) (y0 + j))
    rectPackets (p.1 + x0) (p.1 + xEnd - 1) (p.2 + y0) (p.2 + yEnd - 1) rows

/-! ### Selection and pushes -/

def State.onPanel (s : State) (f : Panel → Panel) : State := s.onHub fun h => { h with panel := f h.panel }

/-- The service stream of a channel starts or stops (R245, R263). -/
def State.serve (s : State) (n : Nat) (on : Bool) : State :=
  let heard := s.hub.panel.heard == some n
  s.onChan n fun c => { c.onCell fun x =>
      -- a stream selected after a band of the frame has closed does not carry the whole of it (R248)
      let x := { x with picture := { x.picture with service := on, joined := on && !x.picture.crcs.isEmpty } }
      let x := { x with audio := { x.audio with service := on || (heard && x.audio.service) } }
      if on then x.refreshStream .svc else x with
    svc := { c.svc with held := [], partialFrame := none } }

/-- A channel that publishes nothing (R263). -/
def State.publishesNothing (s : State) (n : Nat) : Bool :=
  [.uncast, .stopped, .safe, .halted].contains (s.chan n).state

/-- The selection of the panel changes (R263, R309). -/
def State.select (s : State) (sel : Option Nat) : State :=
  let old := s.hub.panel.selected
  if old = sel then s
  else
    let s := match old with
      | some m => s.serve m false
      | none => s
    let s := match sel with
      | some n => s.serve n true
      | none => s
    let s := s.onPanel fun p =>
      -- a channel heard before that sends nothing has nothing to fade
      let silent := p.heard.elim true fun m => !((s.chan m).cell.elim false (·.runs))
      { p with selected := sel, pushing := false
               heard := if p.heard.isNone ∨ (silent ∧ sel.isNone) then sel else p.heard
               fade := if p.heard.isNone ∨ (silent ∧ sel.isNone) then 0 else p.fade
               i2s := if silent ∧ sel.isNone then (0#32, 0#32) else p.i2s }
    match old, sel with
    | none, some n =>
      (s.send (.panel [0x11#8])).onPanel fun p =>
        { p with awake := true, waiting := true, starting := true, area := s.areaOf n
                 startFrame := (s.chan n).cell.map (·.beam.frame) }
    | some _, some n =>
      let s := s.onPanel fun p =>
        { p with area := s.areaOf n, startFrame := (s.chan n).cell.map (·.beam.frame) }
      if s.hub.panel.waiting then s
      else if s.publishesNothing n then s.blackPanel
      else s.blackOutside (s.areaOf n)
    | some _, none =>
      ((s.send (.panel [0x28#8])).send (.panel [0x10#8])).onPanel fun p =>
        { p with awake := false, waiting := false, on := false, starting := false }
    | none, none => s

/-- SVC_SELECT (R400): FFFFh selects none. -/
def State.svcSelect (s : State) (tag sel : Nat) : State :=
  if sel = 0xFFFF then (s.select none).respond 0x05 0 tag 0 0 0
  else if s.offers sel then (s.select (some sel)).respond 0x05 0 tag 0 0 0
  else s.respond 0x05 6 tag 0 0 0

/-- WAKE_MS has passed (R263). -/
def State.wakeWaitEnd (s : State) : State :=
  if s.hub.panel.waiting then s.blackPanel.onPanel fun p => { p with waiting := false } else s

/-- The oldest record of the service stream that has arrived whole is pushed (R261, R262). -/
def State.servicePush (s : State) : State :=
  let p := s.hub.panel
  match p.selected with
  | none => s
  | some n =>
    match (s.chan n).svc.held with
    | [] => s
    | h :: t =>
      if p.waiting ∨ h.moved < h.size ∨ (s.device.teEn ∧ ¬ p.pushing) then s
      else
        let a := s.areaOf n
        let s := s.onChan n fun c => { c with svc := { c.svc with held := t } }
        if h.isSeal then
          let s := s.onPanel fun p => { p with pushing := false, area := a }
          if p.starting ∧ (h.bytes.getD 3 0#8).getLsbD 0 ∧ p.startFrame ≠ some h.frame then
            (s.send (.panel [0x29#8])).onPanel fun p => { p with starting := false, on := true }
          else s
        else (s.sendPackets (s.sherdPackets a h.bytes)).onPanel fun p => { p with area := a }

/-- A rising tearing-effect edge (R262): the oldest frame whose seal has arrived is released, unless a push
still runs. -/
def State.tearingEdge (s : State) : State :=
  let p := s.hub.panel
  match p.selected with
  | none => s
  | some n =>
    if s.device.teEn ∧ ¬ p.waiting ∧ (s.chan n).svc.held.any (fun h => h.isSeal && h.size ≤ h.moved) then
      s.onPanel fun p => { p with pushing := true }
    else s

end Sys2Proof.Machine
end

