-- ==== Sys2Proof/Machine/Catch.lean ====
section
/-! DEFINITION. The safety net's events: faults found in a cell, the steps of a catch, planned catches and
checkpoints (R409 to R433). -/

namespace Sys2Proof.Machine

/-! ### Faults -/

/-- The channel that a cell hosts. -/
def State.hostedBy (s : State) (d n : Nat) : Option Nat :=
  match ((s.die d).cell n).role with
  | .hosting ch => some ch
  | _ => none

/-- A cell of a populated die (R9). -/
def State.hasCell (s : State) (d n : Nat) : Bool := s.populated d && decide (n < 88)

/-- A detector reports a fault in cell `n` of die `d` (R409): a hosted channel's net handles it, and a cell
that hosts none passes to the kiln. -/
def State.faultIn (s : State) (d n cause block detail : Nat) (lost : Bool) : State :=
  if ¬ s.hasCell d n then s
  else match s.hostedBy d n with
    | some ch => s.hardwareFault ch cause block detail lost
    | none => if ((s.die d).cell n).role = .pool then s.toKiln (d, n) 2 else s

/-- A channel whose slot and log are in use. -/
def Chan.protected (c : Chan) : Bool :=
  c.cell.isSome && c.step == .none && !c.draining && c.state != .casting

/-- An uncorrectable error (R409, R418): in the checkpoint slot or the input log it turns the net off. -/
def State.uncorrectable (s : State) (d n memory addr : Nat) (lost : Bool) : State :=
  if ¬ s.hasCell d n then s
  else
    let s := s.onCellUnit d n fun u => { u with uncorrectable := u.uncorrectable + 1 }
    if memory = 1 ∨ memory = 2 then
      match s.hostedBy d n with
      | some ch =>
        if (s.chan ch).protected then s.netBegins ch .slotError else s
      | none => if ((s.die d).cell n).role = .pool then s.toKiln (d, n) 2 else s
    else s.faultIn d n 2 8 (memory * 2 ^ 28 + addr % 2 ^ 19) lost

/-! ### The steps of a catch -/

/-- Steps 3 and 4 of R420: checkpoint, log and keys have reached the reserve. A copy that was in progress
at the fault has been completed (R414). -/
def State.reserveLoaded (s : State) (ch : Nat) : State :=
  let c := s.chan ch
  if c.step ≠ .loading then s
  else
    s.setChan { c with
      step := .replay
      checkpoint := c.snapshot.or c.checkpoint
      log := if c.snapshot.isSome then c.log.drop c.logOld else c.log
      logOld := 0
      snapshot := none }

/-- The last comparison of this frame's blocks has passed (R228). -/
def Cell.guardsDone (x : Cell) : Bool :=
  decide (x.vActive ≤ x.beam.line ∨ (x.vActive ≤ x.beam.line + 1 ∧ x.hActive + 8 < x.beam.dot))

/-- The replay reaches the fault, and the chase begins in dry mode (R420 steps 5 and 6, R422). The replay
is exact (R421), so the cell is as the fault left it. -/
def State.faultPoint (s : State) (ch : Nat) : State :=
  let c := s.chan ch
  if c.step ≠ .replay then s
  else
    s.setChan { c with
      step := .chase
      cell := c.cell.map fun x =>
        { x with runs := true, dry := !x.nap.napping, outq := []
                 picture := { x.picture with
                   held := true
                   unguarded := x.picture.unguarded || !x.guardsDone } } }

/-- What the pads' latches caught is logged, pin by pin (R345, R415). -/
def State.logLatches (s : State) (ch : Nat) : State :=
  let c := s.chan ch
  (List.range 16).foldl (fun s n =>
    let e := (c.rising.getLsbD n).toNat + 2 * (c.falling.getLsbD n).toNat
    if e = 0 then s else s.log ch 0x07 (leBytes 1 n ++ leBytes 1 e ++ leBytes 6 1)) s

/-- The first band of this frame that begins after the present tick; the number of bands when the last one has
begun, so that the encoder resumes at band 0 of the next frame. A napping channel stands before band 0 of the frame
with which it wakes (R366, R424). -/
def Cell.resumeBand (x : Cell) : Nat :=
  if x.nap.napping then 0 else if x.beam.line < x.vActive then x.beam.line / 8 + 1 else x.bandCount

/-- The encoder of a cell that goes live after a catch (R232, R238, R242, R424). No comparison with the last
signature before the catch is made, and the change of FREEZE_CNT is logged. -/
def Cell.encoderResumes (x : Cell) (service : Bool) : Cell :=
  let all : List Stream := [.shq, .clq, .svc]
  let x' := { x with
    dry := false
    io := x.io.wrN 0xEAA8 2 0
    picture := { x.picture with
      held := x.core.lockup || x.nap.napping
      prevSig := none
      hashes := [], crcs := [], counts := []
      firstBand := x.resumeBand
      refreshNow := all, refreshNext := if x.nap.napping then [] else all
      service := service, joined := false } }
  if x'.signValues = x.signValues then x' else x'.emit (.logRecord 0x0D x'.signValues)

/-- The delay bound of R425, T_c × m + t0, in µs. -/
def Chan.delayBound (c : Chan) (far : Bool) : Nat :=
  let tc := c.cell.elim 0 fun x => x.micros (c.faultTime - c.checkpoint.elim 0 (·.beam.ctime))
  tc * max c.u.toNat 64 / 256 + (if far then 600 else 100)

/-- Host refreshes that waited reach the cell (R397). -/
def Chan.waitingRefreshes (c : Chan) : Chan :=
  { c.onCell fun x => c.refreshWait.foldl (fun x st => x.refreshStream st) x with refreshWait := [] }

/-- CATCHES counts a catch, on the channel and on the part (R402, R408, R434). -/
def State.countCatch (s : State) (ch : Nat) : State :=
  let s := s.onChan ch fun c => { c.countNet 0xEE02 with catches := c.catches + 1 }
  (s.onHub fun h => { h with catchCount := h.catchCount + 1 }).logNet ch

/-- GOING_LIVE (R424, R425, R427): `elapsed` dot ticks after the fault, with the pins at `levels`. -/
def State.goesLive (s : State) (ch elapsed : Nat) (levels : BitVec 16) : State :=
  let c := s.chan ch
  match c.cell, c.place with
  | some x, some new =>
    if c.step ≠ .chase ∨ (¬ x.nap.napping ∧ c.now ≠ c.faultTime + elapsed) then s
    else
      let delay := c.delayBound (decide (c.oldPlace.1 ≠ new.1))
      let s := s.logLatches ch
      let s := s.onChan ch fun c =>
        let c : Chan := { c with
          state := if c.state = .catching then .running else c.state
          step := .none, snapDue := true, rising := 0#16, falling := 0#16
          cell := c.cell.map fun x =>
            (x.encoderResumes (s.hub.panel.selected == some ch)).afterPause (c.rising ||| c.falling) levels }
        (if x.nap.napping then c else c.waitingRefreshes).showView
      let s := (s.flush ch).countCatch ch
      s.catchEntry 0x01 c.faultCause (s.chan ch) (some c.oldPlace) (some new) c.faultTime c.faultBlock 0
        (delay / 10) (x.micros elapsed / 10)
  | _, _ => s

/-- The pins that the channel's cell owns (R330). -/
def Chan.ownedPins (c : Chan) : BitVec 16 := c.cell.elim 0#16 (·.pins.owned)

/-- An edge caught at a pad while the channel pauses (R345). -/
def State.pauseLatch (s : State) (ch cp : Nat) (rising : Bool) : State :=
  let c := s.chan ch
  let bit : BitVec 16 := BitVec.ofNat 16 (2 ^ cp)
  let pauses := c.step ≠ .none ∨ c.state = .testing
  if ¬ pauses ∨ c.draining ∨ 16 ≤ cp ∨ ¬ c.cell.elim false (fun x => x.pins.owned.getLsbD cp) then s
  else if rising then s.setChan { c with rising := c.rising ||| bit }
  else s.setChan { c with falling := c.falling ||| bit }

/-! ### Planned catches -/

/-- A planned catch or a cell-scope test may be made now (R133, R428, R429, R448, R449): the channel stands
at a frame boundary, its net is on and no copy is in progress. -/
def Chan.mayPause (c : Chan) : Bool :=
  (c.state == .running || c.state == .halted) && c.step == .none && !c.draining && !c.attached &&
    c.netOff.isEmpty && c.snapshot.isNone && c.cell.elim false (·.atBoundary)

/-- The aging monitor reports a margin (R437): below 50 now, or within 90 days, a planned catch falls due. -/
def State.marginLow (s : State) (d n margin trend : Nat) : State :=
  if ¬ s.hasCell d n then s
  else
    let s := s.onCellUnit d n fun u => { u with margin := margin, trend := trend }
    let low := decide ((margin : Int) < 50) ||
      decide ((margin : Int) * 365 + signedOf 8 trend * 90 < 50 * 365)
    match s.hostedBy d n with
    | some ch => if low then s.onChan ch fun c => { c with planned := some 4 } else s
    | none => s

/-- PLANNED_CATCH_PAUSE (R428, R429, R448): the reserve goes on from this tick; the cell left is retired
for wear, and passes to the kiln for rotation. The command is the whole pause: `rising` and `falling` are the edges that
the pads' latches caught in it, and `levels` the pins at its end (R345). -/
def State.plannedCatch (s : State) (ch : Nat) (rising falling levels : BitVec 16) : State :=
  let c := s.chan ch
  match c.planned, c.place with
  | some cause, some old =>
    if ¬ c.mayPause then s
    else match s.catchCell old.1 (cause == 4 && s.pinless ch) with
      | none => s
      | some new =>
        let s := s.host new ch
        let s := if cause = 4 then s.retire old else s.toKiln old 4
        let s := s.onChan ch fun c => Chan.showView
          { c with place := some new, planned := none, epoch := c.epoch + 1
                   rising := rising &&& c.ownedPins, falling := falling &&& c.ownedPins }
        let s := (s.countCatch ch).logLatches ch
        let s := s.onChan ch fun c =>
          { c.onCell fun x => x.afterPause (c.rising ||| c.falling) levels with rising := 0#16, falling := 0#16 }
        s.catchEntry 0x02 cause (s.chan ch) (some old) (some new) c.now 0 0 0 0
  | _, _ => s

/-! ### Checkpoints and the ringmasters -/

/-- A forced checkpoint (R417): at the present tick when it is the start of a line, or at the next one. -/
def State.forcedCheckpoint (s : State) (ch : Nat) : State :=
  let c := s.chan ch
  if ¬ c.forced ∨ ¬ c.maySnap then s
  else match c.cell with
    | none => s
    | some x =>
      if x.atLineStart then s.snapshot ch
      else match x.runTo (x.beam.line + 1) 0 with
        | none => s
        | some x' => ((s.onChan ch fun c => { c with cell := some x'.settle }).flush ch).snapshot ch

/-- The scrub of the slot and the log (R418). -/
def State.scrub (s : State) (ch : Nat) (bad : Bool) : State :=
  if bad ∧ (s.chan ch).protected then s.netBegins ch .slotError else s

/-- A device reset, with every channel UNCAST and every cell untested. The key store and the flash stay, and a
cell named in a retirement record stays retired (R48, R442, R453, R480). -/
def State.deviceReset (s : State) : State :=
  let h := s.hub
  { s with
    hub := Hub.fresh h.part h.revision h.perstN h.wipeHold h.keys
      (h.flash.map fun f => if f.open_ then { f with written := false, open_ := false } else f) h.repairArea
      h.vbatAlarms h.sent |> fun x => { x with tripped := h.tripped, readings := h.readings }
    dies := s.dies.zipIdx.map fun d => { d.1 with
      cells := d.1.cells.zipIdx.map fun u => { CellUnit.fresh with
        role := if h.repairArea.any (fun r => r.type = 2 ∧ r.die = d.2 + 1 ∧ r.unit = u.2) then .retired else .pool
        margin := u.1.margin, trend := u.1.trend, days := u.1.days }
      banks := [0, 0] }
    chans := [] }

/-- The device holds itself in reset (R32). -/
def State.hold (s : State) (cause : Nat) : State :=
  s.deviceReset.onHub fun h => { h with phase := 15, failCause := cause }

/-- RINGMASTER_FAILOVER (R426, R451): the standby takes over, and every catch starts again from step 2.
Without a standby, the hub has failed. -/
def State.failover (s : State) : State :=
  if s.hub.standbyLost then s.hold 3
  else
    (s.onHub fun h => { h with active := 3 - h.active, standbyLost := true
                               hubTests := h.hubTests.filter fun t => t.1 ≠ 1 ∧ t.1 ≠ 2 }) |> fun s =>
    { s with chans := s.chans.map fun c =>
        if c.step = .none then c
        else { c with step := .loading, cell := c.cell.map fun x => { x with runs := false, outq := [] } } }

end Sys2Proof.Machine
end

