-- ==== Sys2Proof/Machine/Kiln.lean ====
section
/-! DEFINITION. The kiln: daily tests, block and cell scope, rotation, the kiln log and the repair records
(R439 to R452). -/

namespace Sys2Proof.Machine

/-- OUTCOME (R452). -/
def outcomeCode : TestOutcome → Nat
  | .pass => 0
  | .repaired => 1
  | .memory => 2
  | .logic => 3

def passes : TestOutcome → Bool
  | .pass => true
  | .repaired => true
  | _ => false

/-- A record of the kiln log; the latest 64 stay (R452). -/
def State.kilnEntry (s : State) (die unit scope outcome : Nat) (r : TestResult) : State :=
  let k : KilnRecord :=
    { seq := s.hub.kilnSeq + 1, die := die, unit := unit, scope := scope, outcome := outcome
      uptime := s.hub.uptime, result := r }
  s.onHub fun h =>
    { h with kilnSeq := h.kilnSeq + 1
             kilnLog := (h.kilnLog ++ [k]).drop (h.kilnLog.length + 1 - 64) }

/-- The repair record of a test that passed after repair (R442). -/
def State.repairEntry (s : State) (die unit : Nat) (r : TestResult) : State :=
  if r.outcome = .repaired then
    s.record { type := 1, die := die, unit := unit, memory := r.memory, spare := r.spare
               address := r.address, bit := r.bit, uptime := s.hub.uptime }
  else s

/-- A cell that has passed its test (R437). -/
def State.cellPassed (s : State) (p : Nat × Nat) : State :=
  s.onCellUnit p.1 p.2 fun u => { u with tested := true, days := 0 }

/-! ### Start-up -/

/-- R444: one cell's outcome at start-up. -/
def State.startCell (s : State) (t : Nat × Nat × TestResult) : State :=
  let p := (t.1, t.2.1)
  let r := t.2.2
  if ¬ s.hasCell p.1 p.2 ∨ ((s.die p.1).cell p.2).role ≠ .pool then s
  else
    let s := s.kilnEntry p.1 p.2 1 (outcomeCode r.outcome) r
    if passes r.outcome then (s.repairEntry p.1 p.2 r).cellPassed p else s.retire p

/-- R444: the self-test phase of every cell that is not named in `cells` passes. -/
def passResult : TestResult :=
  { outcome := .pass, memory := 0, bit := 0, address := 0, shape := 0, spare := 0xFFFF, chain := 0
    sigDiff := 0, duration := 0 }

def State.startCells (s : State) (cells : List (Nat × Nat × TestResult)) : State :=
  (s.dieNumbers.flatMap fun d => (List.range 88).map fun n => (d, n)).foldl (fun s p =>
    let r := (cells.find? fun t => t.1 = p.1 ∧ t.2.1 = p.2).elim passResult (·.2.2)
    s.startCell (p.1, p.2, r)) s

/-! ### In service -/

def State.catching (s : State) : Bool := s.chans.any fun c => c.step != .none

/-- The hub blocks that are tested in service (R445): the standby ringmaster, the carousel, the image store
and the service outputs. -/
def State.hubTestable (s : State) (b : Nat) : Bool :=
  match b with
  | 1 => s.hub.active == 2 && !s.hub.standbyLost && !s.catching
  | 2 => s.hub.active == 1 && !s.hub.standbyLost && !s.catching
  | 3 => true
  | 4 => true
  | 5 => s.hub.panel.selected.isNone
  | _ => false

/-- A test waits or runs on die `d` (R445). -/
def State.dieBusy (s : State) (d : Nat) : Bool := (s.die d).cells.any fun u => u.role == .testing

/-- KILN_DAILY_TEST (R445, R448). -/
def State.dailyTest (s : State) (u : KilnUnit) : State :=
  match u with
  | .hub b =>
    if s.hub.ready ∧ s.hubTestable b ∧ ¬ s.hub.hubTests.any (·.1 == b) then
      s.onHub fun h => { h with hubTests := h.hubTests ++ [(b, false)] }
    else s
  | .cell d n =>
    if ¬ s.hub.ready ∨ ¬ s.hasCell d n then s
    else match ((s.die d).cell n).role with
      | .pool =>
        if s.dieBusy d then s
        else
          let reserve := (s.die d).reserves.contains n
          s.setRole (d, n) fun u => { u with role := .testing, scope := 2, inTest := false, reserve := reserve }
      | .hosting ch =>
        s.onChan ch fun c =>
          if s.testedReserves d = [] then { c with testDue := true }
          else if c.planned.isSome then c else { c with planned := some 5 }
      | _ => s

/-- A cell's checkpoint and log are being copied out of it (R420 steps 3 and 8). -/
def State.copyingOut (s : State) (p : Nat × Nat) : Bool :=
  s.chans.any fun c => c.step == .loading && c.oldPlace == p

/-- BLOCK_SCOPE_TEST (R446): an isolated unit's test begins. -/
def State.blockTest (s : State) (u : KilnUnit) : State :=
  match u with
  | .hub b =>
    s.onHub fun h => { h with hubTests := h.hubTests.map fun t => if t.1 = b then (b, true) else t }
  | .cell d n =>
    if ¬ s.hasCell d n ∨ ((s.die d).cell n).role ≠ .testing ∨ (s.die d).cells.any (·.inTest) ∨
        s.copyingOut (d, n) then s
    else s.onCellUnit d n fun u => { u with inTest := true }

/-- A hub block's test ends (R445, R451). -/
def State.hubTested (s : State) (b : Nat) (r : TestResult) : State :=
  if ¬ s.hub.hubTests.contains (b, true) then s
  else
    let s := s.kilnEntry 0 b 2 (outcomeCode r.outcome) r
    let s := s.onHub fun h => { h with hubTests := h.hubTests.filter fun t => t.1 ≠ b }
    let ringmaster := b = 1 ∨ b = 2
    if passes r.outcome then
      let s := s.repairEntry 0 b r
      if ringmaster then s.onHub fun h => { h with active := b } else s
    else if ringmaster then s.onHub fun h => { h with standbyLost := true }
    else s.hold (if r.outcome = .logic then 3 else 4)

/-- KILN_TEST_COMPLETE (R446): the unit rejoins its pool or is retired, or the device is held. -/
def State.testComplete (s : State) (u : KilnUnit) (r : TestResult) : State :=
  match u with
  | .hub b => s.hubTested b r
  | .cell d n =>
    let x := (s.die d).cell n
    if ¬ s.hasCell d n ∨ ¬ x.inTest ∨ x.role ≠ .testing then s
    else
      let s := s.kilnEntry d n x.scope (outcomeCode r.outcome) r
      if passes r.outcome then ((s.repairEntry d n r).toPool (d, n)).cellPassed (d, n) else s.retire (d, n)

/-! ### Cell scope -/

/-- CELL_SCOPE_TEST (R448, R449): the island stops before the tick of the frame boundary, and its state is
the channel's checkpoint. -/
def State.cellTest (s : State) (ch : Nat) : State :=
  let c := s.chan ch
  if ¬ c.testDue ∨ ¬ c.mayPause then s
  else
    let s := s.onChan ch fun c => Chan.showView
      { c with
        state := .testing, testDue := false, checkpoint := c.cell.map Cell.stateRecord, log := [], logOld := 0, sinceSnap := 0
        snapDue := false, forced := false, lastU := c.u, u := 0#8, rising := 0#16, falling := 0#16
        cell := c.cell.map fun x => { x with runs := false } }
    s.onHub fun h =>
      { h with keys := { h.keys with escrow := insertNat h.keys.escrow ch (c.cell.elim [] (·.slots)) } }

/-- A layer whose line buffer is filled again. -/
def Layer.emptied (l : Layer) : Layer := { l with lines := [] }

/-- The island resumes with the frame-boundary tick (R242, R345, R397, R449): every stream is refreshed, and the
line buffers are filled again. -/
def State.testResumes (s : State) (ch : Nat) (levels : BitVec 16) : State :=
  let s := s.logLatches ch
  let s := s.onChan ch fun c =>
    let c : Chan := { c.dropReads with
      state := if c.cell.elim false (·.core.lockup) then .halted else .running
      rising := 0#16, falling := 0#16
      cell := c.cell.map fun x =>
        { x with
          runs := true
          picture := { x.picture with
            refreshNow := [.shq, .clq, .svc]
            layers := x.picture.layers.map Layer.emptied } }.afterPause (c.rising ||| c.falling) levels }
    (c.waitingRefreshes.countNet 0xEE04).showView
  ((s.logNet ch).showPads ch).lockupPin

/-- CELL_SCOPE_TEST_END (R449, R450). -/
def State.cellTestEnd (s : State) (ch : Nat) (r : TestResult) (levels : BitVec 16) : State :=
  let c := s.chan ch
  match c.place with
  | none => s
  | some old =>
    if c.state ≠ .testing ∨ c.draining then s
    else
      let s := s.kilnEntry old.1 old.2 3 (outcomeCode r.outcome) r
      if passes r.outcome then ((s.repairEntry old.1 old.2 r).cellPassed old).testResumes ch levels
      else match s.catchCell old.1 (s.pinless ch) with
        | none => (s.enterSafe ch 0x20 (some old) c.now 0 0).retire old
        | some new =>
          let s := (s.host new ch).retire old
          let s := s.onChan ch fun c => { c with place := some new, epoch := c.epoch + 1 }
          let s := (s.countCatch ch).testResumes ch levels
          s.catchEntry 0x02 0x04 (s.chan ch) (some old) (some new) c.now 0 0 0 0

/-! ### The repair record area -/

/-- The bytes of a repair record (R442). -/
def RepairRecord.bytes (r : RepairRecord) : List Byte :=
  let body := leBytes 1 r.type ++ leBytes 1 r.die ++ leBytes 1 r.unit ++ leBytes 1 r.memory ++
    leBytes 2 r.spare ++ leBytes 3 r.address ++ leBytes 1 r.bit ++ leBytes 4 r.uptime ++ List.replicate 14 0xFF#8
  body ++ leBytes 4 (crc32c body).toNat

/-- REPAIR_RECORD_WRITE (R442, R443): the oldest record that waits is written after the others; with the
area full, or the flash refusing, OUTCOME 04h is logged. -/
def State.writeRecord (s : State) (ok : Bool) : State :=
  match s.hub.repairs with
  | [] => s
  | r :: t =>
    let s := s.onHub fun h => { h with repairs := t }
    let i := s.hub.repairArea.length
    if ok ∧ i < 0x8000 then
      (s.send (.flash (0x3F00000 + 32 * i) r.bytes)).onHub fun h => { h with repairArea := h.repairArea ++ [r] }
    else
      s.kilnEntry r.die r.unit 2 4
        { passResult with memory := r.memory, bit := r.bit, address := r.address, spare := r.spare }

/-- The bytes of a kiln record (R452). -/
def KilnRecord.bytes (k : KilnRecord) : List Byte :=
  let r := k.result
  let mem (v : Nat) : Nat := if k.outcome = 1 ∨ k.outcome = 2 ∨ k.outcome = 4 then v else 0
  leBytes 4 k.seq ++ leBytes 2 (k.die * 256 + k.unit) ++ leBytes 1 k.scope ++ leBytes 1 k.outcome ++
    leBytes 4 k.uptime ++ leBytes 2 r.duration ++ leBytes 1 (mem r.memory) ++ leBytes 1 (mem r.bit) ++
    leBytes 4 (mem r.address) ++ leBytes 1 (mem r.shape) ++ [0#8] ++ leBytes 2 r.spare ++
    leBytes 2 (if k.outcome = 3 then r.chain else 0) ++ leBytes 2 0 ++ leBytes 4 r.sigDiff

end Sys2Proof.Machine
end

