-- ==== Sys2Proof/Machine/Seal.lean ====
section
/-! DEFINITION. The algorithms that R40, R41 and R464 name by their standards for a Nelyth image: SHA-384 (FIPS
180-4), AES-256-GCM (NIST SP 800-38D) and ECDSA over P-384 (FIPS 186-4). PRESUMED from those standards; assumption
129. Words and field elements are numbers, so that the kernel computes with them. -/

namespace Sys2Proof.Machine

/-! ### SHA-384 -/

def sha384K : List Nat :=
  [0x428A2F98D728AE22, 0x7137449123EF65CD, 0xB5C0FBCFEC4D3B2F, 0xE9B5DBA58189DBBC] ++
  [0x3956C25BF348B538, 0x59F111F1B605D019, 0x923F82A4AF194F9B, 0xAB1C5ED5DA6D8118] ++
  [0xD807AA98A3030242, 0x12835B0145706FBE, 0x243185BE4EE4B28C, 0x550C7DC3D5FFB4E2] ++
  [0x72BE5D74F27B896F, 0x80DEB1FE3B1696B1, 0x9BDC06A725C71235, 0xC19BF174CF692694] ++
  [0xE49B69C19EF14AD2, 0xEFBE4786384F25E3, 0x0FC19DC68B8CD5B5, 0x240CA1CC77AC9C65] ++
  [0x2DE92C6F592B0275, 0x4A7484AA6EA6E483, 0x5CB0A9DCBD41FBD4, 0x76F988DA831153B5] ++
  [0x983E5152EE66DFAB, 0xA831C66D2DB43210, 0xB00327C898FB213F, 0xBF597FC7BEEF0EE4] ++
  [0xC6E00BF33DA88FC2, 0xD5A79147930AA725, 0x06CA6351E003826F, 0x142929670A0E6E70] ++
  [0x27B70A8546D22FFC, 0x2E1B21385C26C926, 0x4D2C6DFC5AC42AED, 0x53380D139D95B3DF] ++
  [0x650A73548BAF63DE, 0x766A0ABB3C77B2A8, 0x81C2C92E47EDAEE6, 0x92722C851482353B] ++
  [0xA2BFE8A14CF10364, 0xA81A664BBC423001, 0xC24B8B70D0F89791, 0xC76C51A30654BE30] ++
  [0xD192E819D6EF5218, 0xD69906245565A910, 0xF40E35855771202A, 0x106AA07032BBD1B8] ++
  [0x19A4C116B8D2D0C8, 0x1E376C085141AB53, 0x2748774CDF8EEB99, 0x34B0BCB5E19B48A8] ++
  [0x391C0CB3C5C95A63, 0x4ED8AA4AE3418ACB, 0x5B9CCA4F7763E373, 0x682E6FF3D6B2B8A3] ++
  [0x748F82EE5DEFB2FC, 0x78A5636F43172F60, 0x84C87814A1F0AB72, 0x8CC702081A6439EC] ++
  [0x90BEFFFA23631E28, 0xA4506CEBDE82BDE9, 0xBEF9A3F7B2C67915, 0xC67178F2E372532B] ++
  [0xCA273ECEEA26619C, 0xD186B8C721C0C207, 0xEADA7DD6CDE0EB1E, 0xF57D4F7FEE6ED178] ++
  [0x06F067AA72176FBA, 0x0A637DC5A2C898A6, 0x113F9804BEF90DAE, 0x1B710B35131C471B] ++
  [0x28DB77F523047D84, 0x32CAAB7B40C72493, 0x3C9EBE0A15C9BEBC, 0x431D67C49C100D4C] ++
  [0x4CC5D4BECB3E42B6, 0x597F299CFC657E2A, 0x5FCB6FAB3AD6FAEC, 0x6C44198C4A475817]

def sha384Init : List Nat :=
  [0xCBBB9D5DC1059ED8, 0x629A292A367CD507, 0x9159015A3070DD17, 0x152FECD8F70E5939] ++
  [0x67332667FFC00B31, 0x8EB44A8768581511, 0xDB0C2E0D64F98FA7, 0x47B5481DBEFA4FA4]

/-- A word rotated right. -/
def rotr64 (x n : Nat) : Nat := (x >>> n) ||| ((x <<< (64 - n)) % 2 ^ 64)

/-- The message schedule: `n` more words after `ws`, latest first. -/
def sha384Schedule : Nat → List Nat → List Nat
  | 0, ws => ws
  | n + 1, ws =>
    let a := ws.getD 1 0
    let b := ws.getD 14 0
    let s1 := rotr64 a 19 ^^^ rotr64 a 61 ^^^ (a >>> 6)
    let s0 := rotr64 b 1 ^^^ rotr64 b 8 ^^^ (b >>> 7)
    evaluated ((s1 + ws.getD 6 0 + s0 + ws.getD 15 0) % 2 ^ 64) fun w => sha384Schedule n (w :: ws)

/-- The eight working variables through the rounds. -/
def sha384Rounds : List (Nat × Nat) → List Nat → List Nat
  | (k, w) :: t, [a, b, c, d, e, f, g, h] =>
    let s1 := rotr64 e 14 ^^^ rotr64 e 18 ^^^ rotr64 e 41
    let ch := (e &&& f) ^^^ ((e ^^^ (2 ^ 64 - 1)) &&& g)
    let s0 := rotr64 a 28 ^^^ rotr64 a 34 ^^^ rotr64 a 39
    let maj := (a &&& b) ^^^ (a &&& c) ^^^ (b &&& c)
    evaluated (h + s1 + ch + k + w) fun t1 =>
      evaluated ((t1 + s0 + maj) % 2 ^ 64) fun a' =>
        evaluated ((d + t1) % 2 ^ 64) fun e' => sha384Rounds t [a', a, b, c, e', e, f, g]
  | _, v => v

/-- `n` words of 8 bytes. -/
def sha384Words (block : List Byte) : List Nat := (eights 16 block).map beNat

/-- The hash over the blocks of a padded message. -/
def sha384Blocks : Nat → List Byte → List Nat → List Nat
  | 0, _, h => h
  | n + 1, m, h =>
    evaluatedAll (sha384Words (m.take 128)) fun first =>
      let v := sha384Rounds (sha384K.zip (sha384Schedule 64 first.reverse).reverse) h
      evaluatedAll (h.zipWith (fun x y => (x + y) % 2 ^ 64) v) fun h => sha384Blocks n (m.drop 128) h

def sha384 (m : List Byte) : List Byte :=
  let zeros := (239 - m.length % 128) % 128
  let padded := m ++ 0x80#8 :: List.replicate zeros 0#8 ++ beBytes 16 (8 * m.length)
  ((sha384Blocks (padded.length / 128) padded sha384Init).take 6).flatMap (beBytes 8)

/-! ### AES-256-GCM -/

/-- The product in GF(2¹²⁸) by SP 800-38D: bits `n` − 1 down to 0 of `x` remain, with the sum `z` and the
multiple `v`. -/
def ghashMul (x : Nat) : Nat → Nat → Nat → Nat
  | 0, z, _ => z
  | n + 1, z, v =>
    evaluated (if x.testBit n then z ^^^ v else z) fun z =>
      evaluated (if v.testBit 0 then (v >>> 1) ^^^ (0xE1 <<< 120) else v >>> 1) fun v => ghashMul x n z v

/-- Pieces of 16 bytes, the last one filled with zeros. -/
def gcmBlocks : Nat → List Byte → List Nat
  | 0, _ => []
  | n + 1, l => beNat ((l.take 16) ++ List.replicate (16 - l.length) 0#8) :: gcmBlocks n (l.drop 16)

def ghash (h : Nat) (blocks : List Nat) : Nat :=
  blocks.foldl (fun y b => evaluated (y ^^^ b) fun x => ghashMul x 128 0 h) 0

/-- Counter mode from the block `iv` ‖ `ctr` on. -/
def gcmCounter (key iv : List Byte) (n : Nat) (ctr : Nat) (l : List Byte) : List Byte :=
  match n with
  | 0 => []
  | n + 1 =>
    (l.take 16).zipWith (· ^^^ ·) (aesEncrypt key (iv ++ beBytes 4 ctr)) ++ gcmCounter key iv n (ctr + 1) (l.drop 16)

/-- The decryption with a 12-byte IV: `none` when the tag does not verify. -/
def gcmOpen (key iv aad cipher tag : List Byte) : Option (List Byte) :=
  let h := beNat (aesEncrypt key (List.replicate 16 0#8))
  let blocks (l : List Byte) : List Nat := gcmBlocks (ceilDiv l.length 16) l
  let s := ghash h (blocks aad ++ blocks cipher ++ [8 * aad.length * 2 ^ 64 + 8 * cipher.length])
  let mask := beNat (aesEncrypt key (iv ++ beBytes 4 1))
  if beBytes 16 (s ^^^ mask) = tag then some (gcmCounter key iv (ceilDiv cipher.length 16) 2 cipher) else none

/-! ### ECDSA over P-384 -/

abbrev p384 : Nat := 2 ^ 384 - 2 ^ 128 - 2 ^ 96 + 2 ^ 32 - 1
abbrev p384Order : Nat :=
  0xFFFFFFFFFFFFFFFFFFFFFFFFFFFFFFFFFFFFFFFFFFFFFFFFC7634D81F4372DDF581A0DB248B0A77AECEC196ACCC52973
abbrev p384B : Nat :=
  0xB3312FA7E23EE7E4988E056BE3F82D19181D9C6EFE8141120314088F5013875AC656398D8A2ED19D2A85C8EDD3EC2AEF
abbrev p384Gx : Nat :=
  0xAA87CA22BE8B05378EB1C71EF320AD746E1D3B628BA79B9859F741E082542A385502F25DBF55296C3A545E3872760AB7
abbrev p384Gy : Nat :=
  0x3617DE4A96262C6F5D9E98BF9292DC29F8F41DBD289A147CE9DA3113B5F0B8C00A60B1CE1D7E819D7A431D7C90EA0E5F

/-- A point in Jacobian coordinates; Z = 0 is the point at infinity. -/
structure Jacobian where
  x : Nat
  y : Nat
  z : Nat
deriving DecidableEq, Repr

/-- `k p`, with `p` evaluated first. -/
def evaluatedPoint {α : Type} (p : Jacobian) (k : Jacobian → α) : α :=
  match p with
  | ⟨x, y, z⟩ => k ⟨x, y, z⟩

/-- A difference modulo p. -/
def subP (a b : Nat) : Nat := (a + p384 - b) % p384

/-- A point with its coordinates evaluated. -/
def Jacobian.mk' (x y z : Nat) : Jacobian :=
  evaluated x fun x => evaluated y fun y => evaluated z fun z => { x := x, y := y, z := z }

/-- Twice a point, on the curve with a = −3. -/
def Jacobian.double (p : Jacobian) : Jacobian :=
  evaluated (p.z * p.z % p384) fun zz =>
  evaluated (p.y * p.y % p384) fun yy =>
  evaluated (p.x * yy % p384) fun s =>
  evaluated (3 * subP p.x zz * (p.x + zz) % p384) fun m =>
  evaluated (subP (m * m % p384) (8 * s % p384)) fun x =>
  .mk' x (subP (m * subP (4 * s % p384) x % p384) (8 * (yy * yy % p384) % p384)) (2 * p.y * p.z % p384)

/-- The sum of two points. -/
def Jacobian.add (p q : Jacobian) : Jacobian :=
  if p.z = 0 then q
  else if q.z = 0 then p
  else
    evaluated (p.z * p.z % p384) fun z1 =>
    evaluated (q.z * q.z % p384) fun z2 =>
    evaluated (p.x * z2 % p384) fun u1 =>
    evaluated (q.x * z1 % p384) fun u2 =>
    evaluated (p.y * (z2 * q.z % p384) % p384) fun s1 =>
    evaluated (q.y * (z1 * p.z % p384) % p384) fun s2 =>
    if u1 = u2 then (if s1 = s2 then p.double else { x := 1, y := 1, z := 0 })
    else
      evaluated (subP u2 u1) fun h =>
      evaluated (subP s2 s1) fun r =>
      evaluated (h * h % p384) fun hh =>
      evaluated (h * hh % p384) fun hhh =>
      evaluated (u1 * hh % p384) fun v =>
      evaluated (subP (r * r % p384) ((hhh + 2 * v) % p384)) fun x =>
      .mk' x (subP (r * subP v x % p384) (s1 * hhh % p384)) (h * (p.z * q.z % p384) % p384)

/-- u·G + v·Q, where `sum` is G + Q: bits `n` − 1 down to 0 remain. -/
def p384Sum (u v : Nat) (g q sum : Jacobian) : Nat → Jacobian → Jacobian
  | 0, acc => acc
  | n + 1, acc =>
    evaluatedPoint acc.double fun acc =>
      evaluatedPoint
        (match u.testBit n, v.testBit n with
         | false, false => acc
         | true, false => acc.add g
         | false, true => acc.add q
         | true, true => acc.add sum)
        fun acc => p384Sum u v g q sum n acc

/-- A power modulo m, by the bits `n` − 1 down to 0 of `e`. -/
def powMod (m b e : Nat) : Nat → Nat → Nat
  | 0, acc => acc
  | n + 1, acc =>
    evaluated (if e.testBit n then acc * acc % m * b % m else acc * acc % m) fun acc => powMod m b e n acc

/-- Whether a signature r ‖ s verifies for a digest under a public key x ‖ y, each number 48 bytes,
big-endian. -/
def ecdsaVerifies (key digest signature : List Byte) : Bool :=
  evaluated (beNat (key.take 48)) fun qx =>
  evaluated (beNat (key.drop 48)) fun qy =>
  evaluated (beNat (signature.take 48)) fun r =>
  evaluated (beNat (signature.drop 48)) fun s =>
  evaluated (powMod p384Order s (p384Order - 2) 384 1) fun w =>
  evaluated (beNat digest * w % p384Order) fun u =>
  evaluated (r * w % p384Order) fun v =>
  let g : Jacobian := { x := p384Gx, y := p384Gy, z := 1 }
  let q : Jacobian := { x := qx, y := qy, z := 1 }
  evaluatedPoint (g.add q) fun gq =>
  evaluatedPoint (p384Sum u v g q gq 384 { x := 1, y := 1, z := 0 }) fun sum =>
  evaluated (powMod p384 sum.z (p384 - 2) 384 1) fun zi =>
  decide (key.length = 96 ∧ qx < p384 ∧ qy < p384 ∧
    (qy * qy) % p384 = (qx * qx * qx + (p384 - 3) * qx + p384B) % p384 ∧
    signature.length = 96 ∧ 1 ≤ r ∧ r < p384Order ∧ 1 ≤ s ∧ s < p384Order ∧
    sum.z ≠ 0 ∧ (sum.x * (zi * zi % p384) % p384) % p384Order = r)

end Sys2Proof.Machine
end

