-- ==== Sys2Proof/Machine/Image.lean ====
section
/-! DEFINITION. The boot flash, the Nelyth image and its checks, and the image update (R38 to R46, R54,
R55). -/

namespace Sys2Proof.Machine

/-! ### The header (R40) -/

def FlashSlot.num (f : FlashSlot) (a n : Nat) : Nat := f.bytes.rdN a n

/-- MAGIC and FORMAT match. -/
def FlashSlot.headed (f : FlashSlot) : Bool :=
  f.written && f.bytes.block 0 4 == [0x4E#8, 0x4C#8, 0x54#8, 0x48#8] && f.num 4 2 == 1

def FlashSlot.sequence (f : FlashSlot) : Nat := f.num 0x08 8
def FlashSlot.partMask (f : FlashSlot) : Nat := f.num 0x10 4
def FlashSlot.payloadLen (f : FlashSlot) : Nat := f.num 0x14 4
def FlashSlot.keyGen (f : FlashSlot) : Nat := f.num 0x18 4

/-- A slot holds at most 20 MB (R38). -/
abbrev slotSize : Nat := 0x1400000

end Sys2Proof.Machine

namespace Sys2Proof

/-! ### Image-level checks (R46) -/

/-- The pins that a card's map names. -/
def Card.named (c : Card) : List Nat := c.pins.filter (· != 0xFFFF)

def distinct : List Nat → Bool
  | [] => true
  | x :: t => !t.contains x && distinct t

/-- The ranges of the card table. -/
def Card.inRange (c : Card) : Bool :=
  decide (c.channel ≤ 559 ∧ c.mould ≤ 31 ∧ c.auto ≤ 1 ∧ c.pins.length = 16 ∧ c.die ≤ 7 ∧ c.stops.length = 16 ∧
    c.keys.length ≤ 8 ∧ 1 ≤ c.share ∧ c.share ≤ 255 ∧ 1 ≤ c.interval ∧ c.interval ≤ 64 ∧ c.identity.length ≤ 64 ∧
    c.identityAt + c.identity.length ≤ 0x80000) &&
  c.lockupPin.elim true (fun k => decide (k < 16)) && c.stops.all (fun x => decide (x ≤ 3)) &&
  c.named.all (fun p => decide (p < 144)) && distinct c.named && (c.die != 0 || c.named.isEmpty)

/-- Two cards neither serve one channel nor assign one pin. -/
def Card.apart (a b : Card) : Bool :=
  a.channel != b.channel && (a.die != b.die || a.named.all fun p => !b.named.contains p)

def cardsApart : List Card → Bool
  | [] => true
  | c :: t => t.all (Card.apart c) && cardsApart t

/-- R315, R323, R326: an engine's program window lies in the store, and QJOIN is not the reserved value. -/
def engineOk (r : Bytes) (n : Nat) : Bool :=
  let e := 0xE410 + 0x18 * n
  let len := bitsOf (r.rd (e + 4)).toNat 5 0
  decide (1 ≤ len ∧ bitsOf (r.rd (e + 3)).toNat 5 0 + len ≤ 40 ∧ bitsOf (r.rd (e + 5)).toNat 3 2 ≠ 3)

/-- The limits on the registers that are not framed: the pace rate (R149), the engines, and the reserved format of the
PCM voice (R310). -/
def registersOk (r : Bytes) : Bool :=
  decide (1 ≤ (r.rd 0xE082).toNat ∧ (r.rd 0xE082).toNat ≤ (r.rd 0xE083).toNat ∧
    bitsOf (r.rd 0xEB58).toNat 6 5 ≠ 3) && (List.range 4).all (engineOk r)

/-- The limits on a mould's values (R45, R149, R173, R310, R326, R349, R477); sparse contents stand in their
canonical form and lie in their memories. -/
def Mould.inLimits (m : Mould) : Bool :=
  let clock (f : Nat) : Bool := decide (214748365 ≤ f ∧ f ≤ 2684354560)
  let within (b : Bytes) (lo hi : Nat) : Bool := b.wf && b.all fun c => decide (lo ≤ c.1 ∧ c.1 < hi)
  decide (m.index ≤ 31 ∧ m.name.length ≤ 16 ∧ m.coreFreq ≤ m.ioFreq ∧ m.regs.rdN 0xE730 4 ≤ 4 * m.ioFreq) &&
  clock m.coreFreq && clock m.ioFreq && Machine.snapshotOk m.regs && registersOk m.regs &&
  within m.memory 0 0x80000 && within m.decodeTable 0 0x40 && within m.microcode 0 0x1000 &&
  within m.paceTable 0 0x100 && within m.regs 0xE000 0xF000 && within m.palette 0 0x400 && within m.tables 0 0x3000

/-- The ranges of the device section (R44, R260). -/
def Device.inRange (d : Device) : Bool :=
  let size (n : Nat) : Bool := decide (64 ≤ n ∧ n ≤ 2048)
  decide (d.levels.length = 8 ∧ d.thresholds.length = 7 ∧ 80 ≤ d.laneRate ∧ d.laneRate ≤ 1500 ∧ d.wakeMs ≤ 255) &&
  size d.panelW && size d.panelH && d.levels.all (fun l => decide (l ≤ 3))

/-- The indices of the sections of a type, in order. -/
def indices (type : Nat) (l : List (Nat × Nat × List Byte)) : List Nat :=
  (l.filter fun e => e.1 == type).map (·.2.1)

/-- The moulds and cards that the sections' bytes give are those that the directory lists (R43). -/
def Image.matchesSections (i : Image) (l : List (Nat × Nat × List Byte)) : Bool :=
  indices 2 l == i.moulds.map (·.index) && indices 3 l == i.cards.map (·.channel % 256)

/-- R46: the image-level checks, which every card takes part in. Two moulds of one index are no finding of its
table, and the first of them serves (DESIGN CHOICE, assumption 113). -/
def Image.sound (i : Image) : Bool :=
  i.cards.all Card.inRange && cardsApart i.cards && i.moulds.all Mould.inLimits &&
  i.cards.all (fun c => i.moulds.any fun m => m.index == c.mould) && i.device.inRange

end Sys2Proof

namespace Sys2Proof.Machine

/-! ### The payload (R40, R41, R43) -/

def FlashSlot.cipher (f : FlashSlot) : List Byte := f.bytes.block 0x100 f.payloadLen

/-- The signature verifies over SHA-384 of header bytes 00h to 7Fh and the encrypted payload (R40). -/
def FlashSlot.signedBy (f : FlashSlot) (key : List Byte) : Bool :=
  ecdsaVerifies key (sha384 (f.bytes.block 0 0x80 ++ f.cipher)) (f.bytes.block 0x80 96)

/-- The decrypted payload, when the tag verifies (R40). -/
def FlashSlot.opened (f : FlashSlot) (key : List Byte) : Option (List Byte) :=
  gcmOpen key (f.bytes.block 0x20 12) (f.bytes.block 0 0x80) f.cipher (f.bytes.block 0x30 16)

/-- The directory's entries up to the one of type 00h: type, index, offset and length (R43). -/
def directory : Nat → List Byte → Option (List (Nat × Nat × Nat × Nat))
  | 0, _ => none
  | n + 1, l =>
    let at_ (k : Nat) : Nat := (l.getD k 0#8).toNat
    if l.length < 16 then none
    else if at_ 0 = 0 then some []
    else (directory n (l.drop 16)).map ((at_ 0, at_ 1, leNat ((l.drop 8).take 4), leNat ((l.drop 12).take 4)) :: ·)

/-- The sections of a payload: type, index and bytes. Exactly one is the device section, and each lies in the payload
(R43). -/
def sections (p : List Byte) : Option (List (Nat × Nat × List Byte)) :=
  (directory (p.length / 16 + 1) p).bind fun es =>
    if es.countP (·.1 == 1) = 1 ∧ es.all (fun e => decide (e.2.2.1 + e.2.2.2 ≤ p.length)) then
      some (es.map fun e => (e.1, e.2.1, (p.drop e.2.2.1).take e.2.2.2))
    else none

/-- The sections of a slot whose header, signature and tag pass (R41). -/
def State.slotSections (s : State) (f : FlashSlot) : Option (List (Nat × Nat × List Byte)) :=
  let k := s.hub.keys
  match k.imageKey, k.signingKey with
  | some key, some signing =>
    if f.headed ∧ f.partMask.testBit (s.hub.part - 1) ∧ 256 + f.payloadLen ≤ slotSize ∧ f.keyGen = k.keyGen ∧
        f.signedBy signing ∧ k.floor ≤ f.sequence then (f.opened key).bind sections
    else none
  | _, _ => none

/-- R41: the payload of a valid slot. -/
def State.validSlot (s : State) (f : FlashSlot) (r : SlotReading) : Option Image :=
  (s.slotSections f).bind fun l => r.payload.filter fun i => i.matchesSections l && i.sound

/-! ### Start-up -/

def State.flashSlot (s : State) (b : Bool) : FlashSlot := s.hub.flash.getD b.toNat .erased

/-- How a slot's header ranks: one whose MAGIC or FORMAT does not match counts as lowest (R42, R54). -/
def FlashSlot.rank (f : FlashSlot) : Nat := if f.headed then f.sequence + 1 else 0

/-- A slot is taken into use (R42, R464, R466). -/
def State.useSlot (s : State) (b : Bool) (i : Image) : State :=
  let f := s.flashSlot b
  s.onHub fun h =>
    { h with
      slotA := h.slotA || !b, slotB := h.slotB || b, activeSlot := b.toNat, noImage := false
      read := some i, header := f.bytes.block 0 0x80, sections := (s.slotSections f).getD []
      sequence := f.sequence
      keys := { h.keys with floor := f.sequence, levels := some i.device.levels } }

/-- IMAGE_READ_PHASE (R35, R42): the slot of the higher SEQUENCE is streamed, and the other one when that is
invalid. -/
def State.imageRead (s : State) (octal : Bool) (a b : SlotReading) : State :=
  if s.hub.phase ≠ 2 then s
  else
    let s := s.onHub fun h => { h with phase := 3, fallbackSpi := !octal }
    let first := decide ((s.flashSlot false).rank < (s.flashSlot true).rank)
    let reading (x : Bool) : SlotReading := if x then b else a
    match s.validSlot (s.flashSlot first) (reading first) with
    | some i => s.useSlot first i
    | none =>
      match s.validSlot (s.flashSlot (!first)) (reading (!first)) with
      | some i => s.useSlot (!first) i
      | none => s.onHub fun h => { h with noImage := true }

/-- IMAGE_LOAD_PHASE (R46): moulds and cards are placed in the image store; a card for a channel that the part does
not offer is counted in CARDS_SKIPPED. -/
def State.imageLoad (s : State) : State :=
  if s.hub.phase ≠ 3 then s
  else
    (s.onHub fun h =>
      { h with
        phase := 4, read := none
        image := h.read.map fun i => { i with cards := i.cards.filter fun c => s.offers c.channel }
        cardsSkipped := h.read.elim 0 fun i => (i.cards.filter fun c => !s.offers c.channel).length }).netlow

/-! ### Image update (R54, R55) -/

/-- The slot that an update writes: the one not in use, or with none in use the one of the lower SEQUENCE. -/
def State.updateSlot (s : State) : Bool :=
  if ¬ s.hub.noImage then s.hub.activeSlot == 0
  else decide ((s.flashSlot true).rank ≤ (s.flashSlot false).rank)

def State.onFlash (s : State) (n : Nat) (f : FlashSlot → FlashSlot) : State :=
  s.onHub fun h => { h with flash := updateAt h.flash n f }

/-- The flash address of a slot (R38). -/
def slotAt (n : Nat) : Nat := if n = 0 then 0 else 0x2000000

def State.imageBegin (s : State) (tag : Nat) : State :=
  if s.hub.update.isSome then s.respond 0x20 3 tag 0 0 0
  else
    let n := s.updateSlot.toNat
    let s := s.onFlash n fun _ => { bytes := [], written := true, open_ := true }
    (s.onHub fun h => { h with update := some n }).respond 0x20 0 tag 0 0 0

/-- IMAGE_WRITE: a piece beyond 1 MB, or beyond the slot, is a bad argument. -/
def State.imageWrite (s : State) (tag off : Nat) (data : List Byte) : State :=
  match s.hub.update with
  | none => s.respond 0x21 1 tag 0 0 0
  | some n =>
    if 0x100000 < data.length ∨ slotSize < off + data.length then s.respond 0x21 6 tag 0 0 0
    else
      let s := s.onFlash n fun f => { f with bytes := f.bytes.put off data }
      (s.send (.flash (slotAt n + off) data)).respond 0x21 0 tag 0 0 0

/-- IMAGE_COMMIT: the check of R41, with the low 32 bits of the new SEQUENCE in DETAIL32. -/
def State.imageCommit (s : State) (tag : Nat) (r : SlotReading) : State :=
  match s.hub.update with
  | none => s.respond 0x22 1 tag 0 0 0
  | some n =>
    let f := s.hub.flash.getD n .erased
    let ok := (s.validSlot f r).isSome
    let s := (s.onFlash n fun f => { f with open_ := false }).onHub fun h => { h with update := none }
    s.respond 0x22 (if ok then 0 else 7) tag 0 0 (f.sequence % 0x100000000)

end Sys2Proof.Machine
end

