-- ==== Sys2Proof/Machine/Power.lean ====
section
/-! DEFINITION. Resets, the phases of start-up, and the endpoint's link and function resets (R31 to R37, R370 to
R374, R394, R471, R480 to R482). -/

namespace Sys2Proof.Machine

/-- FAIL_CAUSE of a fault found in the always-on or the security phase (R36). -/
def bootCause : BootFault → Option Nat
  | .none => none
  | .alwaysOn => some 1
  | .refclk => some 5

/-! ### Resets -/

/-- A device reset, and the always-on phase (R31, R32, R466). -/
def State.startUp (s : State) (fault : BootFault) : State :=
  match bootCause fault with
  | some cause => s.hold cause
  | none => if s.hub.wipeHold then s.hold 2 else s.deviceReset

def State.powerOn (s : State) (fault : BootFault) : State :=
  (s.startUp fault).onHub fun h => { h with pwrgd := true }

/-- RESET_N (R480). -/
def State.resetN (s : State) (fault : BootFault) : State := if s.hub.pwrgd then s.startUp fault else s

/-- PWRGD falls (R471): islands stop, pads and the link are down; no channel is drained. -/
def State.powerDown (s : State) : State := s.deviceReset.onHub fun h => { h with pwrgd := false }

/-- VBAT and main power are both removed (R453, R466, R480). -/
def State.allPowerRemoved (s : State) : State :=
  s.deviceReset.onHub fun h =>
    { h with keys := .empty, vbatAlarms := [], wipeHold := false, tripped := 0#8, pwrgd := false }

/-- The queue registers and the VF status of a channel after PERST# or a function-level reset: the VF shows the
present state and epoch, and the layers' host reads stop (R394, R395). -/
def Chan.functionReset (c : Chan) : Chan :=
  { c with
    queues := List.replicate 16 .blank
    vf := { VfRegs.blank with epochLatch := c.viewEpoch }
    layerReads := [[], []], layerOld := [0, 0], layerStopped := [true, true] }

/-- The responses to the commands that the channel is carrying out are lost (R394, R481). -/
def Chan.unanswered (c : Chan) : Chan :=
  { c with castTag := none, stopTags := [], pendingCast := c.pendingCast.map fun w => { w with tag := none } }

/-- PERST# goes low (R480, R481). -/
def State.perstLow (s : State) : State :=
  let s := s.onHub fun h =>
    { h with
      perstN := false, linkUp := false, linkWidth := 0, d3hot := false, msix := msixBlank 64, pba := []
      unrelaxed := [], bars := [0, 0, 0], ideAssoc := [], mcq := .blank
      mrq := .blank, responses := [], spdm := .closed, ideActive := [], ideLoaded := [] }
  { s with chans := s.chans.map fun c => c.functionReset.unanswered }

/-- Start-up has passed the security phase (R34). -/
def Hub.pastSecurity (h : Hub) : Bool := decide (1 ≤ h.phase ∧ h.phase ≤ 6)

/-- The link trains (R34). -/
def Hub.train (h : Hub) : Hub :=
  if h.perstN ∧ h.pastSecurity then { h with linkUp := true, linkWidth := 16 } else h

def State.perstHigh (s : State) : State := (s.onHub fun h => { h with perstN := true }.train).releasePending

/-! ### Start-up (R31) -/

/-- SELF_TEST_PHASE (R32, R33, R444): the hub blocks of R447 are tested first, and each is entered in the kiln log
(assumption 122). -/
def State.selfTest (s : State) (hubFail : Option TestOutcome) (cells : List (Nat × Nat × TestResult)) : State :=
  if s.hub.phase ≠ 1 then s
  else match hubFail with
    | some .logic => s.hold 3
    | some .memory => s.hold 4
    | _ =>
      let s := (List.range 8).foldl (fun s b => s.kilnEntry 0 b 1 0 passResult) s
      (s.startCells cells).onHub fun h => { h with phase := 2 }

/-- The cause shown for a channel that the casting phase does not cast (R37, R46). -/
def State.startCause (s : State) (n : Nat) : Nat :=
  match s.hub.image, s.card n with
  | none, _ => 4
  | some _, none => 1
  | some _, some c => if ¬ s.pinless n ∧ ¬ s.populated c.die then 2 else 0

/-- The casting phase for channel n. -/
def State.startChannel (s : State) (n : Nat) : State :=
  let cause := s.startCause n
  if cause ≠ 0 then s.onChan n fun c => { c with cause := cause }
  else if (s.card n).elim false (fun c => c.auto == 1) then s.carryOut n none 255
  else s

/-- CASTING_PHASE (R31, R475): the bank rails are sensed, and every channel marked for automatic cast is cast. -/
def State.castingPhase (s : State) (banks : List (List Nat)) : State :=
  if s.hub.phase ≠ 4 then s
  else
    let s := { s with dies := s.dies.zipIdx.map fun (d : Die × Nat) => { d.1 with banks := banks.getD d.2 [0, 0] } }
    let s := s.onHub fun h => { h with phase := 5 }
    (List.range (partChannels s.hub.part)).foldl State.startChannel s

/-- READY (R31, R44): the casting phase has completed. A panel channel that the part does not offer selects none (R44 does
not say; DESIGN CHOICE, assumption 125). -/
def State.readyRises (s : State) : State :=
  if s.hub.phase ≠ 5 ∨ s.chans.any (fun c => c.state == .casting) then s
  else
    let s := s.onHub fun h => { h with phase := 6, ready := true }
    match s.device.svcChannel with
    | some n => if s.offers n then s.select (some n) else s
    | none => s

/-! ### The endpoint -/

/-- The Device ID of a part (R372); a VF's is one higher. -/
def partDevice (part : Nat) : Nat := if part = 1 then 0x2080 else if part = 2 then 0x4240 else 0x8560

/-- A register of configuration space (R9, R370, R372, R373). A VF's own IDs read as SR-IOV gives them. -/
def State.configValue (s : State) (fn : Nat) (r : ConfigReg) : Word :=
  let h := s.hub
  BitVec.ofNat 32 <| match r with
    | .id => if fn = 0 then partDevice h.part * 0x10000 + 0x1FA3 else 0xFFFFFFFF
    | .classRevision => 0x0B400000 + h.revision.toNat
    -- a 64-bit, non-prefetchable memory BAR
    | .bar k high =>
      let b := h.bars.getD k 0
      if high then b / 0x100000000 else b % 0x100000000 + 4
    | .vfDeviceId => partDevice h.part + 1
    | .firstVfOffset => 1
    | .vfStride => 1
    | .totalVfs => partChannels h.part
    | .pageSizes => 1
    | .powerState => if h.d3hot then 3 else 0
    | .other off => (Config.configSpace fn off).toNat

/-- R34: a configuration request to function `fn` (R370). -/
def State.configRequest (s : State) (fn : Nat) (r : ConfigReg) : State :=
  if ¬ s.hub.linkUp then s
  else if partChannels s.hub.part < fn then s.send .unsupported
  else s.send (.config s.hub.ready (if s.hub.ready then s.configValue fn r else 0#32))

/-- R371. -/
def State.unsupported (s : State) : State := if s.hub.linkUp then s.send .unsupported else s

/-- The power state of PF0 (R372); leaving D3hot, responses that waited are written. -/
def State.powerState (s : State) (d3 : Bool) : State :=
  if s.hostReaches then ((s.onHub fun h => { h with d3hot := d3 }).flushResponses).releasePending else s

/-- Enable Relaxed Ordering of a function (R370). -/
def State.setRelaxed (s : State) (fn : Nat) (enable : Bool) : State :=
  if s.hostReaches then
    s.onHub fun h =>
      let others := h.unrelaxed.filter (· != fn)
      { h with unrelaxed := if enable then others else others ++ [fn] }
  else s

/-- A write of half of a BAR (R373): 64 KB for those of PF0 and 16 KB for a VF's. -/
def State.setBar (s : State) (k : Nat) (high : Bool) (v : Word) : State :=
  let size := if k = 2 then 0x4000 else 0x10000
  let put (b : Nat) : Nat :=
    if high then v.toNat * 0x100000000 + b % 0x100000000
    else b / 0x100000000 * 0x100000000 + v.toNat / size * size
  if s.hostReaches then s.onHub fun h => { h with bars := updateAt h.bars k put } else s

/-- A VF function-level reset (R394). -/
def State.vfReset (s : State) (ch : Nat) : State :=
  if s.hostReaches ∧ s.offers ch then
    (s.onChan ch Chan.functionReset).onHub fun h =>
      { h.clearPending (ch + 1) with unrelaxed := h.unrelaxed.filter (· != ch + 1) }
  else s

/-- A PF0 function-level reset (R394). -/
def State.pf0Reset (s : State) : State :=
  if s.hostReaches then
    let s := s.onHub fun h =>
      { h.clearPending 0 with
        mcq := .blank, mrq := .blank, msix := msixBlank 64, responses := [], d3hot := false
        unrelaxed := h.unrelaxed.filter (· != 0) }
    { s with chans := s.chans.map Chan.unanswered }
  else s

/-- R370: the widest of ×16, ×8 and ×4 whose lanes all work, with lane reversal; `lanes` are the lanes that
work. -/
def widthOf (lanes : BitVec 16) : Nat :=
  let all (lo n : Nat) : Bool := (List.range n).all fun i => lanes.getLsbD (lo + i)
  if all 0 16 then 16 else if all 0 8 || all 8 8 then 8 else if all 0 4 || all 12 4 then 4 else 0

/-- LANE_FAILURE: the link trains down; with no width left, it drops. -/
def State.laneFailure (s : State) (lanes : BitVec 16) : State :=
  if s.hub.linkUp then s.onHub fun h =>
    { h with linkWidth := min h.linkWidth (widthOf lanes), linkUp := widthOf lanes != 0 }
  else s

/-! ### Register reads and writes of the functions -/

/-- BOOT_STATUS (R36). -/
def Hub.bootStatus (h : Hub) : Word :=
  BitVec.ofNat 32 (h.failCause * 0x10000 + h.phase * 256 + h.keyNeeded.toNat * 64 + h.noImage.toNat * 32 +
    h.slotB.toNat * 16 + h.slotA.toNat * 8 + h.activeSlot * 4 + h.fallbackSpi.toNat * 2 + h.ready.toNat)

/-- A read of VF_STATE latches VF_EPOCH (R395). -/
def State.vfStateRead (s : State) (ch : Nat) : State :=
  if s.hostReaches ∧ s.offers ch then
    s.onChan ch fun c => { c with vf := { c.vf with epochLatch := c.viewEpoch } }
  else s

/-- A dword of an MSI-X table (R374, R398). -/
def msixWrite (table : Bytes) (off : Nat) (v : Word) : Bytes := table.put off (leBytes 4 v.toNat)

/-- A write to VF BAR0 (R379, R395). -/
def State.vfWrite (s : State) (ch off : Nat) (v : Word) : State :=
  if ¬ s.hostReaches ∨ ¬ s.offers ch then s
  else if off = 0x08 then s.onChan ch fun c => { c with vf := { c.vf with cmdEpoch := v.toNat } }
  else if off = 0x0C then (if v.toNat % 256 = 1 then s.vfRefresh ch (BitVec.ofNat 8 (v.toNat / 256)) else s)
  else if off = 0x10 then
    s.onChan ch fun c => { c with vf := { c.vf with
      stale := c.vf.stale && !v.getLsbD 1, done := c.vf.done && !v.getLsbD 0 } }
  else if 0x1000 ≤ off ∧ off < 0x1040 then s.doorbell (.vf ch ((off - 0x1000) / 4)) v.toNat
  else if 0x2000 ≤ off ∧ off < 0x2400 then s.queueWrite (.vf ch ((off - 0x2000) / 0x40)) (off % 0x40) v
  else if 0x3000 ≤ off ∧ off < 0x3040 then
    (s.onChan ch fun c =>
      { c with vf := { c.vf with msix := msixWrite c.vf.msix (off - 0x3000) v } }).releasePending
  else s

/-- A write to PF0 BAR0 (R398). -/
def State.pf0Write (s : State) (off : Nat) (v : Word) : State :=
  if ¬ s.hostReaches then s
  else if 0x100 ≤ off ∧ off < 0x140 then s.queueWrite .mcq (off - 0x100) v
  else if 0x140 ≤ off ∧ off < 0x180 then (s.queueWrite .mrq (off - 0x140) v).flushResponses
  else if off = 0x180 then s.doorbell .mcq v.toNat
  else if off = 0x184 then (s.doorbell .mrq v.toNat).flushResponses
  else if 0x1000 ≤ off ∧ off < 0x1400 then
    (s.onHub fun h => { h with msix := msixWrite h.msix (off - 0x1000) v }).releasePending
  else s

/-- A queue's CTL write and its doorbell (R378, R380, R381), which the host makes over the link. -/
def State.hostQueue (s : State) (q : QueueId) (f : State → State) : State :=
  if s.hostReaches ∧ s.hasQueue q then (f s).flushResponses else s

/-- HOLDOFF_END (R382): the holdoff ends, and one message that was deferred is sent. -/
def State.holdoffEnd (s : State) (q : QueueId) : State :=
  let x := s.queue q
  if ¬ s.hasQueue q ∨ ¬ x.quiet then s
  else if x.deferred then (s.queueMessage q).onQueue q fun x => { x with deferred := false }
  else s.onQueue q fun x => { x with quiet := false }

/-- Channel n's entry of the channel table (R402). -/
def State.channelTable (s : State) (n : Nat) : List Byte :=
  let c := s.chan n
  let flag (b : Bool) (k : Nat) : Nat := b.toNat * 2 ^ k
  let flags := flag c.pendingCast.isSome 0 + flag c.attached 1 +
    flag (c.cell.elim false fun x => x.core.debugHalt || x.core.lockup) 2 +
    flag (c.cell.elim false (·.picture.clone)) 3 + flag (s.hub.panel.selected == some n) 4 +
    flag (!c.netOff.isEmpty) 5 + flag c.draining 6
  leBytes 1 c.state.code ++ leBytes 1 flags ++ leBytes 1 c.cause ++ leBytes 1 c.mould ++ leBytes 4 c.epoch ++
    leBytes 2 (cellWord c.place) ++ leBytes 1 c.share ++ leBytes 1 c.interval ++ leBytes 4 c.stale ++
    leBytes 4 c.castReplaced ++ leBytes 4 c.shq.dropped ++ leBytes 4 c.clq.dropped ++ leBytes 4 c.audDropped ++
    leBytes 4 c.ntqDiscarded ++ leBytes 4 c.catches ++ [c.lastU] ++ List.replicate 23 0#8

/-- A register write that has no row of its own (R6). -/
def State.registerWrite (s : State) (w : RegWrite) : State :=
  match w with
  | .io ch addr v => s.cellEvent ch fun c => c.ioStore addr v
  | .vf ch off v => s.vfWrite ch off v
  | .pf0 off v => s.pf0Write off v
  | .power d3hot => s.powerState d3hot
  | .relax fn enable => s.setRelaxed fn enable
  | .bar k high v => s.setBar k high v
  | .ide stream reg v =>
    if s.hostReaches then s.onHub fun h => { h with ideAssoc := insertNat h.ideAssoc (8 * stream + reg) v } else s

end Sys2Proof.Machine
end

