-- ==== Sys2Proof/Machine/Security.lean ====
section
/-! DEFINITION. Tamper alarms, the security phase, SPDM over the DOE mailbox, IDE keys and provisioning (R375,
R376, R453, R456, R461, R464 to R468). -/

namespace Sys2Proof.Machine

/-- The seconds since the reading before, and the temperature and the power, become known (assumption 42). -/
def State.sense (s : State) : State :=
  s.onHub fun h =>
    { h with
      readings := h.readings + 1
      uptime := if h.ready then h.uptime + Config.secondsPassed h.readings else h.uptime
      tjMax := Config.junction h.readings, power := Config.packagePower h.readings }

/-! ### Tamper alarms -/

/-- The level of a sensor (R466). -/
def KeyStore.level (k : KeyStore) (sensor : Nat) : Nat :=
  match k.levels with
  | some l => l.getD sensor 0
  | none => if sensor = 0 ∨ sensor = 1 ∨ sensor = 7 then 2 else 0

/-- Whether a sensor watches now (R465, R471). -/
def Hub.watches (h : Hub) (sensor : Nat) : Bool :=
  if sensor = 3 ∨ sensor = 4 ∨ sensor = 5 then h.glitchArmed && h.pwrgd
  else if sensor = 6 then h.pwrgd
  else decide (sensor < 8)

/-- The channels that an alarm of WIPE_CHANNEL_KEYS affects (R466): bit d − 1 of `mask` names die d. -/
def affected (sensor mask : Nat) (c : Chan) : Bool :=
  if sensor = 3 ∨ sensor = 5 then c.place.elim false fun p => mask.testBit (p.1 - 1) else true

/-- An alarm empties the slots of channel `ch` (R461): a record of kind 0Eh names those that held keys. The
answer counts them. -/
def State.eraseChannel (s : State) (ch : Nat) : State × Nat :=
  match (s.chan ch).cell with
  | none => (s.eraseKeys ch, 0)
  | some x =>
    let emptied := (x.eraseSlots 0xFF#8).1
    let s := (s.deliver ch fun x => (x.eraseSlots 0xFF#8).2).eraseKeys ch
    let n := (List.range 8).countP fun i => emptied.getLsbD i
    (if n = 0 then s else s.log ch 0x0E (emptied :: leBytes 7 0), n)

def eraseAll : List Nat → State → State × Nat
  | [], s => (s, 0)
  | ch :: t, s =>
    let r := s.eraseChannel ch
    let q := eraseAll t r.1
    (q.1, r.2 + q.2)

/-- The escrows that WIPE_ALL erases besides: every one. -/
def KeyStore.wiped (k : KeyStore) : KeyStore := { k with imageKey := none, ideKeys := [], escrow := [] }

/-- What an alarm erases at its level (R466), with the slots erased. The link drops at WIPE_ALL, and carries
no IDE after it has trained again, which PERST_RELEASED tells (assumption 121). -/
def State.wipe (s : State) (sensor level mask : Nat) : State × Nat :=
  if level = 0 then (s, 0)
  else
    let all := 2 ≤ level
    let r := eraseAll ((s.chans.filter fun c => all || affected sensor mask c).map (·.n)) s
    if all then
      (r.1.onHub fun h =>
        { h with
          keys := h.keys.wiped, keyNeeded := true, ideActive := [], ideLoaded := [], linkUp := false, linkWidth := 0 }, r.2)
    else r

/-- An alarm record (R465 to R467): the latest 64 are kept. -/
def State.alarmRecord (s : State) (sensor level mask : Nat) (onVbat : Bool) (erased : Nat) : State :=
  let s := s.sense
  let r : AlarmRecord :=
    { seq := s.hub.keys.alarmSeq + 1, sensor := sensor, level := level
      dies := if sensor = 3 ∨ sensor = 5 then mask else 0, onVbat := onVbat, uptime := s.hub.uptime
      erased := erased }
  let s := s.onHub fun h =>
    { h with
      alarmN := false, alarmsRead := false
      keys := { h.keys with
        alarmSeq := h.keys.alarmSeq + 1
        alarms := (h.keys.alarms ++ [r]).drop (h.keys.alarms.length + 1 - 64) } }
  s.signal 0 2

/-- WIPE_AND_HOLD (R466). -/
def State.wipeHold (s : State) : State :=
  let s := s.hold 2
  s.onHub fun h => { h with wipeHold := true, keyNeeded := true, alarmN := false, alarmsRead := false }

/-- TAMPER_ALARM (R465, R466): a sensor that stays tripped raises one alarm. An alarm in a reset (phase 0h and the
hold), or with the main rails off, is recorded and applied in the security phase that follows (R482; assumption 102). -/
def State.tamperAlarm (s : State) (sensor mask : Nat) : State :=
  let h := s.hub
  if 8 ≤ sensor ∨ h.tripped.getLsbD sensor ∨ ¬ h.watches sensor then s
  else
    let s := s.onHub fun h => { h with tripped := h.tripped ||| BitVec.ofNat 8 (2 ^ sensor) }
    let level := h.keys.level sensor
    if ¬ h.pwrgd ∨ h.phase = 0 ∨ h.phase = 15 then
      (s.alarmRecord sensor level mask (!h.pwrgd) 0).onHub fun h =>
        { h with vbatAlarms := h.vbatAlarms ++ [(sensor, mask)] }
    else
      let r := s.wipe sensor level mask
      let s := r.1.alarmRecord sensor level mask false r.2
      if level = 3 then s.wipeHold else s

/-- SENSOR_CLEAR (R465, R467). -/
def State.sensorClear (s : State) (sensor : Nat) : State :=
  s.onHub fun h =>
    let t := h.tripped &&& ~~~ (BitVec.ofNat 8 (2 ^ sensor))
    { h with tripped := t, alarmN := h.alarmN || (h.alarmsRead && t == 0#8) }

/-- SECURITY_PHASE (R31, R465, R471): the alarms recorded before it are applied, the key store is checked, the
glitch detectors are armed, and the link may train. -/
def State.securityPhase (s : State) (fault : BootFault) : State :=
  if s.hub.phase ≠ 0 ∨ ¬ s.hub.pwrgd then s
  else match bootCause fault with
    | some cause => s.hold cause
    | none =>
      let alarms := s.hub.vbatAlarms
      let held := alarms.any fun a => s.hub.keys.level a.1 == 3
      let s := alarms.foldl (fun s a => (s.wipe a.1 (s.hub.keys.level a.1) a.2).1) s
      let s := s.onHub fun h =>
        { h with
          alarmN := h.alarmN && alarms.isEmpty, alarmsRead := h.alarmsRead && alarms.isEmpty
          vbatAlarms := [], keyNeeded := h.keys.imageKey.isNone, glitchArmed := true, phase := 1
          keys := if alarms.any (fun a => decide (1 ≤ h.keys.level a.1)) then { h.keys with escrow := [] }
            else h.keys }
      if held then s.wipeHold else s.onHub Hub.train

/-! ### The DOE mailbox (R376) -/

/-- A DOE answer of the kind `what`, with its message (R374). The kinds count R376's list: 0 Discovery, 1
GET_VERSION to 12 END_SESSION; 13 is the vendor-defined request of R468, 14 IDE_KM, 15 K_SET_GO, and 255 an
error. -/
def State.doeAnswer (s : State) (what : Nat) (bytes : List Byte) : State :=
  (s.send (.doe what bytes)).signal 0 3

/-- A request to the mailbox is answered by `f` while the host reaches it and `ok` holds of the responder; out of
order it is answered with an error. -/
def State.doe (s : State) (ok : Spdm → Bool) (f : State → State) : State :=
  if ¬ s.hostReaches then s else if ok s.hub.spdm then f s else s.doeAnswer 255 []

def State.onSpdm (s : State) (f : Spdm → Spdm) : State := s.onHub fun h => { h with spdm := f h.spdm }

def Spdm.session (p : Spdm) (id : Nat) : Option Session := p.sessions.find? (·.id == id)

/-- A session whose establishment is complete. -/
def Spdm.secured (p : Spdm) (id : Nat) : Bool := (p.session id).elim false (·.finished)

def Spdm.onSession (p : Spdm) (id : Nat) (f : Session → Session) : Spdm :=
  { p with sessions := p.sessions.map fun x => if x.id = id then f x else x }

/-- The bytes of the sections of a type in the image in use: of every device section, or of the moulds of one
index (R43, R464). -/
def State.sectionBytes (s : State) (type index : Nat) : List Byte :=
  (s.hub.sections.filter fun e => e.1 == type && (type == 1 || e.2.1 == index)).flatMap (·.2.2)

/-- The measurement of an index (R464). -/
def State.measurement (s : State) (index : Nat) : List Byte :=
  match index with
  | 1 => sha384 (Config.firmware false)
  | 2 => sha384 (Config.firmware true)
  | 3 => sha384 s.hub.header
  | 4 => sha384 (s.sectionBytes 1 0)
  | 5 => sha384 ((List.range 32).flatMap (s.sectionBytes 2))
  | 6 => ((List.range 8).map fun i => BitVec.ofNat 8 (s.hub.keys.level i)) ++ leBytes 4 s.hub.keys.alarms.length
  | _ => sha384 (Config.fuses ++ [s.hub.revision])

/-- The data object types of the Discovery answer: Discovery, SPDM and Secured SPDM (R376; assumption 104). -/
def doeProtocols : List Byte := [0#8, 1#8, 2#8]

/-- The version entry of SPDM 1.3 (R376). -/
def spdmVersions : List Byte := leBytes 2 0x1300

/-- The capability flags of the requests that R376 lists: CERT, CHAL, MEAS with signatures, ENCRYPT, MAC, MUT_AUTH,
KEY_EX, HBEAT and KEY_UPD (assumption 104). -/
def spdmFlags : List Byte := leBytes 4 0x63D6

/-- What NEGOTIATE_ALGORITHMS selects: ECDSA P-384, SHA-384, secp384r1 and AES-256-GCM (R376; assumption 104). -/
def spdmAlgorithmSet : List Byte := leBytes 4 0x80 ++ leBytes 4 2 ++ leBytes 2 0x10 ++ leBytes 2 2

/-- GET_VERSION begins a connection. -/
def State.spdmVersion (s : State) : State :=
  s.doe (fun _ => true) fun s =>
    (s.onSpdm fun _ => { Spdm.closed with version := true }).doeAnswer 1 spdmVersions

def State.spdmCapabilities (s : State) : State :=
  s.doe (·.version) fun s => (s.onSpdm fun p => { p with capabilities := true }).doeAnswer 2 spdmFlags

def State.spdmAlgorithms (s : State) : State :=
  s.doe (·.capabilities) fun s => (s.onSpdm fun p => { p with algorithms := true }).doeAnswer 3 spdmAlgorithmSet

def State.spdmDigests (s : State) : State :=
  s.doe (·.algorithms) fun s => s.doeAnswer 4 (sha384 Config.certificateChain)

def State.spdmCertificate (s : State) (off len : Nat) : State :=
  s.doe (·.algorithms) fun s => s.doeAnswer 5 ((Config.certificateChain.drop off).take len)

def State.spdmChallenge (s : State) (nonce : List Byte) : State :=
  s.doe (·.algorithms) fun s => s.doeAnswer 6 (Config.deviceSignature nonce)

def State.spdmMeasurements (s : State) (index : Nat) : State :=
  s.doe (fun p => p.algorithms && decide (1 ≤ index ∧ index ≤ 7)) fun s => s.doeAnswer 7 (s.measurement index)

/-- KEY_EXCHANGE begins a session. -/
def State.spdmExchange (s : State) (id : Nat) : State :=
  s.doe (fun p => p.algorithms && (p.session id).isNone) fun s =>
    (s.onSpdm fun p => { p with sessions := p.sessions ++
      [{ id := id, finished := false, mutualAuth := false, updates := 0 }] }).doeAnswer 8 []

/-- FINISH completes it; `auth` when the requester's chain verified (R468). -/
def State.spdmFinish (s : State) (id : Nat) (auth : Bool) : State :=
  s.doe (fun p => (p.session id).elim false fun x => !x.finished) fun s =>
    (s.onSpdm fun p => p.onSession id fun x => { x with finished := true, mutualAuth := auth }).doeAnswer 9 []

def State.spdmHeartbeat (s : State) (id : Nat) : State := s.doe (·.secured id) fun s => s.doeAnswer 10 []

def State.spdmKeyUpdate (s : State) (id : Nat) : State :=
  s.doe (·.secured id) fun s =>
    (s.onSpdm fun p => p.onSession id fun x => { x with updates := x.updates + 1 }).doeAnswer 11 []

def State.spdmEnd (s : State) (id : Nat) : State :=
  s.doe (·.secured id) fun s =>
    (s.onSpdm fun p => { p with sessions := p.sessions.filter fun x => x.id != id }).doeAnswer 12 []

/-! ### IDE keys and provisioning -/

/-- A key set of a stream: Link IDE is stream 0, and Selective IDE has streams 1 to 4 (R375). -/
def ideSlot (stream set : Nat) : Bool := decide (stream ≤ 4 ∧ set ≤ 1)

/-- IDE_KM programs a key set (R375, R464). -/
def State.ideProgram (s : State) (id stream set : Nat) (key : List Byte) : State :=
  s.doe (fun p => p.secured id && ideSlot stream set && key.length == 32) fun s =>
    (s.onHub fun h =>
      { h with
        keys := { h.keys with ideKeys :=
          (h.keys.ideKeys.filter fun k => !(k.1 == stream && k.2.1 == set)) ++ [(stream, set, key)] }
        ideLoaded := (h.ideLoaded.filter fun k => k != (stream, set)) ++ [(stream, set)] }).doeAnswer 14 []

/-- K_SET_GO: a stream uses a key set that was programmed (R375, R481). -/
def State.ideSwitch (s : State) (id stream set : Nat) : State :=
  s.doe (fun p => p.secured id && s.hub.ideLoaded.contains (stream, set)) fun s =>
    (s.onHub fun h => { h with ideActive := insertNat h.ideActive stream set }).doeAnswer 15 []

/-- KEY_PROVISION (R468): the image key and its generation; the signing key and the floor only when the key store
has lost them. -/
def State.provision (s : State) (id : Nat) (key : List Byte) (gen : Nat) (signing : List Byte) (floor : Nat) :
    State :=
  s.doe (fun p => (p.session id).elim false (fun x => x.finished && x.mutualAuth) && key.length == 32) fun s =>
    (s.onHub fun h =>
      { h with
        keyNeeded := false
        keys := { h.keys with
          imageKey := some key, keyGen := gen
          signingKey := if h.keys.signingKey.isSome then h.keys.signingKey else some signing
          floor := if h.keys.signingKey.isSome then h.keys.floor else floor } }).doeAnswer 13 []

end Sys2Proof.Machine
end

