-- ==== Sys2Proof/Machine/Records.lean ====
section
/-! DEFINITION. The records that PF0's read commands return, and the health registers on SMBus (R130, R258, R407,
R408, R436 to R438, R467). -/

namespace Sys2Proof.Machine

/-! ### READ commands -/

/-- A record of the catch log (R436). -/
def CatchRecord.bytes (r : CatchRecord) : List Byte :=
  leBytes 4 r.seq ++ leBytes 1 r.kind ++ leBytes 1 r.cause ++ leBytes 2 r.channel ++ leBytes 4 r.epoch ++
    leBytes 2 r.oldCell ++ leBytes 2 r.newCell ++ leBytes 6 r.ctime ++ leBytes 1 r.block ++ [r.u] ++
    leBytes 4 r.detail ++ leBytes 2 r.delay ++ leBytes 2 r.lag

def State.readCatchLog (s : State) (tag buf len : Nat) : State :=
  s.answer 0x30 tag buf len 0 (s.hub.catchLog.flatMap CatchRecord.bytes)

/-- The lockup record (R130), its fields in the order of the table. -/
def lockupBytes (ch : Nat) (r : LockupRecord) : List Byte :=
  let i := r.info
  leBytes 2 ch ++ leBytes 4 r.epoch ++ leBytes 8 i.time ++ [i.first] ++ leBytes 1 i.second ++ leBytes 1 i.cycle ++
    leBytes 2 i.savedPc.toNat ++ leBytes 2 i.ssp.toNat ++ [i.status] ++ leBytes 1 i.cwp ++ leBytes 1 i.wres ++
    [i.wsaved]

/-- READ_LOCKUP (R130, R400): whatever epoch it carries; no bytes without a record. -/
def State.readLockup (s : State) (ch tag buf len : Nat) : State :=
  if ¬ s.offers ch then s.respond 0x31 6 tag ch 0 0
  else s.answer 0x31 tag buf len ch ((s.chan ch).lockup.elim [] (lockupBytes ch))

/-- What has been measured of the cells since the reading before (assumption 42). -/
def State.senseCells (s : State) : State :=
  let k := s.hub.readings
  let s := s.sense
  { s with dies := s.dies.zipIdx.map fun (d : Die × Nat) => { d.1 with
      cells := d.1.cells.zipIdx.map fun (u : CellUnit × Nat) => { u.1 with
        corrected := u.1.corrected + Config.corrections k (d.2 + 1) u.2
        days := (Config.daysSinceTest k (d.2 + 1) u.2).toNat } } }

/-- STATE of a cell (R430, R437). -/
def State.cellState (s : State) (d n : Nat) : Nat :=
  match ((s.die d).cell n).role with
  | .hosting _ => 0
  | .pool => if (s.die d).free.contains n then 2 else 1
  | .retired => 3
  | .testing => 4

/-- The health of one cell (R437). -/
def State.healthBytes (s : State) (d n : Nat) : List Byte :=
  let u := (s.die d).cell n
  leBytes 1 d ++ leBytes 1 n ++ leBytes 1 (s.cellState d n) ++ [0#8] ++
    leBytes 2 ((s.hostedBy d n).getD 0xFFFF) ++ leBytes 1 u.margin ++ leBytes 1 u.trend ++
    leBytes 4 u.corrected ++ leBytes 2 u.uncorrectable ++ leBytes 2 u.days

def State.readHealth (s : State) (tag buf len : Nat) : State :=
  let s := s.senseCells
  s.answer 0x32 tag buf len 0
    (s.dieNumbers.flatMap fun d => (List.range 88).flatMap fun n => s.healthBytes d n)

/-- The cell of lowest margin of a die, the lowest-numbered on a tie (R438). -/
def worstCell : List CellUnit → Nat → Nat × Nat → Nat × Nat
  | [], _, best => best
  | u :: t, n, best => worstCell t (n + 1) (if u.margin < best.2 then (n, u.margin) else best)

/-- The forecast of die d (R438). -/
def State.forecastBytes (s : State) (k d : Nat) : List Byte :=
  let x := s.die d
  let worst := worstCell x.cells 0 (0, 256)
  leBytes 1 d ++ leBytes 1 x.reserves.length ++ leBytes 1 (s.device.thresholds.getD (d - 1) 0) ++
    leBytes 1 x.consumed ++ leBytes 2 (Config.forecastRate k d).toNat ++
    leBytes 2 (Config.forecastDays k d).toNat ++ leBytes 2 (d * 256 + worst.1) ++ leBytes 1 worst.2 ++
    List.replicate 5 0#8

def State.readForecast (s : State) (tag buf len : Nat) : State :=
  let k := s.hub.readings
  let s := s.sense
  s.answer 0x33 tag buf len 0 (s.dieNumbers.flatMap fun d => s.forecastBytes k d)

/-- An alarm record (R467). -/
def AlarmRecord.bytes (r : AlarmRecord) : List Byte :=
  leBytes 4 r.seq ++ leBytes 1 r.sensor ++ leBytes 1 r.level ++ leBytes 1 r.dies ++ leBytes 1 r.onVbat.toNat ++
    leBytes 4 r.uptime ++ leBytes 2 r.erased ++ List.replicate 18 0#8

/-- The status of READ_SECURITY (R467). -/
def KeyStore.status (k : KeyStore) : List Byte :=
  leBytes 4 (Config.itemsPresent [k.imageKey.isSome, k.signingKey.isSome, k.levels.isSome, !k.ideKeys.isEmpty,
    !k.escrow.isEmpty, !k.alarms.isEmpty]).toNat ++ leBytes 4 k.keyGen ++ leBytes 8 k.floor

/-- READ_SECURITY (R467): ALARM_N is released once every record has been returned and no sensor is tripped. -/
def State.readSecurity (s : State) (tag buf len : Nat) : State :=
  let k := s.hub.keys
  let bytes := k.status ++ k.alarms.flatMap AlarmRecord.bytes
  let s := if bytes.length ≤ len then
      s.onHub fun h => { h with alarmsRead := true, alarmN := h.alarmN || h.tripped == 0#8 }
    else s
  s.answer 0x34 tag buf len 0 bytes

/-- The counts of a stream (R258). -/
def StreamHold.counts (k : StreamHold) : List Nat := [k.sherds, k.blocks, k.payload, k.dropped, k.refreshes]

def State.readCounters (s : State) (tag buf len : Nat) : State :=
  s.answer 0x35 tag buf len 0
    (Config.countsLayout (s.chans.map fun c => (c.n, [c.shq.counts, c.clq.counts, c.svc.counts])))

/-- A command with an undefined opcode (R401): those that R400 lists are not. -/
def State.undefinedOpcode (s : State) (op ch tag : Nat) : State :=
  let listed := (1 ≤ op ∧ op ≤ 5) ∨ (0x10 ≤ op ∧ op ≤ 0x17) ∨ (0x20 ≤ op ∧ op ≤ 0x22) ∨ (0x30 ≤ op ∧ op ≤ 0x35)
  if listed then s else s.deviceCommand fun s => s.respond op 8 tag ch 0 0

/-! ### Health registers (R408) -/

/-- STATUS_PINS. -/
def Hub.statusPins (h : Hub) : Byte :=
  BitVec.ofNat 8 (h.standbyLost.toNat * 64 + (!h.alarmN).toNat * 32 + (!h.netlowN).toNat * 16 +
    (!h.lockupN).toNat * 8 + h.ready.toNat * 4 + h.pwrgd.toNat * 2)

/-- SMBALERT# is asserted (R407): READY and PWRGD report their loss. -/
def Hub.smbAlert (h : Hub) : Bool := ((h.statusPins ^^^ 0x06#8) &&& h.alertMask &&& 0x7E#8) != 0#8

/-- The reserves of a die as the health registers show them: 0 until the self-test has made the pools. -/
def State.reservesShown (s : State) (d : Nat) : Nat :=
  if s.populated d ∧ 2 ≤ s.hub.phase ∧ s.hub.phase ≤ 6 then (s.die d).reserves.length else 0

def State.countStates (s : State) (l : List ChanState) : Nat := s.chans.countP fun c => l.contains c.state

/-- The health register at a command code (R408). -/
def State.health (s : State) (c : Nat) : Byte :=
  let h := s.hub
  let part (v base : Nat) : Byte := BitVec.ofNat 8 (v / 256 ^ (c - base))
  if c ≤ 0x03 then part h.bootStatus.toNat 0
  else if c = 0x04 then BitVec.ofNat 8 h.part
  else if c = 0x05 then h.revision
  else if c ≤ 0x07 then part h.tjMax.toNat 0x06
  else if c = 0x08 then h.statusPins
  else if c = 0x09 then BitVec.ofNat 8 (s.dieNumbers.foldl (fun m d => min m (s.reservesShown d)) 255)
  else if c ≤ 0x10 then BitVec.ofNat 8 (s.reservesShown (c - 0x09))
  else if c ≤ 0x12 then part (s.countStates [.running, .catching, .testing]) 0x11
  else if c ≤ 0x14 then part (s.countStates [.safe]) 0x13
  else if c ≤ 0x16 then part (s.countStates [.halted]) 0x15
  else if c ≤ 0x1A then part h.catchCount 0x17
  else if c ≤ 0x1E then part h.uptime 0x1B
  else if c = 0x1F then h.alertMask
  else if c ≤ 0x21 then part h.power.toNat 0x20
  else Config.unlistedHealth h.readings c

/-- An SMBus read of `n` registers from a command code on, as one snapshot (R407); the interface answers from
power-good onwards. -/
def State.smbusRead (s : State) (cmd n : Nat) : State :=
  if ¬ s.hub.pwrgd then s
  else
    let s := s.sense
    s.send (.smbus ((List.range n).map fun i => s.health (cmd + i)))

/-- An SMBus Write Byte: ALERT_MASK is the one writable register (R408). -/
def State.smbusWrite (s : State) (cmd : Nat) (v : Byte) : State :=
  if s.hub.pwrgd ∧ cmd = 0x1F then s.onHub fun h => { h with alertMask := v &&& 0x7E#8 } else s

/-- The Alert Response Address (R407): the device answers with its 7-bit address while it asserts SMBALERT#. -/
def State.alertResponse (s : State) : State :=
  if s.hub.pwrgd ∧ s.hub.smbAlert then s.send (.smbus [0x2A#8]) else s

/-- SMBCLK has been low for more than 35 ms (R492): the device releases the bus. A transfer is one command here, so
none is in progress. -/
def State.smbusRelease (s : State) : State := s

end Sys2Proof.Machine
end

