-- ==== Sys2Proof/Machine/ExecHost.lean ====
section
/-! DEFINITION. The meanings of the commands of the queues, the carousel and register access from the host: one definition for each row. -/

namespace Sys2Proof.Machine

/-- QUEUE_ARM (R378). -/
def execQueueArm (q : QueueId) (ctl : Word) (s : State) : Host.Outcome State Fault Refusal :=
  .next (s.hostQueue q fun s => s.ctlWrite q (ctl ||| 0x80000000#32))

/-- QUEUE_DISARM (R378). -/
def execQueueDisarm (q : QueueId) (ctl : Word) (s : State) : Host.Outcome State Fault Refusal :=
  .next (s.hostQueue q fun s => s.ctlWrite q (ctl &&& 0x7FFFFFFF#32))

/-- INBOUND_DOORBELL (R380). -/
def execInboundDoorbell (q : QueueId) (prod : Word) (s : State) : Host.Outcome State Fault Refusal :=
  .next (s.hostQueue q fun s => if isInbound q then s.inDoorbell q prod.toNat else s)

/-- OUTBOUND_DOORBELL (R381). -/
def execOutboundDoorbell (q : QueueId) (cons : Word) (s : State) : Host.Outcome State Fault Refusal :=
  .next (s.hostQueue q fun s => if isInbound q then s else s.outDoorbell q cons.toNat)

/-- HOLDOFF_END (R382). -/
def execHoldoffEnd (q : QueueId) (s : State) : Host.Outcome State Fault Refusal :=
  .next (s.holdoffEnd q)

/-- CAROUSEL_VISIT (R403). -/
def execCarouselVisit (ch : Nat) (s : State) : Host.Outcome State Fault Refusal :=
  .next (s.visit ch)

/-- REFRESH (R397). -/
def execRefresh (ch : Nat) (arg : Byte) (s : State) : Host.Outcome State Fault Refusal :=
  .next (if s.hostReaches ∧ s.offers ch then s.vfRefresh ch arg else s)

/-- VF_STATE_READ (R395). -/
def execVfStateRead (ch : Nat) (s : State) : Host.Outcome State Fault Refusal :=
  .next (s.vfStateRead ch)

/-- REGISTER_WRITE (R6). -/
def execRegisterWrite (w : RegWrite) (s : State) : Host.Outcome State Fault Refusal :=
  .next (s.registerWrite w)

/-- READ_COMPLETION (R380). -/
def execReadCompletion (ch : Nat) (t : ReadTarget) (data : Option (List Byte)) (s : State) : Host.Outcome State
    Fault Refusal :=
  .next (s.readEnds ch t data)

/-- READ_DOES_NOT_COMPLETE (R380). -/
def execReadDoesNotComplete (ch : Nat) (t : ReadTarget) (s : State) : Host.Outcome State Fault Refusal :=
  .next (s.readEnds ch t none)

end Sys2Proof.Machine
end

