-- ==== Sys2Proof/Machine/ExecManage.lean ====
section
/-! DEFINITION. The meanings of the commands of management commands, the service panel and SMBus: one definition for each row. -/

namespace Sys2Proof.Machine

/-- CAST (R49). -/
def execCast (ch tag epoch mould : Nat) (s : State) : Host.Outcome State Fault Refusal :=
  .next (s.channelCommand 0x01 ch tag epoch fun s => s.castCommand ch tag mould)

/-- CAST_COMPLETE (R53). -/
def execCastComplete (ch : Nat) (s : State) : Host.Outcome State Fault Refusal :=
  .next (s.castComplete ch)

/-- STOP (R51). -/
def execStop (ch tag epoch : Nat) (s : State) : Host.Outcome State Fault Refusal :=
  .next (s.channelCommand 0x02 ch tag epoch fun s => s.stopCommand ch tag)

/-- DRAIN_END (R51). -/
def execDrainEnd (ch : Nat) (s : State) : Host.Outcome State Fault Refusal :=
  .next (s.drainEnd ch)

/-- CLONE (R245). -/
def execClone (ch tag epoch : Nat) (on : Bool) (s : State) : Host.Outcome State Fault Refusal :=
  .next (s.channelCommand 0x03 ch tag epoch fun s => s.cloneCommand ch tag on)

/-- STREAM_REFRESH (R242). -/
def execStreamRefresh (ch tag epoch : Nat) (streams : Byte) (s : State) : Host.Outcome State Fault Refusal :=
  .next (s.channelCommand 0x04 ch tag epoch fun s => s.streamRefresh ch tag streams)

/-- SVC_SELECT (R263). -/
def execSvcSelect (tag sel : Nat) (s : State) : Host.Outcome State Fault Refusal :=
  .next (s.deviceCommand fun s => s.svcSelect tag sel)

/-- SVC_WAKE_WAIT_END (R263). -/
def execSvcWakeWaitEnd (s : State) : Host.Outcome State Fault Refusal :=
  .next (s.wakeWaitEnd)

/-- SERVICE_PUSH (R261). -/
def execServicePush (s : State) : Host.Outcome State Fault Refusal :=
  .next (s.servicePush)

/-- TEARING_EFFECT_EDGE (R262). -/
def execTearingEffectEdge (s : State) : Host.Outcome State Fault Refusal :=
  .next (s.tearingEdge)

/-- DBG_ATTACH (R133). -/
def execDbgAttach (ch tag epoch : Nat) (s : State) : Host.Outcome State Fault Refusal :=
  .next (s.channelCommand 0x10 ch tag epoch fun s => s.attach ch tag)

/-- DBG_HALT (R132). -/
def execDbgHalt (ch tag epoch : Nat) (s : State) : Host.Outcome State Fault Refusal :=
  .next (s.channelCommand 0x11 ch tag epoch fun s =>
    s.debugCommand 0x11 ch tag Cell.mayHalt fun s => s.debugCell 0x11 ch tag Cell.requestHalt)

/-- DBG_STEP (R135). -/
def execDbgStep (ch tag epoch : Nat) (s : State) : Host.Outcome State Fault Refusal :=
  .next (s.channelCommand 0x12 ch tag epoch fun s =>
    s.debugCommand 0x12 ch tag (·.core.debugHalt) fun s => s.debugCell 0x12 ch tag Cell.debugStep)

/-- DBG_RESUME (R136). -/
def execDbgResume (ch tag epoch : Nat) (s : State) : Host.Outcome State Fault Refusal :=
  .next (s.channelCommand 0x13 ch tag epoch fun s =>
    s.debugCommand 0x13 ch tag (·.core.debugHalt) fun s => s.debugCell 0x13 ch tag Cell.resume)

/-- DBG_READ (R132). -/
def execDbgRead (ch tag epoch : Nat) (space : DebugSpace) (addr len buf : Nat) (s : State) : Host.Outcome State
    Fault Refusal :=
  .next (s.channelCommand 0x14 ch tag epoch fun s =>
    s.debugCommand 0x14 ch tag (fun _ => true) fun s => s.debugRead ch tag space addr len buf)

/-- DBG_WRITE (R132). -/
def execDbgWrite (ch tag epoch : Nat) (space : DebugSpace) (addr : Nat) (data : List Byte) (s : State) :
    Host.Outcome State Fault Refusal :=
  .next (s.channelCommand 0x15 ch tag epoch fun s =>
    s.debugCommand 0x15 ch tag Cell.mayWrite fun s => s.debugWrite ch tag space addr data)

/-- DBG_BREAK (R132). -/
def execDbgBreak (ch tag epoch : Nat) (addrs : List Half) (s : State) : Host.Outcome State Fault Refusal :=
  .next (s.channelCommand 0x16 ch tag epoch fun s =>
    s.debugCommand 0x16 ch tag (fun _ => true) fun s => s.setBreakpoints ch tag addrs)

/-- DBG_DETACH (R133). -/
def execDbgDetach (ch tag epoch : Nat) (s : State) : Host.Outcome State Fault Refusal :=
  .next (s.channelCommand 0x17 ch tag epoch fun s =>
    s.debugCommand 0x17 ch tag (fun _ => true) fun s => s.detach ch tag)

/-- IMAGE_BEGIN (R54). -/
def execImageBegin (tag : Nat) (s : State) : Host.Outcome State Fault Refusal :=
  .next (s.deviceCommand fun s => s.imageBegin tag)

/-- IMAGE_WRITE (R54). -/
def execImageWrite (tag off : Nat) (data : List Byte) (s : State) : Host.Outcome State Fault Refusal :=
  .next (s.deviceCommand fun s => s.imageWrite tag off data)

/-- IMAGE_COMMIT (R54). -/
def execImageCommit (tag : Nat) (r : SlotReading) (s : State) : Host.Outcome State Fault Refusal :=
  .next (s.deviceCommand fun s => s.imageCommit tag r)

/-- READ_CATCH_LOG (R436). -/
def execReadCatchLog (tag buf len : Nat) (s : State) : Host.Outcome State Fault Refusal :=
  .next (s.deviceCommand fun s => s.readCatchLog tag buf len)

/-- READ_LOCKUP (R130). -/
def execReadLockup (ch tag buf len : Nat) (s : State) : Host.Outcome State Fault Refusal :=
  .next (s.deviceCommand fun s => s.readLockup ch tag buf len)

/-- READ_HEALTH (R437). -/
def execReadHealth (tag buf len : Nat) (s : State) : Host.Outcome State Fault Refusal :=
  .next (s.deviceCommand fun s => s.readHealth tag buf len)

/-- READ_FORECAST (R438). -/
def execReadForecast (tag buf len : Nat) (s : State) : Host.Outcome State Fault Refusal :=
  .next (s.deviceCommand fun s => s.readForecast tag buf len)

/-- READ_SECURITY (R467). -/
def execReadSecurity (tag buf len : Nat) (s : State) : Host.Outcome State Fault Refusal :=
  .next (s.deviceCommand fun s => s.readSecurity tag buf len)

/-- READ_COUNTERS (R258). -/
def execReadCounters (tag buf len : Nat) (s : State) : Host.Outcome State Fault Refusal :=
  .next (s.deviceCommand fun s => s.readCounters tag buf len)

/-- UNDEFINED_OPCODE (R401). -/
def execUndefinedOpcode (op : Byte) (ch tag : Nat) (s : State) : Host.Outcome State Fault Refusal :=
  .next (s.undefinedOpcode op.toNat ch tag)

/-- READ_BYTE (R407). -/
def execReadByte (cmd : Nat) (s : State) : Host.Outcome State Fault Refusal :=
  .next (s.smbusRead cmd 1)

/-- READ_WORD (R407). -/
def execReadWord (cmd : Nat) (s : State) : Host.Outcome State Fault Refusal :=
  .next (s.smbusRead cmd 2)

/-- BLOCK_READ (R407). -/
def execBlockRead (cmd count : Nat) (s : State) : Host.Outcome State Fault Refusal :=
  .next (s.smbusRead cmd count)

/-- WRITE_BYTE (R407). -/
def execWriteByte (cmd : Nat) (v : Byte) (s : State) : Host.Outcome State Fault Refusal :=
  .next (s.smbusWrite cmd v)

/-- ALERT_RESPONSE_ADDRESS (R407). -/
def execAlertResponseAddress (s : State) : Host.Outcome State Fault Refusal :=
  .next (s.alertResponse)

/-- SMBUS_TIMEOUT (R492). -/
def execSmbusTimeout (s : State) : Host.Outcome State Fault Refusal :=
  .next (s.smbusRelease)

end Sys2Proof.Machine
end

