-- ==== Sys2Proof/Machine/ExecMovers.lean ====
section
/-! DEFINITION. The meanings of the commands of the blitter and the DMA streams: one definition for each row. -/

namespace Sys2Proof.Machine

/-- BLT_GO (R274). -/
def execBltGo (ch : Nat) (s : State) : Host.Outcome State Fault Refusal :=
  .next (s.cellEvent ch fun c => c.blitGo)

/-- BLT_COMMAND_FETCH (R274). -/
def execBltCommandFetch (ch : Nat) (s : State) : Host.Outcome State Fault Refusal :=
  .next (s.cellEvent ch fun c => c.blitFetch)

/-- BLT_NOP (R268). -/
def execBltNop (ch : Nat) (s : State) : Host.Outcome State Fault Refusal :=
  .next (s.cellEvent ch fun c => c.blitNop)

/-- COPY (R272). -/
def execCopy (ch : Nat) (units : Option Nat) (s : State) : Host.Outcome State Fault Refusal :=
  .next (s.cellEvent ch fun c => c.blitDraw 1 units)

/-- FILL (R268). -/
def execFill (ch : Nat) (units : Option Nat) (s : State) : Host.Outcome State Fault Refusal :=
  .next (s.cellEvent ch fun c => c.blitDraw 2 units)

/-- PATFILL (R268). -/
def execPatfill (ch : Nat) (units : Option Nat) (s : State) : Host.Outcome State Fault Refusal :=
  .next (s.cellEvent ch fun c => c.blitDraw 3 units)

/-- LINE (R271). -/
def execLine (ch : Nat) (units : Option Nat) (s : State) : Host.Outcome State Fault Refusal :=
  .next (s.cellEvent ch fun c => c.blitDraw 4 units)

/-- KEYCOPY (R268). -/
def execKeycopy (ch : Nat) (units : Option Nat) (s : State) : Host.Outcome State Fault Refusal :=
  .next (s.cellEvent ch fun c => c.blitDraw 5 units)

/-- EXPAND (R268). -/
def execExpand (ch : Nat) (units : Option Nat) (s : State) : Host.Outcome State Fault Refusal :=
  .next (s.cellEvent ch fun c => c.blitDraw 6 units)

/-- SETCLIP (R270). -/
def execSetclip (ch : Nat) (s : State) : Host.Outcome State Fault Refusal :=
  .next (s.cellEvent ch fun c => c.blitSetClip)

/-- BLT_JUMP (R268). -/
def execBltJump (ch : Nat) (s : State) : Host.Outcome State Fault Refusal :=
  .next (s.cellEvent ch fun c => c.blitJump)

/-- BLT_COMMAND_END (R274). -/
def execBltCommandEnd (ch : Nat) (s : State) : Host.Outcome State Fault Refusal :=
  .next (s.cellEvent ch fun c => c.blitEnd)

/-- BLT_ABORT (R274). -/
def execBltAbort (ch : Nat) (s : State) : Host.Outcome State Fault Refusal :=
  .next (s.cellEvent ch fun c => c.blitAbort)

/-- DESC_PTR_WRITE (R277). -/
def execDescPtrWrite (ch n : Nat) (v : BitVec 24) (s : State) : Host.Outcome State Fault Refusal :=
  .next (s.cellEvent ch fun c => c.descPtrWrite n (offsets v))

/-- DMA_DESCRIPTOR_FETCH (R279). -/
def execDmaDescriptorFetch (ch n : Nat) (s : State) : Host.Outcome State Fault Refusal :=
  .next (s.cellEvent ch fun c => c.dmaFetch n)

/-- DMA_REQUEST (R278). -/
def execDmaRequest (ch n : Nat) (s : State) : Host.Outcome State Fault Refusal :=
  .next (s.cellEvent ch fun c => c.dmaRequest n)

/-- DMA_UNIT_COMPLETE (R280). -/
def execDmaUnitComplete (ch n : Nat) (bad : Option Nat) (s : State) : Host.Outcome State Fault Refusal :=
  .next (s.cellEvent ch fun c => c.dmaUnitComplete n bad)

/-- DMA_DESCRIPTOR_COMPLETE (R281). -/
def execDmaDescriptorComplete (ch n : Nat) (s : State) : Host.Outcome State Fault Refusal :=
  .next (s.cellEvent ch fun c => c.dmaComplete n)

/-- CR_RD_WRITE (R281). -/
def execCrRdWrite (ch n : Nat) (v : Half) (s : State) : Host.Outcome State Fault Refusal :=
  .next (s.cellEvent ch fun c => if n < 4 then c.crRead n [(0, v.setWidth 8), (1, (v >>> 8).setWidth 8)] else c)

/-- CR_BASE_WRITE (R284). -/
def execCrBaseWrite (ch n : Nat) (toSize : Bool) (v : BitVec 24) (s : State) : Host.Outcome State Fault Refusal
    :=
  .next (s.cellEvent ch fun c =>
    if 4 ≤ n then c else if toSize then c.crSize n (v.setWidth 8) else c.crBase n (offsets v))

/-- DMA_STREAM_DROP (R283). -/
def execDmaStreamDrop (ch n : Nat) (s : State) : Host.Outcome State Fault Refusal :=
  .next (s.cellEvent ch fun c => if n < 4 ∧ c.io.bit (dAddr n 0) 7 then c.dmaDrop n else c)

/-- DMA_DROP_DRAIN_END (R283). -/
def execDmaDropDrainEnd (ch n : Nat) (s : State) : Host.Outcome State Fault Refusal :=
  .next (s.cellEvent ch fun c => c.dmaDrained n)

end Sys2Proof.Machine
end

