-- ==== Sys2Proof/Machine/ExecNet.lean ====
section
/-! DEFINITION. The meanings of the commands of the safety net and the kiln: one definition for each row. -/

namespace Sys2Proof.Machine

/-- LOCKSTEP_MISMATCH (R410). -/
def execLockstepMismatch (die cell block : Nat) (lost : Bool) (s : State) : Host.Outcome State Fault Refusal :=
  .next (s.faultIn die cell 1 block 0 lost)

/-- UNCORRECTABLE_ERROR (R409). -/
def execUncorrectableError (die cell memory addr : Nat) (lost : Bool) (s : State) : Host.Outcome State Fault
    Refusal :=
  .next (s.uncorrectable die cell memory addr lost)

/-- RESIDUE_MISMATCH (R409). -/
def execResidueMismatch (die cell : Nat) (lost : Bool) (s : State) : Host.Outcome State Fault Refusal :=
  .next (s.faultIn die cell 3 9 0 lost)

/-- CATCH_RESERVE_LOADED (R420). -/
def execCatchReserveLoaded (ch : Nat) (s : State) : Host.Outcome State Fault Refusal :=
  .next (s.reserveLoaded ch)

/-- FAULT_POINT_REACHED (R420). -/
def execFaultPointReached (ch : Nat) (s : State) : Host.Outcome State Fault Refusal :=
  .next (s.faultPoint ch)

/-- GOING_LIVE (R424). -/
def execGoingLive (ch elapsed : Nat) (levels : BitVec 16) (s : State) : Host.Outcome State Fault Refusal :=
  .next (s.goesLive ch elapsed levels)

/-- RINGMASTER_FAILOVER (R426). -/
def execRingmasterFailover (s : State) : Host.Outcome State Fault Refusal :=
  .next (if s.hub.pastSecurity then s.failover else s)

/-- AGING_MARGIN_LOW (R437). -/
def execAgingMarginLow (die cell margin trend : Nat) (s : State) : Host.Outcome State Fault Refusal :=
  .next (s.marginLow die cell margin trend)

/-- PLANNED_CATCH_PAUSE (R428). -/
def execPlannedCatchPause (sight : PauseSight) (s : State) : Host.Outcome State Fault Refusal :=
  .next (s.plannedCatch sight.ch sight.rising sight.falling sight.levels)

/-- CHECKPOINT_SNAPSHOT (R412). -/
def execCheckpointSnapshot (ch : Nat) (s : State) : Host.Outcome State Fault Refusal :=
  .next (s.regularSnapshot ch)

/-- FORCED_CHECKPOINT (R417). -/
def execForcedCheckpoint (ch : Nat) (s : State) : Host.Outcome State Fault Refusal :=
  .next (s.forcedCheckpoint ch)

/-- CHECKPOINT_COPY_COMPLETE (R413). -/
def execCheckpointCopyComplete (ch : Nat) (bad : Bool) (s : State) : Host.Outcome State Fault Refusal :=
  .next (s.copied ch bad)

/-- SLOT_SCRUB (R418). -/
def execSlotScrub (ch : Nat) (bad : Bool) (s : State) : Host.Outcome State Fault Refusal :=
  .next (s.scrub ch bad)

/-- KILN_DAILY_TEST (R445). -/
def execKilnDailyTest (u : KilnUnit) (s : State) : Host.Outcome State Fault Refusal :=
  .next (s.dailyTest u)

/-- BLOCK_SCOPE_TEST (R446). -/
def execBlockScopeTest (u : KilnUnit) (s : State) : Host.Outcome State Fault Refusal :=
  .next (s.blockTest u)

/-- KILN_TEST_COMPLETE (R446). -/
def execKilnTestComplete (u : KilnUnit) (r : TestResult) (s : State) : Host.Outcome State Fault Refusal :=
  .next (s.sense.testComplete u r)

/-- CELL_SCOPE_TEST (R449). -/
def execCellScopeTest (ch : Nat) (s : State) : Host.Outcome State Fault Refusal :=
  .next (s.cellTest ch)

/-- CELL_SCOPE_TEST_END (R449). -/
def execCellScopeTestEnd (ch : Nat) (r : TestResult) (levels : BitVec 16) (s : State) : Host.Outcome State Fault
    Refusal :=
  .next (s.sense.cellTestEnd ch r levels)

/-- REPAIR_RECORD_WRITE (R443). -/
def execRepairRecordWrite (ok : Bool) (s : State) : Host.Outcome State Fault Refusal :=
  .next (s.writeRecord ok)

/-- PIN_PAUSE_LATCH (R345). -/
def execPinPauseLatch (ch cp : Nat) (rising : Bool) (s : State) : Host.Outcome State Fault Refusal :=
  .next (s.pauseLatch ch cp rising)

end Sys2Proof.Machine
end

