-- ==== Sys2Proof/Machine/ExecPins.lean ====
section
/-! DEFINITION. The meanings of the commands of PIO engines, pins and lines: one definition for each row. -/

namespace Sys2Proof.Machine

/-- PIO_JMP (R319). -/
def execPioJmp (ch n : Nat) (s : State) : Host.Outcome State Fault Refusal :=
  .next (s.cellEvent ch fun c => c.pioCycle n 0 fun c e u w _ => pioJmp c e u w)

/-- PIO_WAIT (R319). -/
def execPioWait (ch : Nat) (cycle : FlagCycle) (s : State) : Host.Outcome State Fault Refusal :=
  .next (s.cellEvent ch fun c => c.pioCycle cycle.n 1 fun c e _ w _ => pioWait (c.flagClock cycle.same) e w)

/-- PIO_IN (R320). -/
def execPioIn (ch n : Nat) (s : State) : Host.Outcome State Fault Refusal :=
  .next (s.cellEvent ch fun c => c.pioCycle n 2 fun c e u w _ => pioIn c e u w)

/-- PIO_OUT (R320). -/
def execPioOut (ch n : Nat) (s : State) : Host.Outcome State Fault Refusal :=
  .next (s.cellEvent ch fun c => c.pioCycle n 3 fun c e u w _ => pioOut c e u w)

/-- PIO_PUSH (R319). -/
def execPioPush (ch n : Nat) (s : State) : Host.Outcome State Fault Refusal :=
  .next (s.cellEvent ch fun c => c.pioCycle n 4 fun c e u w _ => pioPush c e u n w)

/-- PIO_PULL (R319). -/
def execPioPull (ch n : Nat) (s : State) : Host.Outcome State Fault Refusal :=
  .next (s.cellEvent ch fun c => c.pioCycle n 5 fun c e u w _ => pioPull c e u n w)

/-- PIO_MOV (R319). -/
def execPioMov (ch n : Nat) (s : State) : Host.Outcome State Fault Refusal :=
  .next (s.cellEvent ch fun c => c.pioCycle n 6 fun c e u w _ => pioMov c e u w)

/-- PIO_SET (R319). -/
def execPioSet (ch n : Nat) (s : State) : Host.Outcome State Fault Refusal :=
  .next (s.cellEvent ch fun c => c.pioCycle n 7 fun c e u w _ => pioSet c e u w)

/-- PIO_IRQ (R319). -/
def execPioIrq (ch : Nat) (cycle : FlagCycle) (s : State) : Host.Outcome State Fault Refusal :=
  .next (s.cellEvent ch fun c => c.pioCycle cycle.n 8 fun c e _ w first => pioIrq (c.flagClock cycle.same) e w first)

/-- PIO_EXCH (R319). -/
def execPioExch (ch n : Nat) (s : State) : Host.Outcome State Fault Refusal :=
  .next (s.cellEvent ch fun c => c.pioCycle n 9 fun c e _ w _ => pioExch c e w)

/-- PROGRAM_STORE_WRITE (R317). -/
def execProgramStoreWrite (ch word : Nat) (v : Byte) (s : State) : Host.Outcome State Fault Refusal :=
  .next (s.cellEvent ch fun c => if word < 40 then c.ioStore (0xE481 + 2 * word) v else c)

/-- PIO_CTL_WRITE (R326). -/
def execPioCtlWrite (ch : Nat) (v : Byte) (s : State) : Host.Outcome State Fault Refusal :=
  .next (s.cellEvent ch fun c => c.ioStore 0xE400 v)

/-- CLKSYNC (R314). -/
def execClksync (ch : Nat) (v : Byte) (s : State) : Host.Outcome State Fault Refusal :=
  .next (s.cellEvent ch fun c => c.ioStore 0xE401 v)

/-- PIO_IRQ_FORCE (R324). -/
def execPioIrqForce (ch : Nat) (v : Byte) (s : State) : Host.Outcome State Fault Refusal :=
  .next (s.cellEvent ch fun c => c.ioStore 0xE404 v)

/-- TXF (R323). -/
def execTxf (ch n : Nat) (v : Byte) (s : State) : Host.Outcome State Fault Refusal :=
  .next (s.cellEvent ch fun c => if n < 4 then c.ioStore (0xE423 + 0x18 * n) v else c)

/-- RXF (R323). -/
def execRxf (ch n : Nat) (s : State) : Host.Outcome State Fault Refusal :=
  .next (s.cellEvent ch fun c => if n < 4 then (c.ioLoad (0xE424 + 0x18 * n)).2 else c)

/-- PIN_LEVEL_CHANGE (R338). -/
def execPinLevelChange (ch cp : Nat) (samples : BitVec 16) (tick window : Nat) (s : State) : Host.Outcome State
    Fault Refusal :=
  .next (s.cellEvent ch fun c => c.pinLevelChange cp samples tick window)

/-- PIN_LEVEL_IRQ (R341). -/
def execPinLevelIrq (ch cp : Nat) (s : State) : Host.Outcome State Fault Refusal :=
  .next (s.cellEvent ch fun c => c.pinLevelIrq cp)

/-- PATTERN_MATCH (R343). -/
def execPatternMatch (ch tick : Nat) (first : Bool) (s : State) : Host.Outcome State Fault Refusal :=
  .next (s.cellEvent ch fun c => c.patternMatch tick first)

/-- GPIO_SET (R337). -/
def execGpioSet (ch : Nat) (hi : Bool) (v : Byte) (s : State) : Host.Outcome State Fault Refusal :=
  .next (s.cellEvent ch fun c => c.ioStore (if hi then 0xE303 else 0xE302) v)

/-- GPIO_CLR (R337). -/
def execGpioClr (ch : Nat) (hi : Bool) (v : Byte) (s : State) : Host.Outcome State Fault Refusal :=
  .next (s.cellEvent ch fun c => c.ioStore (if hi then 0xE305 else 0xE304) v)

/-- GPIO_TGL (R337). -/
def execGpioTgl (ch : Nat) (hi : Bool) (v : Byte) (s : State) : Host.Outcome State Fault Refusal :=
  .next (s.cellEvent ch fun c => c.ioStore (if hi then 0xE307 else 0xE306) v)

/-- FUNCTION_CHANGE (R336). -/
def execFunctionChange (ch n : Nat) (v : Byte) (s : State) : Host.Outcome State Fault Refusal :=
  .next (s.cellEvent ch fun c => if n < 16 then c.ioStore (0xE340 + 2 * n) v else c)

/-- PINLOCK (R346). -/
def execPinlock (ch : Nat) (v : Byte) (s : State) : Host.Outcome State Fault Refusal :=
  .next (s.cellEvent ch fun c => c.ioStore 0xE324 v)

/-- EVF_DATA_READ (R389). -/
def execEvfDataRead (ch : Nat) (s : State) : Host.Outcome State Fault Refusal :=
  .next (s.cellEvent ch fun c => (c.ioLoad 0xEC00).2)

/-- LINE_DATA_READ (R390). -/
def execLineDataRead (ch l : Nat) (s : State) : Host.Outcome State Fault Refusal :=
  .next (s.cellEvent ch fun c => if l < 4 then (c.ioLoad (0xEC20 + 0x10 * l)).2 else c)

/-- LINE_DATA_WRITE (R390). -/
def execLineDataWrite (ch l : Nat) (v : Byte) (s : State) : Host.Outcome State Fault Refusal :=
  .next (s.cellEvent ch fun c => if l < 4 then c.ioStore (0xEC20 + 0x10 * l) v else c)

end Sys2Proof.Machine
end

