-- ==== Sys2Proof/Machine/ExecPower.lean ====
section
/-! DEFINITION. The meanings of the commands of resets, start-up, the link and the tamper sensors: one definition for each row. -/

namespace Sys2Proof.Machine

/-- POWER_ON_RESET (R480). -/
def execPowerOnReset (fault : BootFault) (s : State) : Host.Outcome State Fault Refusal :=
  .next (s.powerOn fault)

/-- RESET_N (R480). -/
def execResetN (fault : BootFault) (s : State) : Host.Outcome State Fault Refusal :=
  .next (s.resetN fault)

/-- PWRGD_FALLING (R471). -/
def execPwrgdFalling (s : State) : Host.Outcome State Fault Refusal :=
  .next (s.powerDown)

/-- VBAT_AND_MAIN_POWER_REMOVED (R480). -/
def execVbatAndMainPowerRemoved (s : State) : Host.Outcome State Fault Refusal :=
  .next (s.allPowerRemoved)

/-- PERST_ASSERTED (R481). -/
def execPerstAsserted (s : State) : Host.Outcome State Fault Refusal :=
  .next (s.perstLow)

/-- PERST_RELEASED (R34). -/
def execPerstReleased (s : State) : Host.Outcome State Fault Refusal :=
  .next (s.perstHigh)

/-- SECURITY_PHASE (R31). -/
def execSecurityPhase (fault : BootFault) (s : State) : Host.Outcome State Fault Refusal :=
  .next (s.securityPhase fault)

/-- SELF_TEST_PHASE (R444). -/
def execSelfTestPhase (hubFail : Option TestOutcome) (cells : List (Nat × Nat × TestResult)) (s : State) :
    Host.Outcome State Fault Refusal :=
  .next (s.selfTest hubFail cells)

/-- IMAGE_READ_PHASE (R42). -/
def execImageReadPhase (octal : Bool) (a b : SlotReading) (s : State) : Host.Outcome State Fault Refusal :=
  .next (s.imageRead octal a b)

/-- IMAGE_LOAD_PHASE (R46). -/
def execImageLoadPhase (s : State) : Host.Outcome State Fault Refusal :=
  .next (s.imageLoad)

/-- CASTING_PHASE (R31). -/
def execCastingPhase (banks : List (List Nat)) (s : State) : Host.Outcome State Fault Refusal :=
  .next (s.castingPhase banks)

/-- READY (R31). -/
def execReady (s : State) : Host.Outcome State Fault Refusal :=
  .next (s.readyRises)

/-- CONFIGURATION_REQUEST (R34). -/
def execConfigurationRequest (s : State) (ask : ConfigAsk := {}) : Host.Outcome State Fault Refusal :=
  .next (s.configRequest ask.fn ask.reg)

/-- UNSUPPORTED_REQUEST (R371). -/
def execUnsupportedRequest (s : State) : Host.Outcome State Fault Refusal :=
  .next (s.unsupported)

/-- D3HOT (R372). -/
def execD3hot (s : State) : Host.Outcome State Fault Refusal :=
  .next (s.powerState true)

/-- FUNCTION_LEVEL_RESET (R394). -/
def execFunctionLevelReset (ch : Nat) (s : State) : Host.Outcome State Fault Refusal :=
  .next (s.vfReset ch)

/-- PF0_FUNCTION_LEVEL_RESET (R394). -/
def execPf0FunctionLevelReset (s : State) : Host.Outcome State Fault Refusal :=
  .next (s.pf0Reset)

/-- TAMPER_ALARM (R466). -/
def execTamperAlarm (sensor mask : Nat) (s : State) : Host.Outcome State Fault Refusal :=
  .next (s.tamperAlarm sensor mask)

/-- SENSOR_CLEAR (R465). -/
def execSensorClear (sensor : Nat) (s : State) : Host.Outcome State Fault Refusal :=
  .next (s.sensorClear sensor)

/-- LANE_FAILURE (R370). -/
def execLaneFailure (lanes : BitVec 16) (s : State) : Host.Outcome State Fault Refusal :=
  .next (s.laneFailure lanes)

end Sys2Proof.Machine
end

