-- ==== Sys2Proof/Machine/ExecSecure.lean ====
section
/-! DEFINITION. The meanings of the commands of the DOE mailbox, IDE and provisioning: one definition for each row. -/

namespace Sys2Proof.Machine

/-- DOE_DISCOVERY (R376). -/
def execDoeDiscovery (s : State) : Host.Outcome State Fault Refusal :=
  .next (s.doe (fun _ => true) fun s => s.doeAnswer 0 doeProtocols)

/-- GET_VERSION (R376). -/
def execGetVersion (s : State) : Host.Outcome State Fault Refusal :=
  .next (s.spdmVersion)

/-- GET_CAPABILITIES (R376). -/
def execGetCapabilities (s : State) : Host.Outcome State Fault Refusal :=
  .next (s.spdmCapabilities)

/-- NEGOTIATE_ALGORITHMS (R376). -/
def execNegotiateAlgorithms (s : State) : Host.Outcome State Fault Refusal :=
  .next (s.spdmAlgorithms)

/-- GET_DIGESTS (R376). -/
def execGetDigests (s : State) : Host.Outcome State Fault Refusal :=
  .next (s.spdmDigests)

/-- GET_CERTIFICATE (R376). -/
def execGetCertificate (off len : Nat) (s : State) : Host.Outcome State Fault Refusal :=
  .next (s.spdmCertificate off len)

/-- CHALLENGE (R376). -/
def execChallenge (nonce : List Byte) (s : State) : Host.Outcome State Fault Refusal :=
  .next (s.spdmChallenge nonce)

/-- GET_MEASUREMENTS (R464). -/
def execGetMeasurements (index : Nat) (s : State) : Host.Outcome State Fault Refusal :=
  .next (s.spdmMeasurements index)

/-- KEY_EXCHANGE (R376). -/
def execKeyExchange (session : Nat) (s : State) : Host.Outcome State Fault Refusal :=
  .next (s.spdmExchange session)

/-- FINISH (R376). -/
def execFinish (session : Nat) (mutualAuth : Bool) (s : State) : Host.Outcome State Fault Refusal :=
  .next (s.spdmFinish session mutualAuth)

/-- HEARTBEAT (R376). -/
def execHeartbeat (session : Nat) (s : State) : Host.Outcome State Fault Refusal :=
  .next (s.spdmHeartbeat session)

/-- KEY_UPDATE (R376). -/
def execKeyUpdate (session : Nat) (s : State) : Host.Outcome State Fault Refusal :=
  .next (s.spdmKeyUpdate session)

/-- END_SESSION (R376). -/
def execEndSession (session : Nat) (s : State) : Host.Outcome State Fault Refusal :=
  .next (s.spdmEnd session)

/-- IDE_KM (R375). -/
def execIdeKm (session stream keySet : Nat) (key : List Byte) (s : State) : Host.Outcome State Fault Refusal :=
  .next (s.ideProgram session stream keySet key)

/-- K_SET_GO (R375). -/
def execKSetGo (session stream keySet : Nat) (s : State) : Host.Outcome State Fault Refusal :=
  .next (s.ideSwitch session stream keySet)

/-- KEY_PROVISION (R468). -/
def execKeyProvision (session : Nat) (key : List Byte) (keyGen : Nat) (signing : List Byte) (floor : Nat) (s :
    State) : Host.Outcome State Fault Refusal :=
  .next (s.provision session key keyGen signing floor)

end Sys2Proof.Machine
end

