-- ==== Sys2Proof/Machine/ExecTimers.lean ====
section
/-! DEFINITION. The meanings of the commands of timers, the interrupt controller and the nap: one definition for each row. -/

namespace Sys2Proof.Machine

/-- NAP_REQUEST (R365). -/
def execNapRequest (ch : Nat) (v : Byte) (s : State) : Host.Outcome State Fault Refusal :=
  .next (s.cellEvent ch fun c => c.ioStore 0xE1E0 v)

/-- NAP_ENTRY (R365). -/
def execNapEntry (ch : Nat) (s : State) : Host.Outcome State Fault Refusal :=
  .next (s.cellEvent ch fun c => c.napEntry)

/-- PIN_WAKE_LATCH (R344). -/
def execPinWakeLatch (ch cp : Nat) (rising : Bool) (s : State) : Host.Outcome State Fault Refusal :=
  .next (s.cellEvent ch fun c => c.pinWake cp rising)

/-- HOST_ARRIVAL_LATCH (R366). -/
def execHostArrivalLatch (ch : Nat) (line : Bool) (s : State) : Host.Outcome State Fault Refusal :=
  .next (s.cellEvent ch fun c => c.hostArrival line)

/-- WAKE (R368). -/
def execWake (ch : Nat) (how : NapWake) (s : State) : Host.Outcome State Fault Refusal :=
  .next (s.cellEvent ch fun c => c.wake how.ticks how.levels)

/-- TIMER_COUNTING_TICK (R352). -/
def execTimerCountingTick (ch n : Nat) (s : State) : Host.Outcome State Fault Refusal :=
  .next (s.cellEvent ch fun c => c.timerTick n)

/-- TIMER_WRAP (R350). -/
def execTimerWrap (ch n : Nat) (s : State) : Host.Outcome State Fault Refusal :=
  .next (s.cellEvent ch fun c => c.timerWrap n)

/-- TIMER_MATCH (R354). -/
def execTimerMatch (ch n : Nat) (unitB : Bool) (s : State) : Host.Outcome State Fault Refusal :=
  .next (s.cellEvent ch fun c => c.timerMatch n unitB)

/-- TIMER_CAPTURE (R355). -/
def execTimerCapture (ch n : Nat) (unitB duringRead : Bool) (s : State) : Host.Outcome State Fault Refusal :=
  .next (s.cellEvent ch fun c => c.timerCapture n unitB duringRead)

/-- CAPTURE_PENDING_WRITE (R355). -/
def execCapturePendingWrite (ch n : Nat) (s : State) : Host.Outcome State Fault Refusal :=
  .next (s.cellEvent ch fun c => c.timerPending n)

/-- TIMER_RESYNC (R353). -/
def execTimerResync (ch n : Nat) (s : State) : Host.Outcome State Fault Refusal :=
  .next (s.cellEvent ch fun c => c.timerResync n)

/-- EOI (R362). -/
def execEoi (ch : Nat) (v : Byte) (s : State) : Host.Outcome State Fault Refusal :=
  .next (s.cellEvent ch fun c => c.ioStore 0xE112 v)

/-- SOFT (R359). -/
def execSoft (ch : Nat) (v : Byte) (s : State) : Host.Outcome State Fault Refusal :=
  .next (s.cellEvent ch fun c => c.ioStore 0xE116 v)

/-- MODERATION_HOLD_END (R363). -/
def execModerationHoldEnd (ch src : Nat) (byTick : Bool) (s : State) : Host.Outcome State Fault Refusal :=
  .next (s.cellEvent ch fun c => c.holdEnd src byTick)

end Sys2Proof.Machine
end

