-- ==== Sys2Proof/Machine/ExecVoleth.lean ====
section
/-! DEFINITION. The meanings of the commands of Voleth instructions: one definition for each row. -/

namespace Sys2Proof.Machine

/-- NOP (R109). -/
def execNop (ch : Nat) (s : State) : Host.Outcome State Fault Refusal :=
  .next (s.cellEvent ch fun c => c.runInstr .nop none)

/-- RET (R60). -/
def execRet (ch : Nat) (s : State) : Host.Outcome State Fault Refusal :=
  .next (s.cellEvent ch fun c => c.runInstr .ret none)

/-- RTE (R121). -/
def execRte (ch : Nat) (s : State) : Host.Outcome State Fault Refusal :=
  .next (s.cellEvent ch fun c => c.runInstr .rte none)

/-- SETM (R109). -/
def execSetm (ch : Nat) (s : State) : Host.Outcome State Fault Refusal :=
  .next (s.cellEvent ch fun c => c.runInstr .setm none)

/-- CLRM (R109). -/
def execClrm (ch : Nat) (s : State) : Host.Outcome State Fault Refusal :=
  .next (s.cellEvent ch fun c => c.runInstr .clrm none)

/-- USR (R109). -/
def execUsr (ch : Nat) (s : State) : Host.Outcome State Fault Refusal :=
  .next (s.cellEvent ch fun c => c.runInstr .usr none)

/-- WAIT (R109). -/
def execWait (ch : Nat) (s : State) : Host.Outcome State Fault Refusal :=
  .next (s.cellEvent ch fun c => c.runInstr .wait none)

/-- TRAP (R109). -/
def execTrap (ch : Nat) (n : Byte) (s : State) : Host.Outcome State Fault Refusal :=
  .next (s.cellEvent ch fun c => c.runInstr (.trap n) none)

/-- SPILLW (R63). -/
def execSpillw (ch : Nat) (b1 : Byte) (s : State) : Host.Outcome State Fault Refusal :=
  .next (s.cellEvent ch fun c => c.runInstr (.spillw b1) none)

/-- FILLW (R63). -/
def execFillw (ch : Nat) (b1 : Byte) (s : State) : Host.Outcome State Fault Refusal :=
  .next (s.cellEvent ch fun c => c.runInstr (.fillw b1) none)

/-- MVB (R106). -/
def execMvb (ch : Nat) (b1 : Byte) (stop : Option Nat) (s : State) : Host.Outcome State Fault Refusal :=
  .next (s.cellEvent ch fun c => c.runInstr (.mvb b1) stop)

/-- CMB (R107). -/
def execCmb (ch : Nat) (b1 : Byte) (stop : Option Nat) (s : State) : Host.Outcome State Fault Refusal :=
  .next (s.cellEvent ch fun c => c.runInstr (.cmb b1) stop)

/-- FLB (R106). -/
def execFlb (ch : Nat) (b1 : Byte) (stop : Option Nat) (s : State) : Host.Outcome State Fault Refusal :=
  .next (s.cellEvent ch fun c => c.runInstr (.flb b1) stop)

/-- MOV (R90). -/
def execMov (ch : Nat) (b1 : Byte) (src : ByteSrc) (s : State) : Host.Outcome State Fault Refusal :=
  .next (s.cellEvent ch fun c => c.runInstr (.mov b1 src) none)

/-- MOVW (R90). -/
def execMovw (ch : Nat) (b1 : Byte) (src : PairSrc) (s : State) : Host.Outcome State Fault Refusal :=
  .next (s.cellEvent ch fun c => c.runInstr (.movw b1 src) none)

/-- LD (R81). -/
def execLd (ch : Nat) (rd : BitVec 5) (m : MemOp) (s : State) : Host.Outcome State Fault Refusal :=
  .next (s.cellEvent ch fun c => c.runInstr (.ld rd m) none)

/-- ST (R81). -/
def execSt (ch : Nat) (m : MemOp) (rs : BitVec 5) (s : State) : Host.Outcome State Fault Refusal :=
  .next (s.cellEvent ch fun c => c.runInstr (.st m rs) none)

/-- LDW (R502). -/
def execLdw (ch : Nat) (pd : BitVec 5) (m : MemOp) (s : State) : Host.Outcome State Fault Refusal :=
  .next (s.cellEvent ch fun c => c.runInstr (.ldw pd m) none)

/-- STW (R502). -/
def execStw (ch : Nat) (m : MemOp) (ps : BitVec 5) (s : State) : Host.Outcome State Fault Refusal :=
  .next (s.cellEvent ch fun c => c.runInstr (.stw m ps) none)

/-- LEA (R504). -/
def execLea (ch : Nat) (pd : BitVec 5) (m : MemOp) (s : State) : Host.Outcome State Fault Refusal :=
  .next (s.cellEvent ch fun c => c.runInstr (.lea pd m) none)

/-- PUSH (R69). -/
def execPush (ch : Nat) (b1 : Byte) (s : State) : Host.Outcome State Fault Refusal :=
  .next (s.cellEvent ch fun c => c.runInstr (.push b1) none)

/-- POP (R69). -/
def execPop (ch : Nat) (b1 : Byte) (s : State) : Host.Outcome State Fault Refusal :=
  .next (s.cellEvent ch fun c => c.runInstr (.pop b1) none)

/-- PUSHW (R69). -/
def execPushw (ch : Nat) (b1 : Byte) (s : State) : Host.Outcome State Fault Refusal :=
  .next (s.cellEvent ch fun c => c.runInstr (.pushw b1) none)

/-- POPW (R69). -/
def execPopw (ch : Nat) (b1 : Byte) (s : State) : Host.Outcome State Fault Refusal :=
  .next (s.cellEvent ch fun c => c.runInstr (.popw b1) none)

/-- MFS (R110). -/
def execMfs (ch : Nat) (b1 sr : Byte) (s : State) : Host.Outcome State Fault Refusal :=
  .next (s.cellEvent ch fun c => c.runInstr (.mfs b1 sr) none)

/-- MTS (R110). -/
def execMts (ch : Nat) (sr b1 : Byte) (s : State) : Host.Outcome State Fault Refusal :=
  .next (s.cellEvent ch fun c => c.runInstr (.mts sr b1) none)

/-- XCH (R92). -/
def execXch (ch : Nat) (b1 b2 : Byte) (s : State) : Host.Outcome State Fault Refusal :=
  .next (s.cellEvent ch fun c => c.runInstr (.xch b1 b2) none)

/-- ADD (R91). -/
def execAdd (ch : Nat) (rd : BitVec 5) (src : ByteSrc) (s : State) : Host.Outcome State Fault Refusal :=
  .next (s.cellEvent ch fun c => c.runInstr (.alu .add rd src) none)

/-- ADC (R91). -/
def execAdc (ch : Nat) (rd : BitVec 5) (src : ByteSrc) (s : State) : Host.Outcome State Fault Refusal :=
  .next (s.cellEvent ch fun c => c.runInstr (.alu .adc rd src) none)

/-- SUB (R91). -/
def execSub (ch : Nat) (rd : BitVec 5) (src : ByteSrc) (s : State) : Host.Outcome State Fault Refusal :=
  .next (s.cellEvent ch fun c => c.runInstr (.alu .sub rd src) none)

/-- SBC (R91). -/
def execSbc (ch : Nat) (rd : BitVec 5) (src : ByteSrc) (s : State) : Host.Outcome State Fault Refusal :=
  .next (s.cellEvent ch fun c => c.runInstr (.alu .sbc rd src) none)

/-- AND (R91). -/
def execAnd (ch : Nat) (rd : BitVec 5) (src : ByteSrc) (s : State) : Host.Outcome State Fault Refusal :=
  .next (s.cellEvent ch fun c => c.runInstr (.alu .and rd src) none)

/-- OR (R91). -/
def execOr (ch : Nat) (rd : BitVec 5) (src : ByteSrc) (s : State) : Host.Outcome State Fault Refusal :=
  .next (s.cellEvent ch fun c => c.runInstr (.alu .or rd src) none)

/-- XOR (R91). -/
def execXor (ch : Nat) (rd : BitVec 5) (src : ByteSrc) (s : State) : Host.Outcome State Fault Refusal :=
  .next (s.cellEvent ch fun c => c.runInstr (.alu .xor rd src) none)

/-- CMP (R91). -/
def execCmp (ch : Nat) (rd : BitVec 5) (src : ByteSrc) (s : State) : Host.Outcome State Fault Refusal :=
  .next (s.cellEvent ch fun c => c.runInstr (.alu .cmp rd src) none)

/-- ADDW (R91). -/
def execAddw (ch : Nat) (pd : BitVec 5) (src : PairSrc) (s : State) : Host.Outcome State Fault Refusal :=
  .next (s.cellEvent ch fun c => c.runInstr (.aluw .add pd src) none)

/-- ADCW (R91). -/
def execAdcw (ch : Nat) (pd : BitVec 5) (src : PairSrc) (s : State) : Host.Outcome State Fault Refusal :=
  .next (s.cellEvent ch fun c => c.runInstr (.aluw .adc pd src) none)

/-- SUBW (R91). -/
def execSubw (ch : Nat) (pd : BitVec 5) (src : PairSrc) (s : State) : Host.Outcome State Fault Refusal :=
  .next (s.cellEvent ch fun c => c.runInstr (.aluw .sub pd src) none)

/-- SBCW (R91). -/
def execSbcw (ch : Nat) (pd : BitVec 5) (src : PairSrc) (s : State) : Host.Outcome State Fault Refusal :=
  .next (s.cellEvent ch fun c => c.runInstr (.aluw .sbc pd src) none)

/-- ANDW (R91). -/
def execAndw (ch : Nat) (pd : BitVec 5) (src : PairSrc) (s : State) : Host.Outcome State Fault Refusal :=
  .next (s.cellEvent ch fun c => c.runInstr (.aluw .and pd src) none)

/-- ORW (R91). -/
def execOrw (ch : Nat) (pd : BitVec 5) (src : PairSrc) (s : State) : Host.Outcome State Fault Refusal :=
  .next (s.cellEvent ch fun c => c.runInstr (.aluw .or pd src) none)

/-- XORW (R91). -/
def execXorw (ch : Nat) (pd : BitVec 5) (src : PairSrc) (s : State) : Host.Outcome State Fault Refusal :=
  .next (s.cellEvent ch fun c => c.runInstr (.aluw .xor pd src) none)

/-- CMPW (R91). -/
def execCmpw (ch : Nat) (pd : BitVec 5) (src : PairSrc) (s : State) : Host.Outcome State Fault Refusal :=
  .next (s.cellEvent ch fun c => c.runInstr (.aluw .cmp pd src) none)

/-- INC (R91). -/
def execInc (ch : Nat) (rd : BitVec 5) (s : State) : Host.Outcome State Fault Refusal :=
  .next (s.cellEvent ch fun c => c.runInstr (.un .inc rd) none)

/-- DEC (R91). -/
def execDec (ch : Nat) (rd : BitVec 5) (s : State) : Host.Outcome State Fault Refusal :=
  .next (s.cellEvent ch fun c => c.runInstr (.un .dec rd) none)

/-- NEG (R94). -/
def execNeg (ch : Nat) (rd : BitVec 5) (s : State) : Host.Outcome State Fault Refusal :=
  .next (s.cellEvent ch fun c => c.runInstr (.un .neg rd) none)

/-- NOT (R91). -/
def execNot (ch : Nat) (rd : BitVec 5) (s : State) : Host.Outcome State Fault Refusal :=
  .next (s.cellEvent ch fun c => c.runInstr (.un .not rd) none)

/-- CLR (R91). -/
def execClr (ch : Nat) (rd : BitVec 5) (s : State) : Host.Outcome State Fault Refusal :=
  .next (s.cellEvent ch fun c => c.runInstr (.un .clr rd) none)

/-- TST (R91). -/
def execTst (ch : Nat) (rd : BitVec 5) (s : State) : Host.Outcome State Fault Refusal :=
  .next (s.cellEvent ch fun c => c.runInstr (.un .tst rd) none)

/-- SWAPN (R91). -/
def execSwapn (ch : Nat) (rd : BitVec 5) (s : State) : Host.Outcome State Fault Refusal :=
  .next (s.cellEvent ch fun c => c.runInstr (.un .swapn rd) none)

/-- INCW (R91). -/
def execIncw (ch : Nat) (pd : BitVec 5) (s : State) : Host.Outcome State Fault Refusal :=
  .next (s.cellEvent ch fun c => c.runInstr (.unw .inc pd) none)

/-- DECW (R91). -/
def execDecw (ch : Nat) (pd : BitVec 5) (s : State) : Host.Outcome State Fault Refusal :=
  .next (s.cellEvent ch fun c => c.runInstr (.unw .dec pd) none)

/-- NEGW (R94). -/
def execNegw (ch : Nat) (pd : BitVec 5) (s : State) : Host.Outcome State Fault Refusal :=
  .next (s.cellEvent ch fun c => c.runInstr (.unw .neg pd) none)

/-- NOTW (R91). -/
def execNotw (ch : Nat) (pd : BitVec 5) (s : State) : Host.Outcome State Fault Refusal :=
  .next (s.cellEvent ch fun c => c.runInstr (.unw .not pd) none)

/-- CLRW (R91). -/
def execClrw (ch : Nat) (pd : BitVec 5) (s : State) : Host.Outcome State Fault Refusal :=
  .next (s.cellEvent ch fun c => c.runInstr (.unw .clr pd) none)

/-- TSTW (R91). -/
def execTstw (ch : Nat) (pd : BitVec 5) (s : State) : Host.Outcome State Fault Refusal :=
  .next (s.cellEvent ch fun c => c.runInstr (.unw .tst pd) none)

/-- SEXW (R91). -/
def execSexw (ch : Nat) (pd : BitVec 5) (s : State) : Host.Outcome State Fault Refusal :=
  .next (s.cellEvent ch fun c => c.runInstr (.unw .sex pd) none)

/-- ZEXW (R91). -/
def execZexw (ch : Nat) (pd : BitVec 5) (s : State) : Host.Outcome State Fault Refusal :=
  .next (s.cellEvent ch fun c => c.runInstr (.unw .zex pd) none)

/-- SHL (R95). -/
def execShl (ch : Nat) (rd : BitVec 5) (count : ByteSrc) (s : State) : Host.Outcome State Fault Refusal :=
  .next (s.cellEvent ch fun c => c.runInstr (.sh .shl rd count) none)

/-- SHR (R95). -/
def execShr (ch : Nat) (rd : BitVec 5) (count : ByteSrc) (s : State) : Host.Outcome State Fault Refusal :=
  .next (s.cellEvent ch fun c => c.runInstr (.sh .shr rd count) none)

/-- SAR (R95). -/
def execSar (ch : Nat) (rd : BitVec 5) (count : ByteSrc) (s : State) : Host.Outcome State Fault Refusal :=
  .next (s.cellEvent ch fun c => c.runInstr (.sh .sar rd count) none)

/-- ROL (R95). -/
def execRol (ch : Nat) (rd : BitVec 5) (count : ByteSrc) (s : State) : Host.Outcome State Fault Refusal :=
  .next (s.cellEvent ch fun c => c.runInstr (.sh .rol rd count) none)

/-- ROR (R95). -/
def execRor (ch : Nat) (rd : BitVec 5) (count : ByteSrc) (s : State) : Host.Outcome State Fault Refusal :=
  .next (s.cellEvent ch fun c => c.runInstr (.sh .ror rd count) none)

/-- RCL (R95). -/
def execRcl (ch : Nat) (rd : BitVec 5) (count : ByteSrc) (s : State) : Host.Outcome State Fault Refusal :=
  .next (s.cellEvent ch fun c => c.runInstr (.sh .rcl rd count) none)

/-- RCR (R95). -/
def execRcr (ch : Nat) (rd : BitVec 5) (count : ByteSrc) (s : State) : Host.Outcome State Fault Refusal :=
  .next (s.cellEvent ch fun c => c.runInstr (.sh .rcr rd count) none)

/-- SHLW (R95). -/
def execShlw (ch : Nat) (pd : BitVec 5) (count : ByteSrc) (s : State) : Host.Outcome State Fault Refusal :=
  .next (s.cellEvent ch fun c => c.runInstr (.shw .shl pd count) none)

/-- SHRW (R95). -/
def execShrw (ch : Nat) (pd : BitVec 5) (count : ByteSrc) (s : State) : Host.Outcome State Fault Refusal :=
  .next (s.cellEvent ch fun c => c.runInstr (.shw .shr pd count) none)

/-- SARW (R95). -/
def execSarw (ch : Nat) (pd : BitVec 5) (count : ByteSrc) (s : State) : Host.Outcome State Fault Refusal :=
  .next (s.cellEvent ch fun c => c.runInstr (.shw .sar pd count) none)

/-- ROLW (R95). -/
def execRolw (ch : Nat) (pd : BitVec 5) (count : ByteSrc) (s : State) : Host.Outcome State Fault Refusal :=
  .next (s.cellEvent ch fun c => c.runInstr (.shw .rol pd count) none)

/-- RORW (R95). -/
def execRorw (ch : Nat) (pd : BitVec 5) (count : ByteSrc) (s : State) : Host.Outcome State Fault Refusal :=
  .next (s.cellEvent ch fun c => c.runInstr (.shw .ror pd count) none)

/-- RCLW (R95). -/
def execRclw (ch : Nat) (pd : BitVec 5) (count : ByteSrc) (s : State) : Host.Outcome State Fault Refusal :=
  .next (s.cellEvent ch fun c => c.runInstr (.shw .rcl pd count) none)

/-- RCRW (R95). -/
def execRcrw (ch : Nat) (pd : BitVec 5) (count : ByteSrc) (s : State) : Host.Outcome State Fault Refusal :=
  .next (s.cellEvent ch fun c => c.runInstr (.shw .rcr pd count) none)

/-- MUL (R96). -/
def execMul (ch : Nat) (pd : BitVec 5) (b2 : Byte) (s : State) : Host.Outcome State Fault Refusal :=
  .next (s.cellEvent ch fun c => c.runInstr (.mul false pd b2) none)

/-- MULS (R96). -/
def execMuls (ch : Nat) (pd : BitVec 5) (b2 : Byte) (s : State) : Host.Outcome State Fault Refusal :=
  .next (s.cellEvent ch fun c => c.runInstr (.mul true pd b2) none)

/-- DIV (R96). -/
def execDiv (ch : Nat) (pd : BitVec 5) (b2 : Byte) (s : State) : Host.Outcome State Fault Refusal :=
  .next (s.cellEvent ch fun c => c.runInstr (.div false pd b2) none)

/-- DIVS (R96). -/
def execDivs (ch : Nat) (pd : BitVec 5) (b2 : Byte) (s : State) : Host.Outcome State Fault Refusal :=
  .next (s.cellEvent ch fun c => c.runInstr (.div true pd b2) none)

/-- BFX (R97). -/
def execBfx (ch : Nat) (b1 b2 b3 : Byte) (s : State) : Host.Outcome State Fault Refusal :=
  .next (s.cellEvent ch fun c => c.runInstr (.bfx b1 b2 b3) none)

/-- BFI (R97). -/
def execBfi (ch : Nat) (b1 b2 b3 : Byte) (s : State) : Host.Outcome State Fault Refusal :=
  .next (s.cellEvent ch fun c => c.runInstr (.bfi b1 b2 b3) none)

/-- CLZ (R98). -/
def execClz (ch : Nat) (b1 b2 : Byte) (s : State) : Host.Outcome State Fault Refusal :=
  .next (s.cellEvent ch fun c => c.runInstr (.clz b1 b2) none)

/-- BPERM (R99). -/
def execBperm (ch : Nat) (b1 : Byte) (sel : ByteSrc) (s : State) : Host.Outcome State Fault Refusal :=
  .next (s.cellEvent ch fun c => c.runInstr (bpermOf b1 sel) none)

/-- JMP (R100). -/
def execJmp (ch : Nat) (dst : JumpDst) (s : State) : Host.Outcome State Fault Refusal :=
  .next (s.cellEvent ch fun c => c.runInstr (.jmp dst) none)

/-- CALL (R60). -/
def execCall (ch : Nat) (dst : JumpDst) (s : State) : Host.Outcome State Fault Refusal :=
  .next (s.cellEvent ch fun c => c.runInstr (.call dst) none)

/-- LOOP (R103). -/
def execLoop (ch : Nat) (count : LoopCount) (u8 : Byte) (s : State) : Host.Outcome State Fault Refusal :=
  .next (s.cellEvent ch fun c => c.runInstr (.loop count u8) none)

/-- BCC (R102). -/
def execBcc (ch : Nat) (cond : BitVec 4) (d8 : Byte) (s : State) : Host.Outcome State Fault Refusal :=
  .next (s.cellEvent ch fun c => c.runInstr (.bcc cond d8) none)

/-- BCC_L (R102). -/
def execBccL (ch : Nat) (b1 : Byte) (d16 : Half) (s : State) : Host.Outcome State Fault Refusal :=
  .next (s.cellEvent ch fun c => c.runInstr (.bccL b1 d16) none)

/-- UOP (R142). -/
def execUop (ch : Nat) (n : BitVec 5) (b1 b2 b3 : Byte) (s : State) : Host.Outcome State Fault Refusal :=
  .next (s.cellEvent ch fun c => c.runInstr (.uop n b1 b2 b3) none)

/-- RESERVED_OPCODE (R87). -/
def execReservedOpcode (ch : Nat) (op : Byte) (rest : OpcodeRest) (s : State) : Host.Outcome State Fault Refusal :=
  .next (s.cellEvent ch fun c => c.runInstr (decodeVoleth op rest.b1 rest.b2 rest.b3) none)

end Sys2Proof.Machine
end

