-- ==== Sys2Proof/Machine/Dispatch.lean ====
section
/-! DEFINITION. The meaning of each command, one arm for each row of the table. -/

namespace Sys2Proof.Machine

def exec (i : Instr) (s : State) : Host.Outcome State Fault Refusal :=
  match i with
  | .powerOnReset fault => Sys2Proof.Machine.execPowerOnReset fault s
  | .resetN fault => Sys2Proof.Machine.execResetN fault s
  | .pwrgdFalling => Sys2Proof.Machine.execPwrgdFalling s
  | .vbatAndMainPowerRemoved => Sys2Proof.Machine.execVbatAndMainPowerRemoved s
  | .perstAsserted => Sys2Proof.Machine.execPerstAsserted s
  | .perstReleased => Sys2Proof.Machine.execPerstReleased s
  | .securityPhase fault => Sys2Proof.Machine.execSecurityPhase fault s
  | .selfTestPhase hubFail cells => Sys2Proof.Machine.execSelfTestPhase hubFail cells s
  | .imageReadPhase octal a b => Sys2Proof.Machine.execImageReadPhase octal a b s
  | .imageLoadPhase => Sys2Proof.Machine.execImageLoadPhase s
  | .castingPhase banks => Sys2Proof.Machine.execCastingPhase banks s
  | .ready => Sys2Proof.Machine.execReady s
  | .configurationRequest ask => Sys2Proof.Machine.execConfigurationRequest s ask
  | .unsupportedRequest => Sys2Proof.Machine.execUnsupportedRequest s
  | .d3hot => Sys2Proof.Machine.execD3hot s
  | .functionLevelReset ch => Sys2Proof.Machine.execFunctionLevelReset ch s
  | .pf0FunctionLevelReset => Sys2Proof.Machine.execPf0FunctionLevelReset s
  | .queueArm q ctl => Sys2Proof.Machine.execQueueArm q ctl s
  | .queueDisarm q ctl => Sys2Proof.Machine.execQueueDisarm q ctl s
  | .inboundDoorbell q prod => Sys2Proof.Machine.execInboundDoorbell q prod s
  | .outboundDoorbell q cons => Sys2Proof.Machine.execOutboundDoorbell q cons s
  | .holdoffEnd q => Sys2Proof.Machine.execHoldoffEnd q s
  | .carouselVisit ch => Sys2Proof.Machine.execCarouselVisit ch s
  | .cast ch tag epoch mould => Sys2Proof.Machine.execCast ch tag epoch mould s
  | .castComplete ch => Sys2Proof.Machine.execCastComplete ch s
  | .stop ch tag epoch => Sys2Proof.Machine.execStop ch tag epoch s
  | .drainEnd ch => Sys2Proof.Machine.execDrainEnd ch s
  | .clone ch tag epoch on => Sys2Proof.Machine.execClone ch tag epoch on s
  | .streamRefresh ch tag epoch streams => Sys2Proof.Machine.execStreamRefresh ch tag epoch streams s
  | .svcSelect tag sel => Sys2Proof.Machine.execSvcSelect tag sel s
  | .svcWakeWaitEnd => Sys2Proof.Machine.execSvcWakeWaitEnd s
  | .servicePush => Sys2Proof.Machine.execServicePush s
  | .tearingEffectEdge => Sys2Proof.Machine.execTearingEffectEdge s
  | .dbgAttach ch tag epoch => Sys2Proof.Machine.execDbgAttach ch tag epoch s
  | .dbgHalt ch tag epoch => Sys2Proof.Machine.execDbgHalt ch tag epoch s
  | .debugHaltTaken ch => Sys2Proof.Machine.execDebugHaltTaken ch s
  | .breakpointHalt ch v => Sys2Proof.Machine.execBreakpointHalt ch v s
  | .dbgStep ch tag epoch => Sys2Proof.Machine.execDbgStep ch tag epoch s
  | .dbgResume ch tag epoch => Sys2Proof.Machine.execDbgResume ch tag epoch s
  | .dbgRead ch tag epoch space addr len buf => Sys2Proof.Machine.execDbgRead ch tag epoch space addr len buf s
  | .dbgWrite ch tag epoch space addr data => Sys2Proof.Machine.execDbgWrite ch tag epoch space addr data s
  | .dbgBreak ch tag epoch addrs => Sys2Proof.Machine.execDbgBreak ch tag epoch addrs s
  | .dbgDetach ch tag epoch => Sys2Proof.Machine.execDbgDetach ch tag epoch s
  | .imageBegin tag => Sys2Proof.Machine.execImageBegin tag s
  | .imageWrite tag off data => Sys2Proof.Machine.execImageWrite tag off data s
  | .imageCommit tag r => Sys2Proof.Machine.execImageCommit tag r s
  | .readCatchLog tag buf len => Sys2Proof.Machine.execReadCatchLog tag buf len s
  | .readLockup ch tag buf len => Sys2Proof.Machine.execReadLockup ch tag buf len s
  | .readHealth tag buf len => Sys2Proof.Machine.execReadHealth tag buf len s
  | .readForecast tag buf len => Sys2Proof.Machine.execReadForecast tag buf len s
  | .readSecurity tag buf len => Sys2Proof.Machine.execReadSecurity tag buf len s
  | .readCounters tag buf len => Sys2Proof.Machine.execReadCounters tag buf len s
  | .undefinedOpcode op ch tag => Sys2Proof.Machine.execUndefinedOpcode op ch tag s
  | .refresh ch arg => Sys2Proof.Machine.execRefresh ch arg s
  | .vfStateRead ch => Sys2Proof.Machine.execVfStateRead ch s
  | .readByte cmd => Sys2Proof.Machine.execReadByte cmd s
  | .readWord cmd => Sys2Proof.Machine.execReadWord cmd s
  | .blockRead cmd count => Sys2Proof.Machine.execBlockRead cmd count s
  | .writeByte cmd v => Sys2Proof.Machine.execWriteByte cmd v s
  | .alertResponseAddress => Sys2Proof.Machine.execAlertResponseAddress s
  | .smbusTimeout => Sys2Proof.Machine.execSmbusTimeout s
  | .doeDiscovery => Sys2Proof.Machine.execDoeDiscovery s
  | .getVersion => Sys2Proof.Machine.execGetVersion s
  | .getCapabilities => Sys2Proof.Machine.execGetCapabilities s
  | .negotiateAlgorithms => Sys2Proof.Machine.execNegotiateAlgorithms s
  | .getDigests => Sys2Proof.Machine.execGetDigests s
  | .getCertificate off len => Sys2Proof.Machine.execGetCertificate off len s
  | .challenge nonce => Sys2Proof.Machine.execChallenge nonce s
  | .getMeasurements index => Sys2Proof.Machine.execGetMeasurements index s
  | .keyExchange session => Sys2Proof.Machine.execKeyExchange session s
  | .finish session mutualAuth => Sys2Proof.Machine.execFinish session mutualAuth s
  | .heartbeat session => Sys2Proof.Machine.execHeartbeat session s
  | .keyUpdate session => Sys2Proof.Machine.execKeyUpdate session s
  | .endSession session => Sys2Proof.Machine.execEndSession session s
  | .ideKm session stream keySet key => Sys2Proof.Machine.execIdeKm session stream keySet key s
  | .kSetGo session stream keySet => Sys2Proof.Machine.execKSetGo session stream keySet s
  | .keyProvision session key keyGen signing floor => Sys2Proof.Machine.execKeyProvision session key keyGen signing floor s
  | .tamperAlarm sensor mask => Sys2Proof.Machine.execTamperAlarm sensor mask s
  | .lockstepMismatch die cell block lost => Sys2Proof.Machine.execLockstepMismatch die cell block lost s
  | .uncorrectableError die cell memory addr lost => Sys2Proof.Machine.execUncorrectableError die cell memory addr lost s
  | .residueMismatch die cell lost => Sys2Proof.Machine.execResidueMismatch die cell lost s
  | .catchReserveLoaded ch => Sys2Proof.Machine.execCatchReserveLoaded ch s
  | .faultPointReached ch => Sys2Proof.Machine.execFaultPointReached ch s
  | .goingLive ch elapsed levels => Sys2Proof.Machine.execGoingLive ch elapsed levels s
  | .ringmasterFailover => Sys2Proof.Machine.execRingmasterFailover s
  | .agingMarginLow die cell margin trend => Sys2Proof.Machine.execAgingMarginLow die cell margin trend s
  | .plannedCatchPause sight => Sys2Proof.Machine.execPlannedCatchPause sight s
  | .checkpointSnapshot ch => Sys2Proof.Machine.execCheckpointSnapshot ch s
  | .forcedCheckpoint ch => Sys2Proof.Machine.execForcedCheckpoint ch s
  | .checkpointCopyComplete ch bad => Sys2Proof.Machine.execCheckpointCopyComplete ch bad s
  | .slotScrub ch bad => Sys2Proof.Machine.execSlotScrub ch bad s
  | .kilnDailyTest u => Sys2Proof.Machine.execKilnDailyTest u s
  | .blockScopeTest u => Sys2Proof.Machine.execBlockScopeTest u s
  | .kilnTestComplete u r => Sys2Proof.Machine.execKilnTestComplete u r s
  | .cellScopeTest ch => Sys2Proof.Machine.execCellScopeTest ch s
  | .cellScopeTestEnd ch r levels => Sys2Proof.Machine.execCellScopeTestEnd ch r levels s
  | .repairRecordWrite ok => Sys2Proof.Machine.execRepairRecordWrite ok s
  | .frameBoundary ch => Sys2Proof.Machine.execFrameBoundary ch s
  | .vbl ch => Sys2Proof.Machine.execVbl ch s
  | .blinkToggle ch => Sys2Proof.Machine.execBlinkToggle ch s
  | .beamCompareMatch ch n => Sys2Proof.Machine.execBeamCompareMatch ch n s
  | .commit ch => Sys2Proof.Machine.execCommit ch s
  | .cut ch => Sys2Proof.Machine.execCut ch s
  | .transfer ch => Sys2Proof.Machine.execTransfer ch s
  | .installTick ch => Sys2Proof.Machine.execInstallTick ch s
  | .rsWait ch => Sys2Proof.Machine.execRsWait ch s
  | .rsWrite ch => Sys2Proof.Machine.execRsWrite ch s
  | .rsSkip ch => Sys2Proof.Machine.execRsSkip ch s
  | .rsBranch ch => Sys2Proof.Machine.execRsBranch ch s
  | .rsEnd ch => Sys2Proof.Machine.execRsEnd ch s
  | .spriteSearch ch => Sys2Proof.Machine.execSpriteSearch ch s
  | .spriteSpriteCollision ch line dot => Sys2Proof.Machine.execSpriteSpriteCollision ch line dot s
  | .spritePlaneCollision ch line dot => Sys2Proof.Machine.execSpritePlaneCollision ch line dot s
  | .layerUnderrun ch l y => Sys2Proof.Machine.execLayerUnderrun ch l y s
  | .guardCompare ch b => Sys2Proof.Machine.execGuardCompare ch b s
  | .bandClose ch b => Sys2Proof.Machine.execBandClose ch b s
  | .refreshAll ch => Sys2Proof.Machine.execRefreshAll ch s
  | .napRequest ch v => Sys2Proof.Machine.execNapRequest ch v s
  | .napEntry ch => Sys2Proof.Machine.execNapEntry ch s
  | .pinWakeLatch ch cp rising => Sys2Proof.Machine.execPinWakeLatch ch cp rising s
  | .hostArrivalLatch ch line => Sys2Proof.Machine.execHostArrivalLatch ch line s
  | .wake ch how => Sys2Proof.Machine.execWake ch how s
  | .pinPauseLatch ch cp rising => Sys2Proof.Machine.execPinPauseLatch ch cp rising s
  | .exceptionEntry ch => Sys2Proof.Machine.execExceptionEntry ch s
  | .waitEnd ch => Sys2Proof.Machine.execWaitEnd ch s
  | .nop ch => Sys2Proof.Machine.execNop ch s
  | .ret ch => Sys2Proof.Machine.execRet ch s
  | .rte ch => Sys2Proof.Machine.execRte ch s
  | .setm ch => Sys2Proof.Machine.execSetm ch s
  | .clrm ch => Sys2Proof.Machine.execClrm ch s
  | .usr ch => Sys2Proof.Machine.execUsr ch s
  | .wait ch => Sys2Proof.Machine.execWait ch s
  | .trap ch n => Sys2Proof.Machine.execTrap ch n s
  | .spillw ch b1 => Sys2Proof.Machine.execSpillw ch b1 s
  | .fillw ch b1 => Sys2Proof.Machine.execFillw ch b1 s
  | .mvb ch b1 stop => Sys2Proof.Machine.execMvb ch b1 stop s
  | .cmb ch b1 stop => Sys2Proof.Machine.execCmb ch b1 stop s
  | .flb ch b1 stop => Sys2Proof.Machine.execFlb ch b1 stop s
  | .mov ch b1 src => Sys2Proof.Machine.execMov ch b1 src s
  | .movw ch b1 src => Sys2Proof.Machine.execMovw ch b1 src s
  | .ld ch rd m => Sys2Proof.Machine.execLd ch rd m s
  | .st ch m rs => Sys2Proof.Machine.execSt ch m rs s
  | .ldw ch pd m => Sys2Proof.Machine.execLdw ch pd m s
  | .stw ch m ps => Sys2Proof.Machine.execStw ch m ps s
  | .lea ch pd m => Sys2Proof.Machine.execLea ch pd m s
  | .push ch b1 => Sys2Proof.Machine.execPush ch b1 s
  | .pop ch b1 => Sys2Proof.Machine.execPop ch b1 s
  | .pushw ch b1 => Sys2Proof.Machine.execPushw ch b1 s
  | .popw ch b1 => Sys2Proof.Machine.execPopw ch b1 s
  | .mfs ch b1 sr => Sys2Proof.Machine.execMfs ch b1 sr s
  | .mts ch sr b1 => Sys2Proof.Machine.execMts ch sr b1 s
  | .xch ch b1 b2 => Sys2Proof.Machine.execXch ch b1 b2 s
  | .add ch rd src => Sys2Proof.Machine.execAdd ch rd src s
  | .adc ch rd src => Sys2Proof.Machine.execAdc ch rd src s
  | .sub ch rd src => Sys2Proof.Machine.execSub ch rd src s
  | .sbc ch rd src => Sys2Proof.Machine.execSbc ch rd src s
  | .and ch rd src => Sys2Proof.Machine.execAnd ch rd src s
  | .or ch rd src => Sys2Proof.Machine.execOr ch rd src s
  | .xor ch rd src => Sys2Proof.Machine.execXor ch rd src s
  | .cmp ch rd src => Sys2Proof.Machine.execCmp ch rd src s
  | .addw ch pd src => Sys2Proof.Machine.execAddw ch pd src s
  | .adcw ch pd src => Sys2Proof.Machine.execAdcw ch pd src s
  | .subw ch pd src => Sys2Proof.Machine.execSubw ch pd src s
  | .sbcw ch pd src => Sys2Proof.Machine.execSbcw ch pd src s
  | .andw ch pd src => Sys2Proof.Machine.execAndw ch pd src s
  | .orw ch pd src => Sys2Proof.Machine.execOrw ch pd src s
  | .xorw ch pd src => Sys2Proof.Machine.execXorw ch pd src s
  | .cmpw ch pd src => Sys2Proof.Machine.execCmpw ch pd src s
  | .inc ch rd => Sys2Proof.Machine.execInc ch rd s
  | .dec ch rd => Sys2Proof.Machine.execDec ch rd s
  | .neg ch rd => Sys2Proof.Machine.execNeg ch rd s
  | .not ch rd => Sys2Proof.Machine.execNot ch rd s
  | .clr ch rd => Sys2Proof.Machine.execClr ch rd s
  | .tst ch rd => Sys2Proof.Machine.execTst ch rd s
  | .swapn ch rd => Sys2Proof.Machine.execSwapn ch rd s
  | .incw ch pd => Sys2Proof.Machine.execIncw ch pd s
  | .decw ch pd => Sys2Proof.Machine.execDecw ch pd s
  | .negw ch pd => Sys2Proof.Machine.execNegw ch pd s
  | .notw ch pd => Sys2Proof.Machine.execNotw ch pd s
  | .clrw ch pd => Sys2Proof.Machine.execClrw ch pd s
  | .tstw ch pd => Sys2Proof.Machine.execTstw ch pd s
  | .sexw ch pd => Sys2Proof.Machine.execSexw ch pd s
  | .zexw ch pd => Sys2Proof.Machine.execZexw ch pd s
  | .shl ch rd count => Sys2Proof.Machine.execShl ch rd count s
  | .shr ch rd count => Sys2Proof.Machine.execShr ch rd count s
  | .sar ch rd count => Sys2Proof.Machine.execSar ch rd count s
  | .rol ch rd count => Sys2Proof.Machine.execRol ch rd count s
  | .ror ch rd count => Sys2Proof.Machine.execRor ch rd count s
  | .rcl ch rd count => Sys2Proof.Machine.execRcl ch rd count s
  | .rcr ch rd count => Sys2Proof.Machine.execRcr ch rd count s
  | .shlw ch pd count => Sys2Proof.Machine.execShlw ch pd count s
  | .shrw ch pd count => Sys2Proof.Machine.execShrw ch pd count s
  | .sarw ch pd count => Sys2Proof.Machine.execSarw ch pd count s
  | .rolw ch pd count => Sys2Proof.Machine.execRolw ch pd count s
  | .rorw ch pd count => Sys2Proof.Machine.execRorw ch pd count s
  | .rclw ch pd count => Sys2Proof.Machine.execRclw ch pd count s
  | .rcrw ch pd count => Sys2Proof.Machine.execRcrw ch pd count s
  | .mul ch pd b2 => Sys2Proof.Machine.execMul ch pd b2 s
  | .muls ch pd b2 => Sys2Proof.Machine.execMuls ch pd b2 s
  | .div ch pd b2 => Sys2Proof.Machine.execDiv ch pd b2 s
  | .divs ch pd b2 => Sys2Proof.Machine.execDivs ch pd b2 s
  | .bfx ch b1 b2 b3 => Sys2Proof.Machine.execBfx ch b1 b2 b3 s
  | .bfi ch b1 b2 b3 => Sys2Proof.Machine.execBfi ch b1 b2 b3 s
  | .clz ch b1 b2 => Sys2Proof.Machine.execClz ch b1 b2 s
  | .bperm ch b1 sel => Sys2Proof.Machine.execBperm ch b1 sel s
  | .jmp ch dst => Sys2Proof.Machine.execJmp ch dst s
  | .call ch dst => Sys2Proof.Machine.execCall ch dst s
  | .loop ch count u8 => Sys2Proof.Machine.execLoop ch count u8 s
  | .bcc ch cond d8 => Sys2Proof.Machine.execBcc ch cond d8 s
  | .bccL ch b1 d16 => Sys2Proof.Machine.execBccL ch b1 d16 s
  | .uop ch n b1 b2 b3 => Sys2Proof.Machine.execUop ch n b1 b2 b3 s
  | .dtEntryWrite ch v => Sys2Proof.Machine.execDtEntryWrite ch v s
  | .ucDataWrite ch v => Sys2Proof.Machine.execUcDataWrite ch v s
  | .ucDataRead ch k => Sys2Proof.Machine.execUcDataRead ch k s
  | .ucCtlLock ch => Sys2Proof.Machine.execUcCtlLock ch s
  | .ptDataWrite ch v => Sys2Proof.Machine.execPtDataWrite ch v s
  | .paceRateWrite ch den v => Sys2Proof.Machine.execPaceRateWrite ch den v s
  | .pacedWrite ch v => Sys2Proof.Machine.execPacedWrite ch v s
  | .palHiWrite ch v => Sys2Proof.Machine.execPalHiWrite ch v s
  | .tblDataWrite ch v => Sys2Proof.Machine.execTblDataWrite ch v s
  | .bltGo ch => Sys2Proof.Machine.execBltGo ch s
  | .bltCommandFetch ch => Sys2Proof.Machine.execBltCommandFetch ch s
  | .bltNop ch => Sys2Proof.Machine.execBltNop ch s
  | .copy ch units => Sys2Proof.Machine.execCopy ch units s
  | .fill ch units => Sys2Proof.Machine.execFill ch units s
  | .patfill ch units => Sys2Proof.Machine.execPatfill ch units s
  | .line ch units => Sys2Proof.Machine.execLine ch units s
  | .keycopy ch units => Sys2Proof.Machine.execKeycopy ch units s
  | .expand ch units => Sys2Proof.Machine.execExpand ch units s
  | .setclip ch => Sys2Proof.Machine.execSetclip ch s
  | .bltJump ch => Sys2Proof.Machine.execBltJump ch s
  | .bltCommandEnd ch => Sys2Proof.Machine.execBltCommandEnd ch s
  | .bltAbort ch => Sys2Proof.Machine.execBltAbort ch s
  | .descPtrWrite ch n v => Sys2Proof.Machine.execDescPtrWrite ch n v s
  | .dmaDescriptorFetch ch n => Sys2Proof.Machine.execDmaDescriptorFetch ch n s
  | .dmaRequest ch n => Sys2Proof.Machine.execDmaRequest ch n s
  | .dmaUnitComplete ch n bad => Sys2Proof.Machine.execDmaUnitComplete ch n bad s
  | .dmaDescriptorComplete ch n => Sys2Proof.Machine.execDmaDescriptorComplete ch n s
  | .crRdWrite ch n v => Sys2Proof.Machine.execCrRdWrite ch n v s
  | .crBaseWrite ch n toSize v => Sys2Proof.Machine.execCrBaseWrite ch n toSize v s
  | .dmaStreamDrop ch n => Sys2Proof.Machine.execDmaStreamDrop ch n s
  | .dmaDropDrainEnd ch n => Sys2Proof.Machine.execDmaDropDrainEnd ch n s
  | .timerCountingTick ch n => Sys2Proof.Machine.execTimerCountingTick ch n s
  | .timerWrap ch n => Sys2Proof.Machine.execTimerWrap ch n s
  | .timerMatch ch n unitB => Sys2Proof.Machine.execTimerMatch ch n unitB s
  | .timerCapture ch n unitB duringRead => Sys2Proof.Machine.execTimerCapture ch n unitB duringRead s
  | .capturePendingWrite ch n => Sys2Proof.Machine.execCapturePendingWrite ch n s
  | .timerResync ch n => Sys2Proof.Machine.execTimerResync ch n s
  | .eoi ch v => Sys2Proof.Machine.execEoi ch v s
  | .soft ch v => Sys2Proof.Machine.execSoft ch v s
  | .moderationHoldEnd ch src byTick => Sys2Proof.Machine.execModerationHoldEnd ch src byTick s
  | .toneReload ch v => Sys2Proof.Machine.execToneReload ch v s
  | .noiseStep ch => Sys2Proof.Machine.execNoiseStep ch s
  | .waveAdvance ch w => Sys2Proof.Machine.execWaveAdvance ch w s
  | .clickAccept ch => Sys2Proof.Machine.execClickAccept ch s
  | .pcmData ch v => Sys2Proof.Machine.execPcmData ch v s
  | .pcmTrigger ch clocks => Sys2Proof.Machine.execPcmTrigger ch clocks s
  | .pcmSlow ch => Sys2Proof.Machine.execPcmSlow ch s
  | .nodeGainWrite ch v => Sys2Proof.Machine.execNodeGainWrite ch v s
  | .routeMove ch v => Sys2Proof.Machine.execRouteMove ch v s
  | .bqApply ch v => Sys2Proof.Machine.execBqApply ch v s
  | .audioPacket ch => Sys2Proof.Machine.execAudioPacket ch s
  | .pinInWindow ch => Sys2Proof.Machine.execPinInWindow ch s
  | .lbDataRead ch => Sys2Proof.Machine.execLbDataRead ch s
  | .pioJmp ch n => Sys2Proof.Machine.execPioJmp ch n s
  | .pioWait ch cycle => Sys2Proof.Machine.execPioWait ch cycle s
  | .pioIn ch n => Sys2Proof.Machine.execPioIn ch n s
  | .pioOut ch n => Sys2Proof.Machine.execPioOut ch n s
  | .pioPush ch n => Sys2Proof.Machine.execPioPush ch n s
  | .pioPull ch n => Sys2Proof.Machine.execPioPull ch n s
  | .pioMov ch n => Sys2Proof.Machine.execPioMov ch n s
  | .pioSet ch n => Sys2Proof.Machine.execPioSet ch n s
  | .pioIrq ch cycle => Sys2Proof.Machine.execPioIrq ch cycle s
  | .pioExch ch n => Sys2Proof.Machine.execPioExch ch n s
  | .programStoreWrite ch word v => Sys2Proof.Machine.execProgramStoreWrite ch word v s
  | .pioCtlWrite ch v => Sys2Proof.Machine.execPioCtlWrite ch v s
  | .clksync ch v => Sys2Proof.Machine.execClksync ch v s
  | .pioIrqForce ch v => Sys2Proof.Machine.execPioIrqForce ch v s
  | .txf ch n v => Sys2Proof.Machine.execTxf ch n v s
  | .rxf ch n => Sys2Proof.Machine.execRxf ch n s
  | .pinLevelChange ch cp samples tick window => Sys2Proof.Machine.execPinLevelChange ch cp samples tick window s
  | .pinLevelIrq ch cp => Sys2Proof.Machine.execPinLevelIrq ch cp s
  | .patternMatch ch tick first => Sys2Proof.Machine.execPatternMatch ch tick first s
  | .gpioSet ch hi v => Sys2Proof.Machine.execGpioSet ch hi v s
  | .gpioClr ch hi v => Sys2Proof.Machine.execGpioClr ch hi v s
  | .gpioTgl ch hi v => Sys2Proof.Machine.execGpioTgl ch hi v s
  | .functionChange ch n v => Sys2Proof.Machine.execFunctionChange ch n v s
  | .pinlock ch v => Sys2Proof.Machine.execPinlock ch v s
  | .evfDataRead ch => Sys2Proof.Machine.execEvfDataRead ch s
  | .lineDataRead ch l => Sys2Proof.Machine.execLineDataRead ch l s
  | .lineDataWrite ch l v => Sys2Proof.Machine.execLineDataWrite ch l v s
  | .crGo ch v => Sys2Proof.Machine.execCrGo ch v s
  | .ecbEncrypt ch => Sys2Proof.Machine.execEcbEncrypt ch s
  | .ecbDecrypt ch => Sys2Proof.Machine.execEcbDecrypt ch s
  | .cbcEncrypt ch => Sys2Proof.Machine.execCbcEncrypt ch s
  | .cbcDecrypt ch => Sys2Proof.Machine.execCbcDecrypt ch s
  | .ctr ch => Sys2Proof.Machine.execCtr ch s
  | .cmac ch => Sys2Proof.Machine.execCmac ch s
  | .macAlgorithm3 ch => Sys2Proof.Machine.execMacAlgorithm3 ch s
  | .unwrap ch => Sys2Proof.Machine.execUnwrap ch s
  | .erase ch => Sys2Proof.Machine.execErase ch s
  | .cryptoDone ch => Sys2Proof.Machine.execCryptoDone ch s
  | .crAbort ch => Sys2Proof.Machine.execCrAbort ch s
  | .crDin ch v => Sys2Proof.Machine.execCrDin ch v s
  | .crDout ch => Sys2Proof.Machine.execCrDout ch s
  | .registerWrite w => Sys2Proof.Machine.execRegisterWrite w s
  | .reservedOpcode ch op rest => Sys2Proof.Machine.execReservedOpcode ch op rest s
  | .mixTick ch since => Sys2Proof.Machine.execMixTick ch since s
  | .pwmPeriod ch n => Sys2Proof.Machine.execPwmPeriod ch n s
  | .sensorClear sensor => Sys2Proof.Machine.execSensorClear sensor s
  | .laneFailure lanes => Sys2Proof.Machine.execLaneFailure lanes s
  | .readCompletion ch t data => Sys2Proof.Machine.execReadCompletion ch t data s
  | .readDoesNotComplete ch t => Sys2Proof.Machine.execReadDoesNotComplete ch t s

end Sys2Proof.Machine
end

