-- ==== Sys2Proof/WellFormed.lean ====
section
/-! DEFINITION. Which commands are well formed: every operand within the range that the manual gives it. -/

namespace Sys2Proof

/-- A channel number (R9, R11). -/
def okCh (ch : Nat) : Bool := decide (ch < 560)

/-- A video layer, a wave voice, a beam compare or a PWM output. -/
def ok2 (n : Nat) : Bool := decide (n < 2)

/-- A timer, an engine, a DMA stream, a line, a tone voice or a byte of UC_DATA. -/
def ok4 (n : Nat) : Bool := decide (n < 4)

/-- A byte. -/
def ok8 (n : Nat) : Bool := decide (n < 256)

/-- A 16-bit value. -/
def ok16 (n : Nat) : Bool := decide (n < 0x10000)

/-- A 32-bit value. -/
def ok32 (n : Nat) : Bool := decide (n < 0x100000000)

/-- A 64-bit value. -/
def ok64 (n : Nat) : Bool := decide (n < 0x10000000000000000)

/-- A channel pin (R330). -/
def okCp (n : Nat) : Bool := decide (n < 16)

/-- A word of the program store (R317). -/
def okWord (n : Nat) : Bool := decide (n < 40)

/-- An interrupt source (R359). -/
def okSrc (n : Nat) : Bool := decide (n < 48)

/-- A line of the frame (R160). -/
def okLine (n : Nat) : Bool := decide (n < 1024)

/-- A dot of the line (R160). -/
def okDot (n : Nat) : Bool := decide (n < 2048)

/-- A band (R235). -/
def okBand (n : Nat) : Bool := decide (n < 96)

/-- A channel die (R9). -/
def okDie (n : Nat) : Bool := decide (1 ≤ n ∧ n ≤ 7)

/-- A cell of a die (R9). -/
def okCell (n : Nat) : Bool := decide (n < 88)

/-- A tamper sensor (R465). -/
def okSensor (n : Nat) : Bool := decide (n < 8)

/-- A mask of dies, bit d − 1 for die d. -/
def okMask (n : Nat) : Bool := decide (n < 128)

/-- A lockstepped block of a cell (R436). -/
def okBlock (n : Nat) : Bool := decide (1 ≤ n ∧ n ≤ 7)

/-- A memory in the order of R17 (R436). -/
def okMemory (n : Nat) : Bool := decide (n < 16)

/-- A margin or a trend (R437). -/
def okMargin (n : Nat) : Bool := decide (n < 256)

/-- A key of 256 bits (R40, R375). -/
def okKey (k : List Byte) : Bool := k.length == 32

/-- An IDE stream (R375). -/
def okStream (n : Nat) : Bool := decide (n ≤ 4)

/-- A piece of an image (R400). -/
def okPiece (d : List Byte) : Bool := decide (d.length ≤ 0x100000)

/-- Breakpoints (R132). -/
def okAddrs (l : List Half) : Bool := decide (l.length ≤ 4)

/-- An SMBus command code or count. -/
def okCode (n : Nat) : Bool := decide (n < 256)

/-- A queue (R377, R398). -/
def okQueue (q : QueueId) : Bool :=
  match q with
  | .vf ch n => okCh ch && decide (n < 16)
  | .mcq => true
  | .mrq => true

/-- What a host read carries. -/
def okTarget (t : ReadTarget) : Bool :=
  match t with
  | .entry q => decide (q < 8)
  | .samples => true
  | .layer l => ok2 l
  | .command => true

/-- A unit of the kiln (R447, R452). -/
def okUnit (u : KilnUnit) : Bool :=
  match u with
  | .cell d n => okDie d && okCell n
  | .hub b => decide (1 ≤ b ∧ b ≤ 8)

/-- A function: PF0, or the VF of a channel (R370). -/
def okFn (n : Nat) : Bool := decide (n ≤ 560)

/-- A configuration register (R372, R373). -/
def okConfig (r : ConfigReg) : Bool :=
  match r with
  | .bar k _ => decide (k < 3)
  | .other off => decide (off < 4096 ∧ off % 4 = 0)
  | .id => true
  | .classRevision => true
  | .vfDeviceId => true
  | .firstVfOffset => true
  | .vfStride => true
  | .totalVfs => true
  | .pageSizes => true
  | .powerState => true

/-- A register write, within its page or its BAR (R74, R373). -/
def okWrite (w : RegWrite) : Bool :=
  match w with
  | .io ch a _ => okCh ch && decide (0xE000 ≤ a ∧ a < 0xF000)
  | .vf ch off _ => okCh ch && decide (off < 0x4000 ∧ off % 4 = 0)
  | .pf0 off _ => decide (off < 0x10000 ∧ off % 4 = 0)
  | .power _ => true
  | .relax fn _ => okFn fn
  | .bar k _ _ => decide (k < 3)
  | .ide stream reg _ => decide (1 ≤ stream ∧ stream ≤ 4 ∧ reg < 8)

/-- The details of a test (R452). -/
def okResult (r : TestResult) : Bool :=
  ok8 r.memory && ok8 r.bit && ok32 r.address && ok8 r.shape && ok16 r.spare && ok16 r.chain &&
  ok32 r.sigDiff && ok16 r.duration

/-- Test results of cells. -/
def okResults (l : List (Nat × Nat × TestResult)) : Bool := l.all fun t => okDie t.1 && okCell t.2.1 && okResult t.2.2

/-- A mould, its sparse contents in canonical form. -/
def okMould (m : Mould) : Bool := m.memory.wf && m.regs.wf && m.decodeTable.wf && m.microcode.wf && m.paceTable.wf && m.palette.wf && m.tables.wf

/-- What is read of an image slot (R41). -/
def okReading (r : SlotReading) : Bool := r.payload.elim true fun i => i.moulds.all okMould

/-- The bank rails of each die (R475). -/
def okBanks (l : List (List Nat)) : Bool := l.all fun b => b.length == 2 && b.all fun v => decide (v ≤ 2)

/-- The bytes of an instruction with a reserved opcode or op field, or of a UOP (R87, R91). -/
def okReserved (op b1 b2 b3 : Byte) : Bool :=
  match decodeVoleth op b1 b2 b3 with
  | .reservedOpcode _ | .reservedField _ | .uop _ _ _ _ => true
  | _ => false

/-- The operands of a command lie in their ranges. -/
def wellFormed : Instr → Bool
  | .powerOnReset _ => true
  | .resetN _ => true
  | .pwrgdFalling => true
  | .vbatAndMainPowerRemoved => true
  | .perstAsserted => true
  | .perstReleased => true
  | .securityPhase _ => true
  | .selfTestPhase _ cells => okResults cells
  | .imageReadPhase _ a b => okReading a && okReading b
  | .imageLoadPhase => true
  | .castingPhase banks => okBanks banks
  | .ready => true
  | .configurationRequest ask => okFn ask.fn && okConfig ask.reg
  | .unsupportedRequest => true
  | .d3hot => true
  | .functionLevelReset ch => okCh ch
  | .pf0FunctionLevelReset => true
  | .queueArm q _ => okQueue q
  | .queueDisarm q _ => okQueue q
  | .inboundDoorbell q _ => okQueue q
  | .outboundDoorbell q _ => okQueue q
  | .holdoffEnd q => okQueue q
  | .carouselVisit ch => okCh ch
  | .cast ch tag epoch mould => okCh ch && ok16 tag && ok32 epoch && ok8 mould
  | .castComplete ch => okCh ch
  | .stop ch tag epoch => okCh ch && ok16 tag && ok32 epoch
  | .drainEnd ch => okCh ch
  | .clone ch tag epoch _ => okCh ch && ok16 tag && ok32 epoch
  | .streamRefresh ch tag epoch _ => okCh ch && ok16 tag && ok32 epoch
  | .svcSelect tag sel => ok16 tag && ok16 sel
  | .svcWakeWaitEnd => true
  | .servicePush => true
  | .tearingEffectEdge => true
  | .dbgAttach ch tag epoch => okCh ch && ok16 tag && ok32 epoch
  | .dbgHalt ch tag epoch => okCh ch && ok16 tag && ok32 epoch
  | .debugHaltTaken ch => okCh ch
  | .breakpointHalt ch _ => okCh ch
  | .dbgStep ch tag epoch => okCh ch && ok16 tag && ok32 epoch
  | .dbgResume ch tag epoch => okCh ch && ok16 tag && ok32 epoch
  | .dbgRead ch tag epoch _ addr len buf => okCh ch && ok16 tag && ok32 epoch && ok32 addr && ok32 len && ok64 buf
  | .dbgWrite ch tag epoch _ addr _ => okCh ch && ok16 tag && ok32 epoch && ok32 addr
  | .dbgBreak ch tag epoch addrs => okCh ch && ok16 tag && ok32 epoch && okAddrs addrs
  | .dbgDetach ch tag epoch => okCh ch && ok16 tag && ok32 epoch
  | .imageBegin tag => ok16 tag
  | .imageWrite tag off data => ok16 tag && ok32 off && okPiece data
  | .imageCommit tag r => ok16 tag && okReading r
  | .readCatchLog tag buf len => ok16 tag && ok64 buf && ok32 len
  | .readLockup ch tag buf len => okCh ch && ok16 tag && ok64 buf && ok32 len
  | .readHealth tag buf len => ok16 tag && ok64 buf && ok32 len
  | .readForecast tag buf len => ok16 tag && ok64 buf && ok32 len
  | .readSecurity tag buf len => ok16 tag && ok64 buf && ok32 len
  | .readCounters tag buf len => ok16 tag && ok64 buf && ok32 len
  | .undefinedOpcode _ ch tag => okCh ch && ok16 tag
  | .refresh ch _ => okCh ch
  | .vfStateRead ch => okCh ch
  | .readByte cmd => okCode cmd
  | .readWord cmd => okCode cmd
  | .blockRead cmd count => okCode cmd && okCode count
  | .writeByte cmd _ => okCode cmd
  | .alertResponseAddress => true
  | .smbusTimeout => true
  | .doeDiscovery => true
  | .getVersion => true
  | .getCapabilities => true
  | .negotiateAlgorithms => true
  | .getDigests => true
  | .getCertificate off len => ok32 off && ok32 len
  | .challenge _ => true
  | .getMeasurements index => ok8 index
  | .keyExchange session => ok32 session
  | .finish session _ => ok32 session
  | .heartbeat session => ok32 session
  | .keyUpdate session => ok32 session
  | .endSession session => ok32 session
  | .ideKm session stream keySet key => ok32 session && okStream stream && ok2 keySet && okKey key
  | .kSetGo session stream keySet => ok32 session && okStream stream && ok2 keySet
  | .keyProvision session key keyGen _ floor => ok32 session && okKey key && ok32 keyGen && ok64 floor
  | .tamperAlarm sensor mask => okSensor sensor && okMask mask
  | .lockstepMismatch die cell block _ => okDie die && okCell cell && okBlock block
  | .uncorrectableError die cell memory addr _ => okDie die && okCell cell && okMemory memory && ok32 addr
  | .residueMismatch die cell _ => okDie die && okCell cell
  | .catchReserveLoaded ch => okCh ch
  | .faultPointReached ch => okCh ch
  | .goingLive ch _ _ => okCh ch
  | .ringmasterFailover => true
  | .agingMarginLow die cell margin trend => okDie die && okCell cell && okMargin margin && okMargin trend
  | .plannedCatchPause sight => okCh sight.ch
  | .checkpointSnapshot ch => okCh ch
  | .forcedCheckpoint ch => okCh ch
  | .checkpointCopyComplete ch _ => okCh ch
  | .slotScrub ch _ => okCh ch
  | .kilnDailyTest u => okUnit u
  | .blockScopeTest u => okUnit u
  | .kilnTestComplete u r => okUnit u && okResult r
  | .cellScopeTest ch => okCh ch
  | .cellScopeTestEnd ch r _ => okCh ch && okResult r
  | .repairRecordWrite _ => true
  | .frameBoundary ch => okCh ch
  | .vbl ch => okCh ch
  | .blinkToggle ch => okCh ch
  | .beamCompareMatch ch n => okCh ch && ok2 n
  | .commit ch => okCh ch
  | .cut ch => okCh ch
  | .transfer ch => okCh ch
  | .installTick ch => okCh ch
  | .rsWait ch => okCh ch
  | .rsWrite ch => okCh ch
  | .rsSkip ch => okCh ch
  | .rsBranch ch => okCh ch
  | .rsEnd ch => okCh ch
  | .spriteSearch ch => okCh ch
  | .spriteSpriteCollision ch line dot => okCh ch && okLine line && okDot dot
  | .spritePlaneCollision ch line dot => okCh ch && okLine line && okDot dot
  | .layerUnderrun ch l y => okCh ch && ok2 l && okLine y
  | .guardCompare ch b => okCh ch && okBand b
  | .bandClose ch b => okCh ch && okBand b
  | .refreshAll ch => okCh ch
  | .napRequest ch _ => okCh ch
  | .napEntry ch => okCh ch
  | .pinWakeLatch ch cp _ => okCh ch && okCp cp
  | .hostArrivalLatch ch _ => okCh ch
  | .wake ch how => okCh ch && ok32 how.ticks
  | .pinPauseLatch ch cp _ => okCh ch && okCp cp
  | .exceptionEntry ch => okCh ch
  | .waitEnd ch => okCh ch
  | .nop ch => okCh ch
  | .ret ch => okCh ch
  | .rte ch => okCh ch
  | .setm ch => okCh ch
  | .clrm ch => okCh ch
  | .usr ch => okCh ch
  | .wait ch => okCh ch
  | .trap ch _ => okCh ch
  | .spillw ch _ => okCh ch
  | .fillw ch _ => okCh ch
  | .mvb ch _ _ => okCh ch
  | .cmb ch _ _ => okCh ch
  | .flb ch _ _ => okCh ch
  | .mov ch _ _ => okCh ch
  | .movw ch _ _ => okCh ch
  | .ld ch _ _ => okCh ch
  | .st ch _ _ => okCh ch
  | .ldw ch _ _ => okCh ch
  | .stw ch _ _ => okCh ch
  | .lea ch _ _ => okCh ch
  | .push ch _ => okCh ch
  | .pop ch _ => okCh ch
  | .pushw ch _ => okCh ch
  | .popw ch _ => okCh ch
  | .mfs ch _ _ => okCh ch
  | .mts ch _ _ => okCh ch
  | .xch ch _ _ => okCh ch
  | .add ch _ _ => okCh ch
  | .adc ch _ _ => okCh ch
  | .sub ch _ _ => okCh ch
  | .sbc ch _ _ => okCh ch
  | .and ch _ _ => okCh ch
  | .or ch _ _ => okCh ch
  | .xor ch _ _ => okCh ch
  | .cmp ch _ _ => okCh ch
  | .addw ch _ _ => okCh ch
  | .adcw ch _ _ => okCh ch
  | .subw ch _ _ => okCh ch
  | .sbcw ch _ _ => okCh ch
  | .andw ch _ _ => okCh ch
  | .orw ch _ _ => okCh ch
  | .xorw ch _ _ => okCh ch
  | .cmpw ch _ _ => okCh ch
  | .inc ch _ => okCh ch
  | .dec ch _ => okCh ch
  | .neg ch _ => okCh ch
  | .not ch _ => okCh ch
  | .clr ch _ => okCh ch
  | .tst ch _ => okCh ch
  | .swapn ch _ => okCh ch
  | .incw ch _ => okCh ch
  | .decw ch _ => okCh ch
  | .negw ch _ => okCh ch
  | .notw ch _ => okCh ch
  | .clrw ch _ => okCh ch
  | .tstw ch _ => okCh ch
  | .sexw ch _ => okCh ch
  | .zexw ch _ => okCh ch
  | .shl ch _ _ => okCh ch
  | .shr ch _ _ => okCh ch
  | .sar ch _ _ => okCh ch
  | .rol ch _ _ => okCh ch
  | .ror ch _ _ => okCh ch
  | .rcl ch _ _ => okCh ch
  | .rcr ch _ _ => okCh ch
  | .shlw ch _ _ => okCh ch
  | .shrw ch _ _ => okCh ch
  | .sarw ch _ _ => okCh ch
  | .rolw ch _ _ => okCh ch
  | .rorw ch _ _ => okCh ch
  | .rclw ch _ _ => okCh ch
  | .rcrw ch _ _ => okCh ch
  | .mul ch _ _ => okCh ch
  | .muls ch _ _ => okCh ch
  | .div ch _ _ => okCh ch
  | .divs ch _ _ => okCh ch
  | .bfx ch _ _ _ => okCh ch
  | .bfi ch _ _ _ => okCh ch
  | .clz ch _ _ => okCh ch
  | .bperm ch _ _ => okCh ch
  | .jmp ch _ => okCh ch
  | .call ch _ => okCh ch
  | .loop ch _ _ => okCh ch
  | .bcc ch _ _ => okCh ch
  | .bccL ch _ _ => okCh ch
  | .uop ch _ _ _ _ => okCh ch
  | .dtEntryWrite ch _ => okCh ch
  | .ucDataWrite ch _ => okCh ch
  | .ucDataRead ch k => okCh ch && ok4 k
  | .ucCtlLock ch => okCh ch
  | .ptDataWrite ch _ => okCh ch
  | .paceRateWrite ch _ _ => okCh ch
  | .pacedWrite ch _ => okCh ch
  | .palHiWrite ch _ => okCh ch
  | .tblDataWrite ch _ => okCh ch
  | .bltGo ch => okCh ch
  | .bltCommandFetch ch => okCh ch
  | .bltNop ch => okCh ch
  | .copy ch _ => okCh ch
  | .fill ch _ => okCh ch
  | .patfill ch _ => okCh ch
  | .line ch _ => okCh ch
  | .keycopy ch _ => okCh ch
  | .expand ch _ => okCh ch
  | .setclip ch => okCh ch
  | .bltJump ch => okCh ch
  | .bltCommandEnd ch => okCh ch
  | .bltAbort ch => okCh ch
  | .descPtrWrite ch n _ => okCh ch && ok4 n
  | .dmaDescriptorFetch ch n => okCh ch && ok4 n
  | .dmaRequest ch n => okCh ch && ok4 n
  | .dmaUnitComplete ch n _ => okCh ch && ok4 n
  | .dmaDescriptorComplete ch n => okCh ch && ok4 n
  | .crRdWrite ch n _ => okCh ch && ok4 n
  | .crBaseWrite ch n _ _ => okCh ch && ok4 n
  | .dmaStreamDrop ch n => okCh ch && ok4 n
  | .dmaDropDrainEnd ch n => okCh ch && ok4 n
  | .timerCountingTick ch n => okCh ch && ok4 n
  | .timerWrap ch n => okCh ch && ok4 n
  | .timerMatch ch n _ => okCh ch && ok4 n
  | .timerCapture ch n _ _ => okCh ch && ok4 n
  | .capturePendingWrite ch n => okCh ch && ok4 n
  | .timerResync ch n => okCh ch && ok4 n
  | .eoi ch _ => okCh ch
  | .soft ch _ => okCh ch
  | .moderationHoldEnd ch src _ => okCh ch && okSrc src
  | .toneReload ch v => okCh ch && ok4 v
  | .noiseStep ch => okCh ch
  | .waveAdvance ch w => okCh ch && ok2 w
  | .clickAccept ch => okCh ch
  | .pcmData ch _ => okCh ch
  | .pcmTrigger ch clocks => okCh ch && ok32 clocks
  | .pcmSlow ch => okCh ch
  | .nodeGainWrite ch _ => okCh ch
  | .routeMove ch _ => okCh ch
  | .bqApply ch _ => okCh ch
  | .audioPacket ch => okCh ch
  | .pinInWindow ch => okCh ch
  | .lbDataRead ch => okCh ch
  | .pioJmp ch n => okCh ch && ok4 n
  | .pioWait ch cycle => okCh ch && ok4 cycle.n
  | .pioIn ch n => okCh ch && ok4 n
  | .pioOut ch n => okCh ch && ok4 n
  | .pioPush ch n => okCh ch && ok4 n
  | .pioPull ch n => okCh ch && ok4 n
  | .pioMov ch n => okCh ch && ok4 n
  | .pioSet ch n => okCh ch && ok4 n
  | .pioIrq ch cycle => okCh ch && ok4 cycle.n
  | .pioExch ch n => okCh ch && ok4 n
  | .programStoreWrite ch word _ => okCh ch && okWord word
  | .pioCtlWrite ch _ => okCh ch
  | .clksync ch _ => okCh ch
  | .pioIrqForce ch _ => okCh ch
  | .txf ch n _ => okCh ch && ok4 n
  | .rxf ch n => okCh ch && ok4 n
  | .pinLevelChange ch cp _ tick _ => okCh ch && okCp cp && ok64 tick
  | .pinLevelIrq ch cp => okCh ch && okCp cp
  | .patternMatch ch tick _ => okCh ch && ok64 tick
  | .gpioSet ch _ _ => okCh ch
  | .gpioClr ch _ _ => okCh ch
  | .gpioTgl ch _ _ => okCh ch
  | .functionChange ch n _ => okCh ch && okCp n
  | .pinlock ch _ => okCh ch
  | .evfDataRead ch => okCh ch
  | .lineDataRead ch l => okCh ch && ok4 l
  | .lineDataWrite ch l _ => okCh ch && ok4 l
  | .crGo ch _ => okCh ch
  | .ecbEncrypt ch => okCh ch
  | .ecbDecrypt ch => okCh ch
  | .cbcEncrypt ch => okCh ch
  | .cbcDecrypt ch => okCh ch
  | .ctr ch => okCh ch
  | .cmac ch => okCh ch
  | .macAlgorithm3 ch => okCh ch
  | .unwrap ch => okCh ch
  | .erase ch => okCh ch
  | .cryptoDone ch => okCh ch
  | .crAbort ch => okCh ch
  | .crDin ch _ => okCh ch
  | .crDout ch => okCh ch
  | .registerWrite w => okWrite w
  | .reservedOpcode ch op rest => okCh ch && okReserved op rest.b1 rest.b2 rest.b3
  | .mixTick ch since => okCh ch && ok32 since
  | .pwmPeriod ch n => okCh ch && ok2 n
  | .sensorClear sensor => okSensor sensor
  | .laneFailure _ => true
  | .readCompletion ch t _ => okCh ch && okTarget t
  | .readDoesNotComplete ch t => okCh ch && okTarget t

end Sys2Proof
end

