-- ==== Sys2Proof/Safety.lean ====
section
/-! DEFINITION. What the claims speak of: a channel that runs on a cell, a core that is ready for an instruction,
and the invariants of the hub. -/

namespace Sys2Proof.Machine

/-- Channel `ch` is offered and runs on cell `c`. -/
def State.runsOn (s : State) (ch : Nat) (c : Cell) : Prop :=
  (s.chan ch).cell = some c ∧ c.runs = true ∧ s.offers ch = true

/-- The state after an event of the cell of channel `ch` that leaves it as `c`: the level requests follow, and
what the cell hands over reaches the hub. -/
def State.becomes (s : State) (ch : Nat) (c : Cell) : State := s.cellEvent ch fun _ => c

/-- The core of `c` comes to `v` next (R100, R104, R118, R134): unpaced, with no debug halt, interrupt, delay slot, loop
end or refused fetch before it. -/
def Cell.reaches (c : Cell) (v : VInstr) : Prop :=
  c.executes = true ∧ c.haltDue v = false ∧ c.interruptDue = false ∧ c.paced = false ∧ c.core.slot = none ∧
  c.core.lend ≠ c.core.pc ∧ c.refusalN .fetch c.core.pc (c.core.fetchLen v) = none

/-- The core of `c` executes `v` next, and nothing in `v` or its context raises an exception (R116). -/
def Cell.plain (c : Cell) (v : VInstr) : Prop :=
  c.reaches v ∧ c.core.illegal v = false ∧ (supervisorOnly v = true → c.core.supervisor = true) ∧
  c.core.badContext v = false

/-- The cell that an instruction finds: a core that resumes from a breakpoint has now left it (R137), no entry comes
before the instruction (R135), and nothing has restarted its schedule (R152). -/
def Cell.begun (c : Cell) : Cell :=
  { c with core := { c.core with resumeAt := none, afterEntry := false, repaced := false } }

/-- The end of an instruction of `len` bytes and `cycles` cycles that falls through to the next one (R86, R155). -/
def Core.after (k : Core) (pc : Half) (len cycles : Nat) : Core :=
  { k with pc := pc + BitVec.ofNat 16 len, shadow := false, busy := k.busy + cycles }

/-- The cell after an instruction of `len` bytes and `cycles` cycles whose effect on the core is `f`, and which changes
nothing else. -/
def Cell.did (c : Cell) (len cycles : Nat) (f : Core → Core) : Cell :=
  { c with core := (f c.begun.core).after c.core.pc len cycles }

/-- The core with the result `r` in register `d`, or in the pair whose low register is `d`, and its flags. -/
def Core.putByte (k : Core) (d : Nat) (r : Result 8) : Core := (k.setReg d r.val).setFlags r.flags
def Core.putPair (k : Core) (d : Nat) (r : Result 16) : Core := (k.setPair d r.val).setFlags r.flags

/-- The hub is in a legal state (R31, R32, R34, R36, R445, R471): PHASE is one of the table's, READY mirrors phase 6h, the link is up
only past the security phase with PERST# high, and one of the two ringmasters is active. -/
def Hub.Legal (h : Hub) : Prop :=
  (h.phase ≤ 6 ∨ h.phase = 15) ∧ (h.ready = true ↔ h.phase = 6) ∧
  (h.linkUp = true → 1 ≤ h.phase ∧ h.phase ≤ 6 ∧ h.perstN = true) ∧
  (h.pwrgd = false → h.phase = 0) ∧ (h.active = 1 ∨ h.active = 2)

/-- What `t` keeps of `s`: the commands waiting, the part, the pins, the start-up phase, the link, the ringmaster in charge, the
rollback floor and the signing key (R9, R32, R34, R36, R41, R445, R453, R471). -/
structure State.Steady (s t : State) : Prop where
  pending : t.pending = s.pending
  part : t.hub.part = s.hub.part
  pwrgd : t.hub.pwrgd = s.hub.pwrgd
  perstN : t.hub.perstN = s.hub.perstN
  phase : t.hub.phase = s.hub.phase
  ready : t.hub.ready = s.hub.ready
  linkUp : t.hub.linkUp = s.hub.linkUp
  active : t.hub.active = s.hub.active
  floor : t.hub.keys.floor = s.hub.keys.floor
  signingKey : t.hub.keys.signingKey = s.hub.keys.signingKey

/-- `t` differs from `s`, in its dies and its channels, in channel `ch` at most. -/
structure State.Beside (ch : Nat) (s t : State) : Prop where
  dies : t.dies = s.dies
  others : ∀ m, m ≠ ch → t.chan m = s.chan m

/-- What every cell keeps of its form: the memories in their canonical form, four timers, lines, DMA streams and PIO
engines, and eight key slots (R17, R76, R277, R313, R350, R389, R454). -/
structure Cell.Shaped (c : Cell) : Prop where
  mem : c.mem.wf = true
  io : c.io.wf = true
  eff : c.eff.wf = true
  holds : c.holds.wf = true
  latched : c.latched.wf = true
  g : c.core.g.wf = true
  p : c.core.p.wf = true
  timers : c.timers.length = 4
  lines : c.lines.length = 4
  dma : c.dma.length = 4
  engines : c.pio.engines.length = 4
  slots : c.slots.length = 8

/-- What the part keeps of its form: moulds whose memory stands in its canonical form, sixteen queues on every channel, and
every cell in its form. -/
structure State.Shaped (s : State) : Prop where
  moulds : ∀ i, s.hub.image = some i ∨ s.hub.read = some i → ∀ m ∈ i.moulds, m.memory.wf = true
  queues : ∀ ch, (s.chan ch).queues.length = 16
  cells : ∀ ch c, (s.chan ch).cell = some c → c.Shaped

end Sys2Proof.Machine

namespace Sys2Proof

/-- The channel whose cell alone an event concerns: `none` for commands and events of the hub, and for those of the
beam and of an attached debugger that the ringmaster takes part in. -/
def cellOf : Instr → Option Nat
  | .powerOnReset _ => none
  | .resetN _ => none
  | .pwrgdFalling => none
  | .vbatAndMainPowerRemoved => none
  | .perstAsserted => none
  | .perstReleased => none
  | .securityPhase _ => none
  | .selfTestPhase _ _ => none
  | .imageReadPhase _ _ _ => none
  | .imageLoadPhase => none
  | .castingPhase _ => none
  | .ready => none
  | .configurationRequest _ => none
  | .unsupportedRequest => none
  | .d3hot => none
  | .functionLevelReset _ => none
  | .pf0FunctionLevelReset => none
  | .queueArm _ _ => none
  | .queueDisarm _ _ => none
  | .inboundDoorbell _ _ => none
  | .outboundDoorbell _ _ => none
  | .holdoffEnd _ => none
  | .carouselVisit _ => none
  | .cast _ _ _ _ => none
  | .castComplete _ => none
  | .stop _ _ _ => none
  | .drainEnd _ => none
  | .clone _ _ _ _ => none
  | .streamRefresh _ _ _ _ => none
  | .svcSelect _ _ => none
  | .svcWakeWaitEnd => none
  | .servicePush => none
  | .tearingEffectEdge => none
  | .dbgAttach _ _ _ => none
  | .dbgHalt _ _ _ => none
  | .debugHaltTaken ch => some ch
  | .breakpointHalt ch _ => some ch
  | .dbgStep _ _ _ => none
  | .dbgResume _ _ _ => none
  | .dbgRead _ _ _ _ _ _ _ => none
  | .dbgWrite _ _ _ _ _ _ => none
  | .dbgBreak _ _ _ _ => none
  | .dbgDetach _ _ _ => none
  | .imageBegin _ => none
  | .imageWrite _ _ _ => none
  | .imageCommit _ _ => none
  | .readCatchLog _ _ _ => none
  | .readLockup _ _ _ _ => none
  | .readHealth _ _ _ => none
  | .readForecast _ _ _ => none
  | .readSecurity _ _ _ => none
  | .readCounters _ _ _ => none
  | .undefinedOpcode _ _ _ => none
  | .refresh _ _ => none
  | .vfStateRead _ => none
  | .readByte _ => none
  | .readWord _ => none
  | .blockRead _ _ => none
  | .writeByte _ _ => none
  | .alertResponseAddress => none
  | .smbusTimeout => none
  | .doeDiscovery => none
  | .getVersion => none
  | .getCapabilities => none
  | .negotiateAlgorithms => none
  | .getDigests => none
  | .getCertificate _ _ => none
  | .challenge _ => none
  | .getMeasurements _ => none
  | .keyExchange _ => none
  | .finish _ _ => none
  | .heartbeat _ => none
  | .keyUpdate _ => none
  | .endSession _ => none
  | .ideKm _ _ _ _ => none
  | .kSetGo _ _ _ => none
  | .keyProvision _ _ _ _ _ => none
  | .tamperAlarm _ _ => none
  | .lockstepMismatch _ _ _ _ => none
  | .uncorrectableError _ _ _ _ _ => none
  | .residueMismatch _ _ _ => none
  | .catchReserveLoaded _ => none
  | .faultPointReached _ => none
  | .goingLive _ _ _ => none
  | .ringmasterFailover => none
  | .agingMarginLow _ _ _ _ => none
  | .plannedCatchPause _ => none
  | .checkpointSnapshot _ => none
  | .forcedCheckpoint _ => none
  | .checkpointCopyComplete _ _ => none
  | .slotScrub _ _ => none
  | .kilnDailyTest _ => none
  | .blockScopeTest _ => none
  | .kilnTestComplete _ _ => none
  | .cellScopeTest _ => none
  | .cellScopeTestEnd _ _ _ => none
  | .repairRecordWrite _ => none
  | .frameBoundary _ => none
  | .vbl ch => some ch
  | .blinkToggle ch => some ch
  | .beamCompareMatch ch _ => some ch
  | .commit ch => some ch
  | .cut _ => none
  | .transfer ch => some ch
  | .installTick ch => some ch
  | .rsWait ch => some ch
  | .rsWrite ch => some ch
  | .rsSkip ch => some ch
  | .rsBranch ch => some ch
  | .rsEnd ch => some ch
  | .spriteSearch ch => some ch
  | .spriteSpriteCollision ch _ _ => some ch
  | .spritePlaneCollision ch _ _ => some ch
  | .layerUnderrun ch _ _ => some ch
  | .guardCompare ch _ => some ch
  | .bandClose ch _ => some ch
  | .refreshAll ch => some ch
  | .napRequest ch _ => some ch
  | .napEntry ch => some ch
  | .pinWakeLatch ch _ _ => some ch
  | .hostArrivalLatch ch _ => some ch
  | .wake ch _ => some ch
  | .pinPauseLatch _ _ _ => none
  | .exceptionEntry ch => some ch
  | .waitEnd ch => some ch
  | .nop ch => some ch
  | .ret ch => some ch
  | .rte ch => some ch
  | .setm ch => some ch
  | .clrm ch => some ch
  | .usr ch => some ch
  | .wait ch => some ch
  | .trap ch _ => some ch
  | .spillw ch _ => some ch
  | .fillw ch _ => some ch
  | .mvb ch _ _ => some ch
  | .cmb ch _ _ => some ch
  | .flb ch _ _ => some ch
  | .mov ch _ _ => some ch
  | .movw ch _ _ => some ch
  | .ld ch _ _ => some ch
  | .st ch _ _ => some ch
  | .ldw ch _ _ => some ch
  | .stw ch _ _ => some ch
  | .lea ch _ _ => some ch
  | .push ch _ => some ch
  | .pop ch _ => some ch
  | .pushw ch _ => some ch
  | .popw ch _ => some ch
  | .mfs ch _ _ => some ch
  | .mts ch _ _ => some ch
  | .xch ch _ _ => some ch
  | .add ch _ _ => some ch
  | .adc ch _ _ => some ch
  | .sub ch _ _ => some ch
  | .sbc ch _ _ => some ch
  | .and ch _ _ => some ch
  | .or ch _ _ => some ch
  | .xor ch _ _ => some ch
  | .cmp ch _ _ => some ch
  | .addw ch _ _ => some ch
  | .adcw ch _ _ => some ch
  | .subw ch _ _ => some ch
  | .sbcw ch _ _ => some ch
  | .andw ch _ _ => some ch
  | .orw ch _ _ => some ch
  | .xorw ch _ _ => some ch
  | .cmpw ch _ _ => some ch
  | .inc ch _ => some ch
  | .dec ch _ => some ch
  | .neg ch _ => some ch
  | .not ch _ => some ch
  | .clr ch _ => some ch
  | .tst ch _ => some ch
  | .swapn ch _ => some ch
  | .incw ch _ => some ch
  | .decw ch _ => some ch
  | .negw ch _ => some ch
  | .notw ch _ => some ch
  | .clrw ch _ => some ch
  | .tstw ch _ => some ch
  | .sexw ch _ => some ch
  | .zexw ch _ => some ch
  | .shl ch _ _ => some ch
  | .shr ch _ _ => some ch
  | .sar ch _ _ => some ch
  | .rol ch _ _ => some ch
  | .ror ch _ _ => some ch
  | .rcl ch _ _ => some ch
  | .rcr ch _ _ => some ch
  | .shlw ch _ _ => some ch
  | .shrw ch _ _ => some ch
  | .sarw ch _ _ => some ch
  | .rolw ch _ _ => some ch
  | .rorw ch _ _ => some ch
  | .rclw ch _ _ => some ch
  | .rcrw ch _ _ => some ch
  | .mul ch _ _ => some ch
  | .muls ch _ _ => some ch
  | .div ch _ _ => some ch
  | .divs ch _ _ => some ch
  | .bfx ch _ _ _ => some ch
  | .bfi ch _ _ _ => some ch
  | .clz ch _ _ => some ch
  | .bperm ch _ _ => some ch
  | .jmp ch _ => some ch
  | .call ch _ => some ch
  | .loop ch _ _ => some ch
  | .bcc ch _ _ => some ch
  | .bccL ch _ _ => some ch
  | .uop ch _ _ _ _ => some ch
  | .dtEntryWrite ch _ => some ch
  | .ucDataWrite ch _ => some ch
  | .ucDataRead ch _ => some ch
  | .ucCtlLock ch => some ch
  | .ptDataWrite ch _ => some ch
  | .paceRateWrite ch _ _ => some ch
  | .pacedWrite ch _ => some ch
  | .palHiWrite ch _ => some ch
  | .tblDataWrite ch _ => some ch
  | .bltGo ch => some ch
  | .bltCommandFetch ch => some ch
  | .bltNop ch => some ch
  | .copy ch _ => some ch
  | .fill ch _ => some ch
  | .patfill ch _ => some ch
  | .line ch _ => some ch
  | .keycopy ch _ => some ch
  | .expand ch _ => some ch
  | .setclip ch => some ch
  | .bltJump ch => some ch
  | .bltCommandEnd ch => some ch
  | .bltAbort ch => some ch
  | .descPtrWrite ch _ _ => some ch
  | .dmaDescriptorFetch ch _ => some ch
  | .dmaRequest ch _ => some ch
  | .dmaUnitComplete ch _ _ => some ch
  | .dmaDescriptorComplete ch _ => some ch
  | .crRdWrite ch _ _ => some ch
  | .crBaseWrite ch _ _ _ => some ch
  | .dmaStreamDrop ch _ => some ch
  | .dmaDropDrainEnd ch _ => some ch
  | .timerCountingTick ch _ => some ch
  | .timerWrap ch _ => some ch
  | .timerMatch ch _ _ => some ch
  | .timerCapture ch _ _ _ => some ch
  | .capturePendingWrite ch _ => some ch
  | .timerResync ch _ => some ch
  | .eoi ch _ => some ch
  | .soft ch _ => some ch
  | .moderationHoldEnd ch _ _ => some ch
  | .toneReload ch _ => some ch
  | .noiseStep ch => some ch
  | .waveAdvance ch _ => some ch
  | .clickAccept ch => some ch
  | .pcmData ch _ => some ch
  | .pcmTrigger ch _ => some ch
  | .pcmSlow ch => some ch
  | .nodeGainWrite ch _ => some ch
  | .routeMove ch _ => some ch
  | .bqApply ch _ => some ch
  | .audioPacket ch => some ch
  | .pinInWindow ch => some ch
  | .lbDataRead ch => some ch
  | .pioJmp ch _ => some ch
  | .pioWait ch _ => some ch
  | .pioIn ch _ => some ch
  | .pioOut ch _ => some ch
  | .pioPush ch _ => some ch
  | .pioPull ch _ => some ch
  | .pioMov ch _ => some ch
  | .pioSet ch _ => some ch
  | .pioIrq ch _ => some ch
  | .pioExch ch _ => some ch
  | .programStoreWrite ch _ _ => some ch
  | .pioCtlWrite ch _ => some ch
  | .clksync ch _ => some ch
  | .pioIrqForce ch _ => some ch
  | .txf ch _ _ => some ch
  | .rxf ch _ => some ch
  | .pinLevelChange ch _ _ _ _ => some ch
  | .pinLevelIrq ch _ => some ch
  | .patternMatch ch _ _ => some ch
  | .gpioSet ch _ _ => some ch
  | .gpioClr ch _ _ => some ch
  | .gpioTgl ch _ _ => some ch
  | .functionChange ch _ _ => some ch
  | .pinlock ch _ => some ch
  | .evfDataRead ch => some ch
  | .lineDataRead ch _ => some ch
  | .lineDataWrite ch _ _ => some ch
  | .crGo ch _ => some ch
  | .ecbEncrypt ch => some ch
  | .ecbDecrypt ch => some ch
  | .cbcEncrypt ch => some ch
  | .cbcDecrypt ch => some ch
  | .ctr ch => some ch
  | .cmac ch => some ch
  | .macAlgorithm3 ch => some ch
  | .unwrap ch => some ch
  | .erase ch => some ch
  | .cryptoDone ch => some ch
  | .crAbort ch => some ch
  | .crDin ch _ => some ch
  | .crDout ch => some ch
  | .registerWrite _ => none
  | .reservedOpcode ch _ _ => some ch
  | .mixTick ch _ => some ch
  | .pwmPeriod ch _ => some ch
  | .sensorClear _ => none
  | .laneFailure _ => none
  | .readCompletion _ _ _ => none
  | .readDoesNotComplete _ _ => none

end Sys2Proof
end

