-- ==== Sys2Proof/Certificates/Slice0/Obligations.lean ====
section
/-! DEFINITION. The statements for the provers. -/

open Sys2Proof Sys2Proof.Machine

/-! ### The Voleth core: results and flags -/

/-- R91, R93: each byte operation writes its result and its flags, in one cycle and three bytes. CMP writes only the
flags. Nothing else of the cell changes.

R91, R93: each pair operation writes its result and its flags, in two cycles; the immediate form is a byte
longer. -/
def Obligations.ByteAndPairOperationsCompute : Prop :=
  (∀ (s : State) (ch : Nat) (c : Cell) (rd : BitVec 5) (src : ByteSrc) (d : Nat) (b : Byte),
    s.runsOn ch c → regOf5 rd = some d → c.core.byteSrc src = some b →
    let a := c.core.reg d
    (c.plain (.alu .add rd src) →
      exec (.add ch rd src) s = .next (s.becomes ch (c.did 3 1 (·.putByte d (addc a b false))))) ∧
    (c.plain (.alu .adc rd src) →
      exec (.adc ch rd src) s = .next (s.becomes ch (c.did 3 1 (·.putByte d (addc a b c.core.flagC))))) ∧
    (c.plain (.alu .sub rd src) →
      exec (.sub ch rd src) s = .next (s.becomes ch (c.did 3 1 (·.putByte d (subc a b false))))) ∧
    (c.plain (.alu .sbc rd src) →
      exec (.sbc ch rd src) s = .next (s.becomes ch (c.did 3 1 (·.putByte d (subc a b c.core.flagC))))) ∧
    (c.plain (.alu .and rd src) →
      exec (.and ch rd src) s = .next (s.becomes ch (c.did 3 1 (·.putByte d (logic (a &&& b)))))) ∧
    (c.plain (.alu .or rd src) →
      exec (.or ch rd src) s = .next (s.becomes ch (c.did 3 1 (·.putByte d (logic (a ||| b)))))) ∧
    (c.plain (.alu .xor rd src) →
      exec (.xor ch rd src) s = .next (s.becomes ch (c.did 3 1 (·.putByte d (logic (a ^^^ b)))))) ∧
    (c.plain (.alu .cmp rd src) →
      exec (.cmp ch rd src) s = .next (s.becomes ch (c.did 3 1 (·.setFlags (subc a b false).flags))))) ∧
  (∀ (s : State) (ch : Nat) (c : Cell) (pd : BitVec 5) (src : PairSrc) (d : Nat) (b : Half),
    s.runsOn ch c → pairOf5 pd = some d → c.core.pairSrc src = some b →
    let a := c.core.pair d
    let len := match src with
      | .pair _ => 3
      | .imm _ => 4
    (c.plain (.aluw .add pd src) →
      exec (.addw ch pd src) s = .next (s.becomes ch (c.did len 2 (·.putPair d (addc a b false))))) ∧
    (c.plain (.aluw .adc pd src) →
      exec (.adcw ch pd src) s = .next (s.becomes ch (c.did len 2 (·.putPair d (addc a b c.core.flagC))))) ∧
    (c.plain (.aluw .sub pd src) →
      exec (.subw ch pd src) s = .next (s.becomes ch (c.did len 2 (·.putPair d (subc a b false))))) ∧
    (c.plain (.aluw .sbc pd src) →
      exec (.sbcw ch pd src) s = .next (s.becomes ch (c.did len 2 (·.putPair d (subc a b c.core.flagC))))) ∧
    (c.plain (.aluw .and pd src) →
      exec (.andw ch pd src) s = .next (s.becomes ch (c.did len 2 (·.putPair d (logic (a &&& b)))))) ∧
    (c.plain (.aluw .or pd src) →
      exec (.orw ch pd src) s = .next (s.becomes ch (c.did len 2 (·.putPair d (logic (a ||| b)))))) ∧
    (c.plain (.aluw .xor pd src) →
      exec (.xorw ch pd src) s = .next (s.becomes ch (c.did len 2 (·.putPair d (logic (a ^^^ b)))))) ∧
    (c.plain (.aluw .cmp pd src) →
      exec (.cmpw ch pd src) s = .next (s.becomes ch (c.did len 2 (·.setFlags (subc a b false).flags)))))

/-- R91, R93, R94: the operations of one register and of one pair. TST and TSTW write only the flags.

R95: the shifts and rotates of a register (one cycle) and of a pair (two cycles), by an immediate or a register
count. -/
def Obligations.UnaryOperationsAndShiftsCompute : Prop :=
  (∀ (s : State) (ch : Nat) (c : Cell) (rd pd : BitVec 5) (d e : Nat),
    s.runsOn ch c → regOf5 rd = some d → pairOf5 pd = some e →
    let a := c.core.reg d
    let w := c.core.pair e
    (c.plain (.un .inc rd) → exec (.inc ch rd) s = .next (s.becomes ch (c.did 2 1 (·.putByte d (incOp a))))) ∧
    (c.plain (.un .dec rd) → exec (.dec ch rd) s = .next (s.becomes ch (c.did 2 1 (·.putByte d (decOp a))))) ∧
    (c.plain (.un .neg rd) → exec (.neg ch rd) s = .next (s.becomes ch (c.did 2 1 (·.putByte d (negOp a))))) ∧
    (c.plain (.un .not rd) → exec (.not ch rd) s = .next (s.becomes ch (c.did 2 1 (·.putByte d (notOp a))))) ∧
    (c.plain (.un .clr rd) → exec (.clr ch rd) s = .next (s.becomes ch (c.did 2 1 (·.putByte d (clrOp 8))))) ∧
    (c.plain (.un .tst rd) → exec (.tst ch rd) s = .next (s.becomes ch (c.did 2 1 (·.setFlags (tstOp a).flags)))) ∧
    (c.plain (.un .swapn rd) →
      exec (.swapn ch rd) s = .next (s.becomes ch (c.did 2 1 (·.putByte d (swapnOp a))))) ∧
    (c.plain (.unw .inc pd) → exec (.incw ch pd) s = .next (s.becomes ch (c.did 2 2 (·.putPair e (incOp w))))) ∧
    (c.plain (.unw .dec pd) → exec (.decw ch pd) s = .next (s.becomes ch (c.did 2 2 (·.putPair e (decOp w))))) ∧
    (c.plain (.unw .neg pd) → exec (.negw ch pd) s = .next (s.becomes ch (c.did 2 2 (·.putPair e (negOp w))))) ∧
    (c.plain (.unw .not pd) → exec (.notw ch pd) s = .next (s.becomes ch (c.did 2 2 (·.putPair e (notOp w))))) ∧
    (c.plain (.unw .clr pd) → exec (.clrw ch pd) s = .next (s.becomes ch (c.did 2 2 (·.putPair e (clrOp 16))))) ∧
    (c.plain (.unw .tst pd) →
      exec (.tstw ch pd) s = .next (s.becomes ch (c.did 2 2 (·.setFlags (tstOp w).flags)))) ∧
    (c.plain (.unw .sex pd) → exec (.sexw ch pd) s = .next (s.becomes ch (c.did 2 2 (·.putPair e (sexOp w))))) ∧
    (c.plain (.unw .zex pd) → exec (.zexw ch pd) s = .next (s.becomes ch (c.did 2 2 (·.putPair e (zexOp w)))))) ∧
  (∀ (s : State) (ch : Nat) (c : Cell) (rd pd : BitVec 5) (src : ByteSrc) (d e : Nat) (n : Byte),
    s.runsOn ch c → regOf5 rd = some d → pairOf5 pd = some e → c.core.byteSrc src = some n →
    let a := c.core.reg d
    let w := c.core.pair e
    let cf := c.core.flagC
    let byte (op : ShOp) : State := s.becomes ch (c.did 3 1 (·.putByte d (shiftOp op a n cf)))
    let pair (op : ShOp) : State := s.becomes ch (c.did 3 2 (·.putPair e (shiftOp op w n cf)))
    (c.plain (.sh .shl rd src) → exec (.shl ch rd src) s = .next (byte .shl)) ∧
    (c.plain (.sh .shr rd src) → exec (.shr ch rd src) s = .next (byte .shr)) ∧
    (c.plain (.sh .sar rd src) → exec (.sar ch rd src) s = .next (byte .sar)) ∧
    (c.plain (.sh .rol rd src) → exec (.rol ch rd src) s = .next (byte .rol)) ∧
    (c.plain (.sh .ror rd src) → exec (.ror ch rd src) s = .next (byte .ror)) ∧
    (c.plain (.sh .rcl rd src) → exec (.rcl ch rd src) s = .next (byte .rcl)) ∧
    (c.plain (.sh .rcr rd src) → exec (.rcr ch rd src) s = .next (byte .rcr)) ∧
    (c.plain (.shw .shl pd src) → exec (.shlw ch pd src) s = .next (pair .shl)) ∧
    (c.plain (.shw .shr pd src) → exec (.shrw ch pd src) s = .next (pair .shr)) ∧
    (c.plain (.shw .sar pd src) → exec (.sarw ch pd src) s = .next (pair .sar)) ∧
    (c.plain (.shw .rol pd src) → exec (.rolw ch pd src) s = .next (pair .rol)) ∧
    (c.plain (.shw .ror pd src) → exec (.rorw ch pd src) s = .next (pair .ror)) ∧
    (c.plain (.shw .rcl pd src) → exec (.rclw ch pd src) s = .next (pair .rcl)) ∧
    (c.plain (.shw .rcr pd src) → exec (.rcrw ch pd src) s = .next (pair .rcr)))

/-- R94, R96: MUL and MULS write the product into the pair; DIV and DIVS the quotient and the remainder, in 9 and 10
cycles. A divisor of 0 with DZE = 1 writes its results too, and is then taken as the divide exception, through
vector 4 with the saved PC after the instruction (R124).

R94, R96: a division that fits is exact. The quotient is in the low register, and the remainder in the high one is below
the divisor, and for DIVS of the dividend's sign; the other cases have the results of the table. -/
def Obligations.MultiplyAndDivide : Prop :=
  (∀ (s : State) (ch : Nat) (c : Cell) (pd : BitVec 5) (b2 : Byte) (d r : Nat),
    s.runsOn ch c → pairOf5 pd = some d → regOf b2 = some r →
    let x := c.core.reg d
    let w := c.core.pair d
    let y := c.core.reg r
    let traps := y = 0#8 ∧ (c.io.rd 0xE000).getLsbD 0 = true
    (c.plain (.mul false pd b2) →
      exec (.mul ch pd b2) s = .next (s.becomes ch (c.did 3 2 (·.putPair d (mulOp false x y))))) ∧
    (c.plain (.mul true pd b2) →
      exec (.muls ch pd b2) s = .next (s.becomes ch (c.did 3 2 (·.putPair d (mulOp true x y))))) ∧
    (c.plain (.div false pd b2) → ¬ traps →
      exec (.div ch pd b2) s = .next (s.becomes ch (c.did 3 9 (·.putPair d (divOp false w y))))) ∧
    (c.plain (.div true pd b2) → ¬ traps →
      exec (.divs ch pd b2) s = .next (s.becomes ch (c.did 3 10 (·.putPair d (divOp true w y))))) ∧
    (c.plain (.div false pd b2) → traps →
      exec (.div ch pd b2) s = .next (s.becomes ch
        ((c.did 3 9 (·.putPair d (divOp false w y))).enter (c.core.pc + 3#16) 4 4#8))) ∧
    (c.plain (.div true pd b2) → traps →
      exec (.divs ch pd b2) s = .next (s.becomes ch
        ((c.did 3 10 (·.putPair d (divOp true w y))).enter (c.core.pc + 3#16) 4 4#8)))) ∧
  ((∀ (a : Half) (b : Byte), b ≠ 0#8 →
    let r := divOp false a b
    let q : Byte := r.val.extractLsb' 0 8
    let m : Byte := r.val.extractLsb' 8 8
    (a.toNat / b.toNat ≤ 255 → a.toNat = q.toNat * b.toNat + m.toNat ∧ m.toNat < b.toNat ∧
      r.flags.v = some false ∧ r.flags.c = some false) ∧
    (255 < a.toNat / b.toNat → r.val = 0x00FF#16 ∧ r.flags.v = some true ∧ r.flags.c = some false)) ∧
  (∀ (a : Half) (b : Byte), b ≠ 0#8 →
    let r := divOp true a b
    let q : Byte := r.val.extractLsb' 0 8
    let m : Byte := r.val.extractLsb' 8 8
    let fits := -128 ≤ a.toInt.tdiv b.toInt ∧ a.toInt.tdiv b.toInt ≤ 127
    (fits → a.toInt = q.toInt * b.toInt + m.toInt ∧ m.toInt.natAbs < b.toInt.natAbs ∧
      (m.toInt ≠ 0 → m.toInt.sign = a.toInt.sign) ∧ r.flags.v = some false ∧ r.flags.c = some false) ∧
    (¬ fits → r.val = 0x0080#16 ∧ r.flags.v = some true ∧ r.flags.c = some false)) ∧
  (∀ (a : Half) (signed : Bool),
    let r := divOp signed a 0#8
    r.val = a.extractLsb' 0 8 ++ 0xFF#8 ∧ r.flags.v = some true ∧ r.flags.c = some true))

/-- R97, R98, R99: the bit-field operations on registers (one cycle) and on pairs (two cycles), CLZ of a register and of
a pair, and BPERM by an immediate or a register selector. -/
def Obligations.BitFieldsAndPermutation : Prop :=
  ∀ (s : State) (ch : Nat) (c : Cell), s.runsOn ch c →
    (∀ (b1 b2 b3 : Byte) (f : BitField), bitField b1 b2 b3 = some f → f.wide = false → c.plain (.bfx b1 b2 b3) →
      exec (.bfx ch b1 b2 b3) s = .next (s.becomes ch
        (c.did 4 1 (·.putByte f.rd (bfxOp (c.core.reg f.rs) f.pos f.width (b1.getLsbD 7)))))) ∧
    (∀ (b1 b2 b3 : Byte) (f : BitField), bitField b1 b2 b3 = some f → f.wide = true → c.plain (.bfx b1 b2 b3) →
      exec (.bfx ch b1 b2 b3) s = .next (s.becomes ch
        (c.did 4 2 (·.putPair f.rd (bfxOp (c.core.pair f.rs) f.pos f.width (b1.getLsbD 7)))))) ∧
    (∀ (b1 b2 b3 : Byte) (f : BitField), bitField b1 b2 b3 = some f → f.wide = false → c.plain (.bfi b1 b2 b3) →
      exec (.bfi ch b1 b2 b3) s = .next (s.becomes ch
        (c.did 4 1 (·.putByte f.rd (bfiOp (c.core.reg f.rd) (c.core.reg f.rs) f.pos f.width))))) ∧
    (∀ (b1 b2 b3 : Byte) (f : BitField), bitField b1 b2 b3 = some f → f.wide = true → c.plain (.bfi b1 b2 b3) →
      exec (.bfi ch b1 b2 b3) s = .next (s.becomes ch
        (c.did 4 2 (·.putPair f.rd (bfiOp (c.core.pair f.rd) (c.core.pair f.rs) f.pos f.width))))) ∧
    (∀ (rd : BitVec 5) (b2 : Byte) (d r : Nat), regOf5 rd = some d → regOf b2 = some r →
      c.plain (.clz (rd.setWidth 8) b2) →
      exec (.clz ch (rd.setWidth 8) b2) s = .next (s.becomes ch (c.did 3 1 (·.putByte d (clzOp (c.core.reg r)))))) ∧
    (∀ (rd : BitVec 5) (b2 : Byte) (d r : Nat), regOf5 rd = some d → pairOf b2 = some r →
      c.plain (.clz (0x20#8 ||| rd.setWidth 8) b2) →
      exec (.clz ch (0x20#8 ||| rd.setWidth 8) b2) s =
        .next (s.becomes ch (c.did 3 1 (·.putByte d (clzOp (c.core.pair r)))))) ∧
    (∀ (b1 sel : Byte) (q r : Nat), quadFields b1 = some (q, r) → c.plain (.bpermI b1 sel) →
      exec (.bperm ch b1 (.imm sel)) s =
        .next (s.becomes ch (c.did 3 2 (·.setQuad q (bpermOp (c.core.quad r) sel))))) ∧
    (∀ (b1 b2 : Byte) (q r n : Nat), quadFields b1 = some (q, r) → regOf b2 = some n → c.plain (.bpermR b1 b2) →
      exec (.bperm ch b1 (.reg b2)) s =
        .next (s.becomes ch (c.did 3 2 (·.setQuad q (bpermOp (c.core.quad r) (c.core.reg n))))))

/-- R506: H of every addition and subtraction, for bytes and for pairs. -/
def Obligations.HalfCarry : Prop :=
  (∀ (a b : Byte) (c : Bool),
    let x := (a &&& 0x0F#8).toNat
    let y := (b &&& 0x0F#8).toNat
    (aluOp .add a b c).flags.h = some (decide (0x0F < x + y)) ∧
    (aluOp .adc a b c).flags.h = some (decide (0x0F < x + y + c.toNat)) ∧
    (aluOp .sub a b c).flags.h = some (decide (x < y)) ∧
    (aluOp .sbc a b c).flags.h = some (decide (x < y + c.toNat)) ∧
    (aluOp .cmp a b c).flags.h = some (decide (x < y)) ∧
    (unOp .inc a).flags.h = some (decide (0x0F < x + 1)) ∧
    (unOp .dec a).flags.h = some (decide (x < 1)) ∧
    (unOp .neg a).flags.h = some (decide (0 < x))) ∧
  (∀ (a b : Half) (c : Bool),
    let x := (a &&& 0x0FFF#16).toNat
    let y := (b &&& 0x0FFF#16).toNat
    (aluOp .add a b c).flags.h = some (decide (0x0FFF < x + y)) ∧
    (aluOp .adc a b c).flags.h = some (decide (0x0FFF < x + y + c.toNat)) ∧
    (aluOp .sub a b c).flags.h = some (decide (x < y)) ∧
    (aluOp .sbc a b c).flags.h = some (decide (x < y + c.toNat)) ∧
    (aluOp .cmp a b c).flags.h = some (decide (x < y)) ∧
    (unwOp .inc a).flags.h = some (decide (0x0FFF < x + 1)) ∧
    (unwOp .dec a).flags.h = some (decide (x < 1)) ∧
    (unwOp .neg a).flags.h = some (decide (0 < x)))

/-- R93: STATUS after a flag update, bit by bit: H, N, V, C and Z where the operation names them, and every other bit,
with LP, SV and GM among them, as it was. -/
def Obligations.FlagsTouchOnlyTheirBits : Prop :=
  ∀ (f : FlagUpdate) (st : Byte),
    ((f.apply st).getLsbD 4 = f.h.getD (st.getLsbD 4)) ∧
    ((f.apply st).getLsbD 3 = f.n.getD (st.getLsbD 3)) ∧
    ((f.apply st).getLsbD 2 = f.v.getD (st.getLsbD 2)) ∧
    ((f.apply st).getLsbD 1 = f.c.getD (st.getLsbD 1)) ∧
    ((f.apply st).getLsbD 0 = f.z.getD (st.getLsbD 0)) ∧
    (∀ i, 5 ≤ i → (f.apply st).getLsbD i = st.getLsbD i)

/-- R90, R92, R93, R504: the moves, XCH, LEA and MFS write their destinations and no flag; XCH reads both registers
before it writes either.

R67, R109, R110, R125: MTS writes a special register, and SETM, CLRM and USR the mode bits of STATUS; SETM, CLRM, USR and an
MTS that clears SV are followed by the mode-change shadow. NOP changes nothing, and WAIT stops the core. -/
def Obligations.MovesModesAndSpecialRegisters : Prop :=
  (∀ (s : State) (ch : Nat) (c : Cell), s.runsOn ch c →
    (∀ (b1 : Byte) (src : ByteSrc) (d : Nat) (v : Byte), regOf b1 = some d → c.core.byteSrc src = some v →
      c.plain (.mov b1 src) →
      exec (.mov ch b1 src) s = .next (s.becomes ch (c.did 3 1 (·.setReg d v)))) ∧
    (∀ (b1 b2 : Byte) (d r : Nat), pairOf b1 = some d → pairOf b2 = some r → c.plain (.movw b1 (.pair b2)) →
      exec (.movw ch b1 (.pair b2)) s = .next (s.becomes ch (c.did 3 1 (·.setPair d (c.core.pair r))))) ∧
    (∀ (b1 : Byte) (n : Half) (d : Nat), pairOf b1 = some d → c.plain (.movw b1 (.imm n)) →
      exec (.movw ch b1 (.imm n)) s = .next (s.becomes ch (c.did 4 1 (·.setPair d n)))) ∧
    (∀ (b1 b2 : Byte) (d r : Nat), regOf b1 = some d → regOf b2 = some r → c.plain (.xch b1 b2) →
      exec (.xch ch b1 b2) s =
        .next (s.becomes ch (c.did 3 1 fun k => (k.setReg d (c.core.reg r)).setReg r (c.core.reg d)))) ∧
    (∀ (pd : BitVec 5) (m : MemOp) (d : Nat) (e : Ea), pairOf5 pd = some d →
      c.core.ea m 1 (c.core.pc + BitVec.ofNat 16 m.len) = some e → c.plain (.lea pd m) →
      exec (.lea ch pd m) s =
        .next (s.becomes ch (c.did m.len 1 fun k => (k.updateBase e).setPair d e.addr))) ∧
    (∀ (b1 sr : Byte) (d : Nat), specialField b1 sr = some d → specialWide sr.toNat = false →
      c.plain (.mfs b1 sr) →
      exec (.mfs ch b1 sr) s =
        .next (s.becomes ch (c.did 3 1 (·.setReg d ((c.core.special sr.toNat).setWidth 8))))) ∧
    (∀ (b1 sr : Byte) (d : Nat), specialField b1 sr = some d → specialWide sr.toNat = true →
      c.plain (.mfs b1 sr) →
      exec (.mfs ch b1 sr) s = .next (s.becomes ch (c.did 3 1 (·.setPair d (c.core.special sr.toNat)))))) ∧
  (∀ (s : State) (ch : Nat) (c : Cell), s.runsOn ch c →
    let k := c.begun.core
    let pc := c.core.pc
    (c.plain .nop → exec (.nop ch) s = .next (s.becomes ch (c.did 1 1 id))) ∧
    (c.plain .wait → exec (.wait ch) s = .next (s.becomes ch (c.did 1 1 fun k => { k with waiting := true }))) ∧
    (c.plain .setm → exec (.setm ch) s = .next (s.becomes ch
      { c with core := { k.after pc 1 1 with status := k.status ||| 0x80#8, shadow := true } })) ∧
    (c.plain .clrm → exec (.clrm ch) s = .next (s.becomes ch
      { c with core := { k.after pc 1 1 with status := k.status &&& 0x7F#8, shadow := true } })) ∧
    (c.plain .usr → exec (.usr ch) s = .next (s.becomes ch
      { c with core := { k.after pc 1 1 with status := k.status &&& 0xBF#8, shadow := true } })) ∧
    (∀ (sr b1 : Byte) (r : Nat), specialField b1 sr = some r → specialWide sr.toNat = false → c.plain (.mts sr b1) →
      exec (.mts ch sr b1) s = .next (s.becomes ch
        { c with core :=
          { (k.setSpecial sr.toNat ((k.reg r).setWidth 16)).after pc 3 1 with
            shadow := k.supervisor && !(k.setSpecial sr.toNat ((k.reg r).setWidth 16)).supervisor } })) ∧
    (∀ (sr b1 : Byte) (r : Nat), specialField b1 sr = some r → specialWide sr.toNat = true →
      (k.setSpecial sr.toNat (k.pair r)).lend ≠ pc → c.plain (.mts sr b1) →
      exec (.mts ch sr b1) s = .next (s.becomes ch
        { c with core := (k.setSpecial sr.toNat (k.pair r)).after pc 3 1 })))

/-- R69, R78, R81, R82, R502: loads, stores and the stack. The value stored is read before the base or the stack
pointer is updated; a byte access takes two cycles and a pair access three. -/
def Obligations.LoadsAndStores : Prop :=
  ∀ (s : State) (ch : Nat) (c : Cell), s.runsOn ch c →
    let k := c.begun.core
    let pc := c.core.pc
    (∀ (rd : BitVec 5) (m : MemOp) (d : Nat) (e : Ea), regOf5 rd = some d →
      k.ea m 1 (pc + BitVec.ofNat 16 m.len) = some e → c.refusal .read e.addr = none → c.plain (.ld rd m) →
      let r := c.begun.load e.addr
      r.2.core.lend ≠ pc →
      exec (.ld ch rd m) s = .next (s.becomes ch
        { r.2 with core := ((r.2.core.updateBase e).setReg d r.1).after pc m.len 2 })) ∧
    (∀ (rs : BitVec 5) (m : MemOp) (x : Nat) (e : Ea), regOf5 rs = some x →
      k.ea m 1 (pc + BitVec.ofNat 16 m.len) = some e → c.refusal .write e.addr = none → c.plain (.st m rs) →
      let c' := c.begun.store e.addr (k.reg x)
      c'.core.lend ≠ pc →
      exec (.st ch m rs) s = .next (s.becomes ch { c' with core := (c'.core.updateBase e).after pc m.len 2 })) ∧
    (∀ (pd : BitVec 5) (m : MemOp) (d : Nat) (e : Ea), pairOf5 pd = some d →
      k.ea m 2 (pc + BitVec.ofNat 16 m.len) = some e → c.refusalN .read e.addr 2 = none → c.plain (.ldw pd m) →
      let r := c.begun.loadPair e.addr
      r.2.core.lend ≠ pc →
      exec (.ldw ch pd m) s = .next (s.becomes ch
        { r.2 with core := ((r.2.core.updateBase e).setPair d r.1).after pc m.len 3 })) ∧
    (∀ (ps : BitVec 5) (m : MemOp) (x : Nat) (e : Ea), pairOf5 ps = some x →
      k.ea m 2 (pc + BitVec.ofNat 16 m.len) = some e → c.refusalN .write e.addr 2 = none → c.plain (.stw m ps) →
      let c' := c.begun.storePair e.addr (k.pair x)
      c'.core.lend ≠ pc →
      exec (.stw ch m ps) s = .next (s.becomes ch { c' with core := (c'.core.updateBase e).after pc m.len 3 })) ∧
    (∀ (b1 : Byte) (x : Nat), regOf b1 = some x → c.refusal .write (k.sp - 1) = none → c.plain (.push b1) →
      let c' := c.begun.store (k.sp - 1) (k.reg x)
      c'.core.lend ≠ pc →
      exec (.push ch b1) s = .next (s.becomes ch { c' with core := (c'.core.setSp (k.sp - 1)).after pc 2 2 })) ∧
    (∀ (b1 : Byte) (d : Nat), regOf b1 = some d → c.refusal .read k.sp = none → c.plain (.pop b1) →
      let r := c.begun.load k.sp
      r.2.core.lend ≠ pc →
      exec (.pop ch b1) s = .next (s.becomes ch
        { r.2 with core := ((r.2.core.setSp (k.sp + 1)).setReg d r.1).after pc 2 2 })) ∧
    (∀ (b1 : Byte) (x : Nat), pairOf b1 = some x → c.refusalN .write (k.sp - 2) 2 = none → c.plain (.pushw b1) →
      let c' := c.begun.storePair (k.sp - 2) (k.pair x)
      c'.core.lend ≠ pc →
      exec (.pushw ch b1) s = .next (s.becomes ch { c' with core := (c'.core.setSp (k.sp - 2)).after pc 2 3 })) ∧
    (∀ (b1 : Byte) (d : Nat), pairOf b1 = some d → c.refusalN .read k.sp 2 = none → c.plain (.popw b1) →
      let r := c.begun.loadPair k.sp
      r.2.core.lend ≠ pc →
      exec (.popw ch b1) s = .next (s.becomes ch
        { r.2 with core := ((r.2.core.setSp (k.sp + 2)).setPair d r.1).after pc 2 3 }))

/-- R69, R71, R72, R78, R81, R82: a load, a store or a stack operation in cell memory, not refused, completes: the bytes read are the destination's,
the bytes stored are the source's, read before the base or the stack pointer is updated, low byte at the lower address,
and nothing else of the cell changes.

R142, R146, R147: a customer opcode whose microcode is ADD of two registers into a third, then END, completes with the sum in
the third, in three cycles; the flags stay as they are with F = 0.
The operand bytes that it does not have are the model's free values of log entry 15. -/
def Obligations.MemoryFormsAndUopsComplete : Prop :=
  ∀ (s : State) (ch : Nat) (c : Cell), s.runsOn ch c →
    let k := c.begun.core
    let pc := c.core.pc
    let left (len cycles : Nat) (mem : Bytes) (k : Core) : Host.Outcome State Fault Refusal :=
      .next (s.becomes ch { c with mem := mem, core := k.after pc len cycles })
    (∀ (r : BitVec 5) (m : MemOp) (x p : Nat) (e : Ea), regOf5 r = some x →
      k.ea m 1 (pc + BitVec.ofNat 16 m.len) = some e → c.place e.addr = .mem p →
      (c.plain (.ld r m) → c.refusal .read e.addr = none →
        exec (.ld ch r m) s = left m.len 2 c.mem ((k.updateBase e).setReg x (c.mem.rd p))) ∧
      (c.plain (.st m r) → c.refusal .write e.addr = none →
        exec (.st ch m r) s = left m.len 2 (c.mem.wr p (k.reg x)) (k.updateBase e))) ∧
    (∀ (r : BitVec 5) (m : MemOp) (x p q : Nat) (e : Ea), pairOf5 r = some x →
      k.ea m 2 (pc + BitVec.ofNat 16 m.len) = some e → c.place e.addr = .mem p → c.place (e.addr + 1) = .mem q →
      (c.plain (.ldw r m) → c.refusal .read e.addr = none → c.refusal .read (e.addr + 1) = none →
        exec (.ldw ch r m) s = left m.len 3 c.mem ((k.updateBase e).setPair x (c.mem.rd q ++ c.mem.rd p))) ∧
      (c.plain (.stw m r) → c.refusal .write e.addr = none → c.refusal .write (e.addr + 1) = none →
        exec (.stw ch m r) s = left m.len 3
          ((c.mem.wr p ((k.pair x).setWidth 8)).wr q ((k.pair x).extractLsb' 8 8)) (k.updateBase e))) ∧
    (∀ (b1 : Byte) (x p : Nat), regOf b1 = some x →
      (c.plain (.push b1) → c.place (k.sp - 1) = .mem p → c.refusal .write (k.sp - 1) = none →
        exec (.push ch b1) s = left 2 2 (c.mem.wr p (k.reg x)) (k.setSp (k.sp - 1))) ∧
      (c.plain (.pop b1) → c.place k.sp = .mem p → c.refusal .read k.sp = none →
        exec (.pop ch b1) s = left 2 2 c.mem ((k.setSp (k.sp + 1)).setReg x (c.mem.rd p)))) ∧
    (∀ (b1 : Byte) (x p q : Nat), pairOf b1 = some x →
      (c.plain (.pushw b1) → c.place (k.sp - 2) = .mem p → c.place (k.sp - 1) = .mem q →
        c.refusal .write (k.sp - 2) = none → c.refusal .write (k.sp - 1) = none →
        exec (.pushw ch b1) s = left 2 3
          ((c.mem.wr p ((k.pair x).setWidth 8)).wr q ((k.pair x).extractLsb' 8 8)) (k.setSp (k.sp - 2))) ∧
      (c.plain (.popw b1) → c.place k.sp = .mem p → c.place (k.sp + 1) = .mem q →
        c.refusal .read k.sp = none → c.refusal .read (k.sp + 1) = none →
        exec (.popw ch b1) s = left 2 3 c.mem ((k.setSp (k.sp + 2)).setPair x (c.mem.rd q ++ c.mem.rd p)))) ∧
    (∀ (n : BitVec 5) (b1 b2 b3 : Byte) (d a b : Nat), c.plain (.uop n b1 b2 b3) → d < 24 → a < 24 → b < 24 →
      let e := k.decodeEntry n.toNat
      let entry := (e.extractLsb' 0 10).toNat
      let len := (e.extractLsb' 12 2).toNat + 1
      k.microcode.rdN (4 * entry) 4 = d * 0x40000 + a * 0x2000 + b * 0x100 →
      k.microcode.rdN (4 * ((entry + 1) % 1024)) 4 = 0x70000000 →
      exec (.uop ch n b1 b2 b3) s = .next (s.becomes ch
        { c.did len 3 (fun k => k.setReg d (k.reg a + k.reg b)) with
          free := if len < 4 then c.free + 4 else c.free }))

/-- R60, R100: JMP, CALL and RET open their delay slot, with the target read now; CALL writes its return address into
O3:O2 and moves the window up. In the slot a NOP then ends at the target, and after a RET with the window moved
back.

R102: a branch whose condition holds adds its displacement to the address after it, in two cycles; one whose
condition does not hold takes one cycle.

R103, R104: LOOP sets the loop registers and LP. A NOP at LEND then counts down: to LSTART while LCNT is above 1
or is 0, and on with LP cleared when LCNT was 1.
It rests on the model's choices of log entries 18 and 21. -/
def Obligations.JumpsBranchesAndLoops : Prop :=
  (∀ (s : State) (ch : Nat) (c : Cell), s.runsOn ch c →
    let k := c.begun.core
    let pc := c.core.pc
    let open_ (k : Core) (len : Nat) (kind : JumpKind) (t : Half) : Core :=
      { k.after pc len 2 with slot := some { target := t, jumpPc := pc, kind := kind } }
    let callee (next : Half) : Core :=
      (k.setPair 22 (next + BitVec.ofNat 16 (c.begun.slotLen next))).windowUp
    (∀ d : Half, c.plain (.jmp (.rel d)) →
      exec (.jmp ch (.rel d)) s = .next (s.becomes ch { c with core := open_ k 3 .jmp (pc + 3#16 + d) })) ∧
    (∀ (b1 : Byte) (r : Nat), pairOf b1 = some r → c.plain (.jmp (.pair b1)) →
      exec (.jmp ch (.pair b1)) s = .next (s.becomes ch { c with core := open_ k 2 .jmp (k.pair r) })) ∧
    (∀ a : Half, c.plain (.jmp (.abs a)) →
      exec (.jmp ch (.abs a)) s = .next (s.becomes ch { c with core := open_ k 3 .jmp a })) ∧
    (∀ d : Half, k.wres < 18 → c.plain (.call (.rel d)) →
      exec (.call ch (.rel d)) s =
        .next (s.becomes ch { c with core := open_ (callee (pc + 3#16)) 3 .call (pc + 3#16 + d) })) ∧
    (∀ (b1 : Byte) (r : Nat), pairOf b1 = some r → k.wres < 18 → c.plain (.call (.pair b1)) →
      exec (.call ch (.pair b1)) s =
        .next (s.becomes ch { c with core := open_ (callee (pc + 2#16)) 2 .call (k.pair r) })) ∧
    (∀ a : Half, k.wres < 18 → c.plain (.call (.abs a)) →
      exec (.call ch (.abs a)) s = .next (s.becomes ch { c with core := open_ (callee (pc + 3#16)) 3 .call a })) ∧
    (1 < k.wres → c.plain .ret →
      exec (.ret ch) s = .next (s.becomes ch { c with core := open_ k 1 .ret (k.pair 10) })) ∧
    (∀ t : Slot, c.core.slot = some t → c.executes = true → c.paced = false → ¬ (c.core.looping = true ∧ pc = k.lend) →
      c.refusal .fetch pc = none →
      exec (.nop ch) s = .next (s.becomes ch
        { c with core := { (if t.kind = .ret then k.windowDown else k) with
            slot := none, pc := t.target, shadow := false, busy := k.busy + 1 } }))) ∧
  (∀ (s : State) (ch : Nat) (c : Cell), s.runsOn ch c →
    let k := c.begun.core
    let pc := c.core.pc
    let n := k.flagN
    let v := k.flagV
    let cy := k.flagC
    let z := k.flagZ
    let holds (cond : Nat) : Bool :=
      [true, false, z, !z, cy, !cy, n, !n, v, !v, !cy && !z, cy || z, n == v, n != v, !z && (n == v),
        z || (n != v)].getD cond false
    (∀ (cond : BitVec 4) (d : Byte), c.plain (.bcc cond d) → holds cond.toNat = true →
      exec (.bcc ch cond d) s = .next (s.becomes ch
        { c with core := { k.after pc 2 2 with pc := pc + 2#16 + d.signExtend 16 } })) ∧
    (∀ (cond : BitVec 4) (d : Byte), c.plain (.bcc cond d) → holds cond.toNat = false →
      exec (.bcc ch cond d) s = .next (s.becomes ch (c.did 2 1 id))) ∧
    (∀ (b1 : Byte) (d : Half), c.plain (.bccL b1 d) → holds (b1.toNat / 16) = true →
      exec (.bccL ch b1 d) s = .next (s.becomes ch
        { c with core := { k.after pc 4 2 with pc := pc + 4#16 + d } })) ∧
    (∀ (b1 : Byte) (d : Half), c.plain (.bccL b1 d) → holds (b1.toNat / 16) = false →
      exec (.bccL ch b1 d) s = .next (s.becomes ch (c.did 4 1 id)))) ∧
  (∀ (s : State) (ch : Nat) (c : Cell), s.runsOn ch c →
    let k := c.begun.core
    let pc := c.core.pc
    let start (len : Nat) (n : Half) (u8 : Byte) (k : Core) : Core :=
      { k with lstart := pc + BitVec.ofNat 16 len, lend := pc + BitVec.ofNat 16 len + u8.setWidth 16, lcnt := n
               status := k.status ||| 0x20#8 }
    (∀ (n : Half) (u8 : Byte), c.plain (.loop (.imm n) u8) →
      exec (.loop ch (.imm n) u8) s = .next (s.becomes ch (c.did 4 2 (start 4 n u8)))) ∧
    (∀ (b1 u8 : Byte) (r : Nat), pairOf b1 = some r → c.plain (.loop (.pair b1) u8) →
      exec (.loop ch (.pair b1) u8) s = .next (s.becomes ch (c.did 3 2 (start 3 (c.core.pair r) u8)))) ∧
    (c.executes = true → c.haltDue .nop = false → c.interruptDue = false → c.paced = false → c.core.slot = none →
      c.refusal .fetch pc = none → c.core.looping = true → k.lend = pc →
      (k.lcnt ≠ 1#16 → exec (.nop ch) s = .next (s.becomes ch
        { c with core := { k.after pc 1 1 with lcnt := k.lcnt - 1, pc := k.lstart } })) ∧
      (k.lcnt = 1#16 → exec (.nop ch) s = .next (s.becomes ch
        { c with core := { k.after pc 1 1 with lcnt := 0#16, status := k.status &&& 0xDF#8 } }))))

/-- R63: SPILLW stores the twelve registers of the base window below the selected stack pointer, and FILLW loads the window below
the base from it; WRES, WSAVED and the pointer follow, in 13 cycles. -/
def Obligations.WindowSpillAndFill : Prop :=
  ∀ (s : State) (ch : Nat) (c : Cell) (b1 : Byte), s.runsOn ch c →
    let k := c.begun.core
    let pc := c.core.pc
    let sp := k.stackOf b1
    (c.plain (.spillw b1) → c.refusalN .write (sp - 12) 12 = none →
      let c' := spillStores c.begun (sp - 12) k.baseIndex 12
      c'.core.lend ≠ pc →
      exec (.spillw ch b1) s = .next (s.becomes ch
        { c' with core :=
          ({ c'.core.setStackOf b1 (sp - 12) with
             wres := (c'.core.setStackOf b1 (sp - 12)).wres - 1
             wsaved := (c'.core.setStackOf b1 (sp - 12)).wsaved + 1 } : Core).after pc 2 13 })) ∧
    (c.plain (.fillw b1) → c.refusalN .read sp 12 = none →
      let c' := fillLoads c.begun sp ((k.baseIndex + 228) % 240) 12
      c'.core.lend ≠ pc →
      exec (.fillw ch b1) s = .next (s.becomes ch
        { c' with core :=
          ({ c'.core.setStackOf b1 (sp + 12) with
             wres := (c'.core.setStackOf b1 (sp + 12)).wres + 1
             wsaved := (c'.core.setStackOf b1 (sp + 12)).wsaved - 1 } : Core).after pc 2 13 }))

/-- R106, R107, R108: MVB, CMB and FLB run their steps to the end, or up to the step after which an interrupt is due, with the
saved PC then at the block instruction itself. A step of R106 moves the addresses that the instruction uses by one,
forwards or backwards, and counts G5:G4 down. -/
def Obligations.BlockInstructionsStep : Prop :=
  (∀ (s : State) (ch : Nat) (c : Cell) (b1 : Byte) (stop : Option Nat) (c' : Cell) (n : Nat), s.runsOn ch c →
    let pc := c.core.pc
    let run (op : BlockOp) : BlockEnd := blockRun op (b1.getLsbD 0) stop (c.core.pair 4).toNat 0 c.begun
    let ended (op : BlockOp) : Cell := { c' with core := (cmbEqualFlags op c'.core).after pc 2 (2 + op.stepCycles * n) }
    let stopped (op : BlockOp) : Cell := { c' with core := c'.core.after pc 0 (2 + op.stepCycles * n) }
    c'.core.lend ≠ pc →
    (c.plain (.mvb b1) → run .mvb = .ended c' n →
      exec (.mvb ch b1 stop) s = .next (s.becomes ch (ended .mvb))) ∧
    (c.plain (.cmb b1) → run .cmb = .ended c' n →
      exec (.cmb ch b1 stop) s = .next (s.becomes ch (ended .cmb))) ∧
    (c.plain (.flb b1) → run .flb = .ended c' n →
      exec (.flb ch b1 stop) s = .next (s.becomes ch (ended .flb))) ∧
    (c.plain (.mvb b1) → run .mvb = .stopped c' n →
      exec (.mvb ch b1 stop) s = .next (s.becomes ch (stopped .mvb))) ∧
    (c.plain (.cmb b1) → run .cmb = .stopped c' n →
      exec (.cmb ch b1 stop) s = .next (s.becomes ch (stopped .cmb))) ∧
    (c.plain (.flb b1) → run .flb = .stopped c' n →
      exec (.flb ch b1 stop) s = .next (s.becomes ch (stopped .flb)))) ∧
  (∀ (op : BlockOp) (back : Bool) (k : Core), k.g.wf = true →
    let d : Half := if back then 0xFFFF#16 else 1#16
    let k' := blockAdvance op back k
    k'.pair 0 = (if op = .flb then k.pair 0 else k.pair 0 + d) ∧ k'.pair 2 = k.pair 2 + d ∧
    k'.pair 4 = k.pair 4 - 1 ∧ k'.reg 6 = k.reg 6 ∧ k'.reg 7 = k.reg 7 ∧ k'.p = k.p ∧ k'.status = k.status)

/-- R117: exception entry with a frame that can be stored: STATUS, the saved PC and EXC_INFO go onto SSP, the window moves up,
STATUS becomes SV = 1, GM = 1 and LP = 0, and the PC comes from the vector, in six cycles.

R127, R128, R130: an entry with WRES 19, or whose frame meets the I/O page or a protected window, locks the core up and hands
the lockup record over; STATUS, SSP and the window stay as the record says.

R109, R121: TRAP enters through vector 128 + n with the saved PC after it. RTE takes PC and STATUS from the frame,
with the window moved back and the mode-change shadow after it. -/
def Obligations.ExceptionsEnterAndReturn : Prop :=
  (∀ (c : Cell) (saved : Half) (vec : Nat) (info : Byte) (m1 m2 m3 m4 : Nat),
    let k := c.core
    let mem := (((c.mem.wr m1 k.status).wr m2 (saved.extractLsb' 8 8)).wr m3 (saved.setWidth 8)).wr m4 info
    let v : Half := mem.rd (0x7FE01 + 2 * vec) ++ mem.rd (0x7FE00 + 2 * vec)
    k.wres < 19 →
    c.place (k.ssp - 1) = .mem m1 → c.place (k.ssp - 2) = .mem m2 → c.place (k.ssp - 3) = .mem m3 →
    c.place (k.ssp - 4) = .mem m4 →
    c.frameFault (k.ssp - 1) = none → c.frameFault (k.ssp - 2) = none → c.frameFault (k.ssp - 3) = none →
    c.frameFault (k.ssp - 4) = none →
    (v.toNat < 0xE000 ∨ 0xF000 ≤ v.toNat) →
    c.enter saved vec info =
      { c with
        mem := mem
        core := { k with
          cwp := (k.cwp + 1) % 20, wres := k.wres + 1, ssp := k.ssp - 4, excInfo := info, pc := v, slot := none
          shadow := false, waiting := false, busy := k.busy + 6, afterEntry := true
          status := ((k.status ||| 0x40#8) ||| 0x80#8) &&& 0xDF#8 } }) ∧
  (∀ (c : Cell) (saved : Half) (vec : Nat) (info : Byte),
    let k := c.core
    (19 ≤ k.wres → c.enter saved vec info =
      { c with
        core := { k with lockup := true, waiting := false, busy := k.busy + 1 }
        outq := c.outq ++ [.lockup
          { time := c.beam.ctime, first := info, second := 1, cycle := 1, savedPc := saved, ssp := k.ssp
            status := k.status, cwp := k.cwp, wres := k.wres, wsaved := k.wsaved }] }) ∧
    (∀ e : Nat, k.wres < 19 → c.frameFault (k.ssp - 1) = some e →
      (c.enter saved vec info).core.lockup = true ∧ (c.enter saved vec info).core.waiting = false ∧
      (c.enter saved vec info).mem = c.mem ∧ (c.enter saved vec info).io = c.io)) ∧
  (∀ (s : State) (ch : Nat) (c : Cell), s.runsOn ch c →
    let k := c.begun.core
    let pc := c.core.pc
    (∀ n : Byte, c.plain (.trap n) →
      exec (.trap ch n) s = .next (s.becomes ch
        ((c.did 2 0 id).enter (pc + 2#16) (128 + n.toNat) 0x1F#8))) ∧
    (∀ m1 m2 m3 : Nat, c.plain .rte → 1 < k.wres → c.refusalN .fetch (k.ssp + 1) 3 = none →
      c.place (k.ssp + 1) = .mem m1 → c.place (k.ssp + 2) = .mem m2 → c.place (k.ssp + 3) = .mem m3 →
      exec (.rte ch) s = .next (s.becomes ch
        { c with core := { k with
            cwp := (k.cwp + 19) % 20, wres := k.wres - 1, ssp := k.ssp + 4, pc := c.mem.rd m2 ++ c.mem.rd m1
            status := c.mem.rd m3, shadow := true, busy := k.busy + 4 } })))

/-- R61, R62, R79, R87, R116: the faults of an instruction that changes nothing: a reserved opcode or field through vector 1, a
supervisor-only instruction in user mode through vector 2, a CALL into the reserve window through vector 5 and a RET
from the outermost window through vector 6. The saved PC is the instruction.
It rests on the model's choices of log entry 19. -/
def Obligations.FaultsChangeNothing : Prop :=
  ∀ (s : State) (ch : Nat) (c : Cell), s.runsOn ch c →
    let faulted (vec : Nat) : State := s.becomes ch
      (({ c with core := { c.begun.core with busy := c.core.busy + 1 } } : Cell).enter c.core.pc vec
        (BitVec.ofNat 8 vec))
    (∀ op b1 b2 b3 : Byte, c.reaches (decodeVoleth op b1 b2 b3) → c.core.illegal (decodeVoleth op b1 b2 b3) = true →
      exec (.reservedOpcode ch op ⟨b1, b2, b3⟩) s = .next (faulted 1)) ∧
    (∀ v : VInstr, c.reaches v → c.core.illegal v = true → c.runInstr v none =
      ({ c with core := { c.begun.core with busy := c.core.busy + 1 } } : Cell).enter c.core.pc 1 1#8) ∧
    (c.core.supervisor = false →
      (c.reaches .setm → exec (.setm ch) s = .next (faulted 2)) ∧
      (c.reaches .clrm → exec (.clrm ch) s = .next (faulted 2)) ∧
      (c.reaches .usr → exec (.usr ch) s = .next (faulted 2)) ∧
      (c.reaches .wait → exec (.wait ch) s = .next (faulted 2)) ∧
      (c.reaches .rte → exec (.rte ch) s = .next (faulted 2)) ∧
      (∀ b : Byte, b.toNat < 2 → c.reaches (.spillw b) → exec (.spillw ch b) s = .next (faulted 2)) ∧
      (∀ b : Byte, b.toNat < 2 → c.reaches (.fillw b) → exec (.fillw ch b) s = .next (faulted 2))) ∧
    (∀ dst : JumpDst, 18 ≤ c.core.wres → c.plain (.call dst) → exec (.call ch dst) s = .next (faulted 5)) ∧
    (c.core.wres ≤ 1 → c.plain .ret → exec (.ret ch) s = .next (faulted 6))

/-- R139, R142, R143, R146: a customer opcode runs its microcode from the entry that its decode-table word names; it ends where
END, ENDJ or ENDR sends it, with its cycles. A UOP whose first microinstruction is END does nothing else.
It rests on the model's choices of log entries 11 and 15 to 17. -/
def Obligations.CustomerOpcodesRun : Prop :=
  ∀ (s : State) (ch : Nat) (c : Cell) (n : BitVec 5) (b1 b2 b3 : Byte), s.runsOn ch c → c.plain (.uop n b1 b2 b3) →
    let k := c.begun.core
    let pc := c.core.pc
    let e := k.decodeEntry n.toNat
    let len := (e.extractLsb' 12 2).toNat + 1
    (∀ d : Done, runUop c.begun n.toNat b1 b2 b3 (pc + BitVec.ofNat 16 len) = .done d → d.trap = none →
      d.cell.core.lend ≠ pc →
      exec (.uop ch n b1 b2 b3) s = .next (s.becomes ch
        { d.cell with core := { d.cell.core with
            pc := d.next, shadow := d.shadow, busy := d.cell.core.busy + d.cycles } })) ∧
    (k.microcode.rdN (4 * (e.extractLsb' 0 10).toNat) 4 = 0x70000000 →
      exec (.uop ch n b1 b2 b3) s = .next (s.becomes ch
        { c.did len 2 id with free := if len < 4 then c.free + 4 else c.free }))

/-- R109, R117, R134, R137, R361: the events that come between instructions. A due interrupt enters through vector 32 + its source,
which becomes ACTIVE; WAIT ends when a source is deliverable, moderation holds lifted, and with GM = 1 goes on without
taking it; a requested debug halt and a breakpoint halt the core.
It rests on the model's choices of log entry 22. -/
def Obligations.CoreEvents : Prop :=
  ∀ (s : State) (ch : Nat) (c : Cell), s.runsOn ch c →
    (∀ src : Nat, c.core.wres < 19 → c.paced = false → c.executes = true → c.core.haltRequest = false → c.core.masked = false → c.core.slot = none →
      c.core.shadow = false → c.deliverable false = some src →
      exec (.exceptionEntry ch) s =
        .next (s.becomes ch ((c.activate src).enter c.core.pc (32 + src) 0#8))) ∧
    (∀ src : Nat, c.core.wres < 19 → c.paced = false → c.coreOn = true → c.core.waiting = true → c.core.lockup = false → c.core.debugHalt = false →
      c.core.haltRequest = false → c.deliverable true = some src →
      let c1 := ({ c with core := { c.core with waiting := false } } : Cell).restartPace
      (c.core.masked = true → exec (.waitEnd ch) s = .next (s.becomes ch c1)) ∧
      (c.core.masked = false → exec (.waitEnd ch) s =
        .next (s.becomes ch ((c1.activate src).enter c1.core.pc (32 + src) 0#8)))) ∧
    (c.coreOn = true → c.core.haltRequest = true → c.core.slot = none → c.core.shadow = false →
      c.core.lockup = false → (c.core.afterEntry = false ∨ c.core.stepping = true) →
      exec (.debugHaltTaken ch) s = .next (s.becomes ch
        { c with core := { c.core with haltRequest := false, debugHalt := true, stepping := false } })) ∧
    (∀ v : VInstr, c.executes = true → c.core.slot = none → c.core.shadow = false → c.interruptDue = false →
      c.core.resumeAt ≠ some c.core.pc → c.breakpoints.contains c.core.pc = true →
      exec (.breakpointHalt ch v) s = .next (s.becomes ch
        { c with core := { c.core with haltRequest := false, debugHalt := true, stepping := false } }))

/-- R139, R140, R149, R150, R152, R156, R500: the registers of the decode table, the microcode, the pace table and the pace. A write
of a register's top byte writes the whole entry with the held lower bytes; after UC_CTL.LOCK the tables no longer
change. -/
def Obligations.TablesAndPaceAreWritten : Prop :=
  ∀ (s : State) (ch : Nat) (c : Cell) (v : Byte), s.runsOn ch c →
    let held (a : Nat) (now : Byte) : Byte := if c.holds.rd (2 * a + 1) = 0#8 then now else c.holds.rd (2 * a)
    let dt := 2 * ((c.io.rd 0xE041).toNat % 32)
    let uc := c.io.rdN 0xE044 2 % 1024
    let k := c.core
    let entry := Nat.land ((held 0xE042 (k.decodeTable.rd dt)).toNat + 256 * v.toNat) 0xB3FF
    let word := (held 0xE046 (k.microcode.rd (4 * uc))).toNat +
      256 * ((held 0xE047 (k.microcode.rd (4 * uc + 1))).toNat +
        256 * ((held 0xE048 (k.microcode.rd (4 * uc + 2))).toNat + 256 * v.toNat))
    (c.io.bit 0xE040 7 = false →
      exec (.dtEntryWrite ch v) s = .next (s.becomes ch
        { c with
          holds := (c.holds.wr 0x1C084 0#8).wr 0x1C085 0#8
          core := { k with decodeTable := k.decodeTable.wrN dt 2 entry } }) ∧
      exec (.ucDataWrite ch v) s = .next (s.becomes ch
        { c with
          holds := (List.range 6).foldl (fun h i => h.wr (0x1C08C + i) 0#8) c.holds
          io := c.io.wrN 0xE044 2 ((uc + 1) % 1024)
          core := { k with microcode := k.microcode.wrN (4 * uc) 4 word } }) ∧
      exec (.ptDataWrite ch v) s = .next (s.becomes ch
        { c with
          io := c.io.wr 0xE096 (BitVec.ofNat 8 ((c.io.rd 0xE096).toNat + 1))
          core := { k with paceTable := k.paceTable.wr (c.io.rd 0xE096).toNat v } })) ∧
    (c.io.bit 0xE040 7 = false → v ≠ 0#8 → v.toNat ≤ (c.io.rd 0xE083).toNat →
      exec (.paceRateWrite ch false v) s = .next (s.becomes ch
        { c with io := c.io.wr 0xE082 v, core := { k with paceRestart := true } })) ∧
    (c.io.bit 0xE040 7 = false → c.io.rd 0xE082 ≠ 0#8 → (c.io.rd 0xE082).toNat ≤ v.toNat →
      exec (.paceRateWrite ch true v) s = .next (s.becomes ch
        { c with io := c.io.wr 0xE083 v, core := { k with paceRestart := true } })) ∧
    (c.io.bit 0xE080 0 = false → v.getLsbD 0 = true →
      exec (.pacedWrite ch v) s = .next (s.becomes ch
        { c with
          io := (c.io.wr 0xE080 (c.io.rd 0xE080 ||| 1#8)).wrN 0xE088 2 0
          core := { k with sched := k.paceCount, slipOver := false, repaced := true } })) ∧
    exec (.ucCtlLock ch) s = .next (s.becomes ch { c with io := c.io.setBit 0xE040 7 true }) ∧
    (c.io.bit 0xE040 7 = true →
      exec (.dtEntryWrite ch v) s = .next (s.becomes ch c) ∧
      exec (.ucDataWrite ch v) s = .next (s.becomes ch c) ∧
      exec (.ptDataWrite ch v) s = .next (s.becomes ch c) ∧
      exec (.paceRateWrite ch false v) s = .next (s.becomes ch c) ∧
      exec (.paceRateWrite ch true v) s = .next (s.becomes ch c)) ∧
    exec (.ucDataRead ch 0) s = .next (s.becomes ch
      { c with latched := ((c.latched.wr 0xE047 (k.microcode.rd (4 * uc + 1))).wr 0xE048
          (k.microcode.rd (4 * uc + 2))).wr 0xE049 (k.microcode.rd (4 * uc + 3)) }) ∧
    exec (.ucDataRead ch 3) s = .next (s.becomes ch { c with io := c.io.wrN 0xE044 2 ((uc + 1) % 1024) })

/-! ### Timers, interrupts and the nap -/

/-- R350, R351, R352, R353: when the events that it needs have occurred, a counting tick counts up and keeps the accumulator exact; a
wrap clears the count and the accumulator, installs the held values and sets STAT.WRAP; a resync does the first two and
raises nothing. A source without events never counts.

R354, R355, R356: a compare that the count has reached sets its STAT bit and moves the output level by OUT_MODE; a capture
event that the unit selects copies the count into its register, or holds it pending during a read of byte 0; a second
one before it is written is lost, and the pending value is written next. Without such an event nothing is captured.
It rests on the model's choice of log entry 120. -/
def Obligations.TimersCountAndCompare : Prop :=
  (∀ (s : State) (ch n : Nat) (c c1 : Cell), s.runsOn ch c → n < c1.timers.length → n < 4 → c1.io.wf = true →
    c.atCount n = some c1 → (c.timer n).count = (c1.timer n).count → (c.timer n).reload = (c1.timer n).reload →
    let t := c1.timer n
    let held := copyBytesTo c1.io (tAddr n 0x04) 0x04 4 (copyBytesTo c1.io (tAddr n 0x0C) 0x0C 4 [])
    let needs := max 1 (ceilDiv (t.q - t.acc) 256)
    (t.count ≠ t.reload →
      exec (.timerCountingTick ch n) s = .next (s.becomes ch (c1.setTimer n { t with
        count := (t.count + 1) % 4294967296
        acc := t.acc + 256 * needs - t.q
        events := t.events - needs
        from_ := t.from_ + needs
        freshA := true, freshB := true }))) ∧
    (t.count = t.reload → ∃ c' : Cell,
      exec (.timerWrap ch n) s = .next (s.becomes ch c') ∧ (c'.timer n).count = 0 ∧ (c'.timer n).acc = 0 ∧
      (c'.timer n).reload = c1.io.rdN (tAddr n 0x04) 4 ∧ (c'.timer n).cur = held ∧ c'.io.bit (tAddr n 0x1D) 0 = true ∧
      c'.core = c1.core ∧ c'.mem = c1.mem ∧ c'.beam = c1.beam ∧ c'.intc = c1.intc)) ∧
  (∀ (s : State) (ch n : Nat) (c : Cell), s.runsOn ch c → n < c.timers.length → n < 4 → c.io.wf = true →
    let t := c.timer n
    let held := copyBytesTo c.io (tAddr n 0x04) 0x04 4 (copyBytesTo c.io (tAddr n 0x0C) 0x0C 4 [])
    (t.src = 0 ∨ t.src = 2 → c.atCount n = some c) ∧
    (t.src = 1 → t.from_ + max 1 (ceilDiv (t.q - t.acc) 256) ≤ c.beam.ctime → c.atCount n = some c) ∧
    (3 ≤ t.src → t.counts n = true → max 1 (ceilDiv (t.q - t.acc) 256) ≤ t.events → c.atCount n = some c) ∧
    (3 ≤ t.src → t.events < max 1 (ceilDiv (t.q - t.acc) 256) → c.atCount n = none) ∧
    (t.resync = true →
      exec (.timerResync ch n) s = .next (s.becomes ch (c.setTimer n { t with
        count := 0, acc := 0, cur := held, resync := false, freshA := false, freshB := false
        events := 0, from_ := c.beam.ctime }))) ∧
    (c.atCount n = none →
      exec (.timerCountingTick ch n) s = .next (s.becomes ch c) ∧ exec (.timerWrap ch n) s = .next (s.becomes ch c))) ∧
  (∀ (s : State) (ch n : Nat) (c : Cell), s.runsOn ch c → n < c.timers.length → n < 4 → c.io.wf = true →
    let t := c.timer n
    let cc := c.io.rd (tAddr n 0x18)
    let mode := (c.io.rd (tAddr n 0x1A)).toNat % 4
    let kept (c' : Cell) : Prop := c'.core = c.core ∧ c'.mem = c.mem ∧ c'.beam = c.beam ∧ c'.intc = c.intc
    (cc.getLsbD 7 = false → t.freshA = true → c.io.rdN (tAddr n 0x10) 4 = t.count → ∃ c' : Cell,
      exec (.timerMatch ch n false) s = .next (s.becomes ch c') ∧ c'.io.bit (tAddr n 0x1D) 1 = true ∧
      (c'.timer n).freshA = false ∧ (c'.timer n).count = t.count ∧ kept c' ∧
      (mode = 0 → c'.io.bit (tAddr n 0x1A) 2 = c.io.bit (tAddr n 0x1A) 2) ∧
      (mode = 1 → c'.io.bit (tAddr n 0x1A) 2 = !c.io.bit (tAddr n 0x1A) 2) ∧
      (mode = 2 → c.io.rdN (tAddr n 0x14) 4 ≠ t.count → c'.io.bit (tAddr n 0x1A) 2 = true) ∧
      (mode = 3 → c'.io.bit (tAddr n 0x1A) 2 = false)) ∧
    (cc.getLsbD 3 = false → t.freshB = true → c.io.rdN (tAddr n 0x14) 4 = t.count → ∃ c' : Cell,
      exec (.timerMatch ch n true) s = .next (s.becomes ch c') ∧ c'.io.bit (tAddr n 0x1D) 2 = true ∧
      (c'.timer n).freshB = false ∧ (c'.timer n).count = t.count ∧ kept c' ∧
      (mode = 2 → c'.io.bit (tAddr n 0x1A) 2 = false)) ∧
    (cc.getLsbD 7 = true → 0 < t.capA → t.pendA = none → t.count < 4294967296 → ∃ c' : Cell,
      exec (.timerCapture ch n false false) s = .next (s.becomes ch c') ∧ kept c' ∧
      c'.io.rdN (tAddr n 0x10) 4 = t.count ∧ c'.io.bit (tAddr n 0x1D) 3 = true ∧
      c'.timers = (c.setTimer n { t with capA := t.capA - 1 }).timers) ∧
    (∀ r : Bool, t.capA = 0 → exec (.timerCapture ch n false r) s = .next (s.becomes ch c)) ∧
    (cc.getLsbD 7 = true → 0 < t.capA → t.pendA = none → ∃ c' : Cell,
      exec (.timerCapture ch n false true) s = .next (s.becomes ch c') ∧ kept c' ∧ (c'.timer n).pendA = some t.count ∧
      c'.io.rdN (tAddr n 0x10) 4 = c.io.rdN (tAddr n 0x10) 4 ∧ c'.io.bit (tAddr n 0x1E) 0 = true ∧
      c'.io.bit (tAddr n 0x1D) 3 = true) ∧
    (∀ (v : Nat) (r : Bool), cc.getLsbD 7 = true → 0 < t.capA → t.pendA = some v →
      exec (.timerCapture ch n false r) s =
        .next (s.becomes ch (({ c with io := c.io.setBit (tAddr n 0x1E) 2 true } : Cell).setTimer n
          { t with capA := t.capA - 1 }))) ∧
    (∀ v : Nat, t.pendA = some v → t.pendB = none →
      exec (.capturePendingWrite ch n) s = .next (s.becomes ch
        (({ c with io := c.io.wrN (tAddr n 0x10) 4 v } : Cell).setTimer n { t with pendA := none }))))

/-- R359, R360, R362, R363: EOI ends an ACTIVE source and otherwise counts; SOFT raises its sources; the first raise of a
moderated source starts a hold, which ends at its MOD_N-th raise, or when MOD_T reference ticks have passed. -/
def Obligations.InterruptCommands : Prop :=
  ∀ (s : State) (ch : Nat) (c : Cell), s.runsOn ch c →
    (∀ v : Byte, v.toNat < 48 → c.intc.active.getLsbD v.toNat = true →
      exec (.eoi ch v) s = .next (s.becomes ch { c with intc := { c.intc with
        active := c.intc.active &&& ~~~ BitVec.ofNat 48 (2 ^ v.toNat) } })) ∧
    (∀ v : Byte, (48 ≤ v.toNat ∨ c.intc.active.getLsbD v.toNat = false) →
      exec (.eoi ch v) s = .next (s.becomes ch { c with
        io := c.io.wrN 0xE114 2 (min 65535 (c.io.rdN 0xE114 2 + 1)) })) ∧
    (∀ v : Byte, ∃ c' : Cell, exec (.soft ch v) s = .next (s.becomes ch c') ∧
      (∀ i : Nat, i < 48 → c'.intc.pend.getLsbD i =
        (c.intc.pend.getLsbD i || (decide (43 ≤ i ∧ i < 47) && v.getLsbD (i - 43)))) ∧
      c'.intc.active = c.intc.active ∧ c'.intc.request = c.intc.request ∧ c'.core = c.core ∧ c'.mem = c.mem ∧
      c'.io = c.io ∧ c'.beam = c.beam) ∧
    (∀ src : Nat, 2 ≤ (c.io.rd (0xE170 + src)).toNat → isLevelSource src = false → c.intc.pend.getLsbD src = false →
      (c.raise src).intc.holds =
        { src := src, raises := 1, start := c.beam.ctime } :: c.intc.holds.filter (fun h => h.src ≠ src)) ∧
    (∀ (src : Nat) (byTick : Bool), ∃ holds : List ModHold,
      exec (.moderationHoldEnd ch src byTick) s = .next (s.becomes ch { c with intc := { c.intc with holds := holds } }) ∧
      ∀ h : ModHold, h ∈ holds ↔ h ∈ c.intc.holds ∧
        let n := (c.io.rd (0xE170 + src)).toNat
        let t := if c.io.rd (0xE1A0 + src) = 0#8 then 256 else (c.io.rd (0xE1A0 + src)).toNat
        let f := c.eff.rdN 0xE730 4 * 100
        ¬ (h.src = src ∧ (n < 2 ∨ n ≤ h.raises ∨ t * f ≤ (c.beam.ctime - h.start - 1) * 4294967296 ∨
          (byTick = true ∧ (t - 1) * f ≤ (c.beam.ctime - h.start + 1) * 4294967296))))

/-- R330, R344, R365, R366, R368: a nap is requested or withdrawn, begins at the frame boundary with the core in WAIT, or is refused
with its code while the blitter or DMA is busy; arrivals and armed edges of owned pins are caught only during it; the
wake makes tick W + 1 tick (0, 0) of the frame, loads the filters with the present levels and logs each caught edge and
the cause with the time W.
It rests on the model's choices of log entries 7 and 119. -/
def Obligations.NapAndWake : Prop :=
  ∀ (s : State) (ch : Nat) (c : Cell), s.runsOn ch c →
    (∀ v : Byte, exec (.napRequest ch v) s = .next (s.becomes ch { c with
      io := c.io.wr 0xE1E0 ((c.io.rd 0xE1E0 &&& 0x7F#8) ||| (v &&& 0x80#8)) })) ∧
    (c.io.bit 0xE1E0 7 = true → c.core.waiting = true → c.beam.boundary = true → c.beam.entered = false →
      (c.blitter.busy = false → c.dma.any (·.busy) = false →
        exec (.napEntry ch) s = .next (s.becomes ch { c with
          io := c.io.wr 0xE1E0 0#8
          nap := { napping := true, pins := 0#16, timers := 0#4, evq := false, line := false }
          outq := c.outq ++ [.nap true] })) ∧
      (∀ code : Nat, (c.blitter.busy = true ∧ code = 0xC1) ∨
          (c.blitter.busy = false ∧ c.dma.any (·.busy) = true ∧ code = 0xC2) →
        exec (.napEntry ch) s = .next (s.becomes ch (Cell.raise { c with
          io := ((c.io.wr 0xE1E0 0#8).setBit 0xE1E1 1 true).wr 0xE1E2 (BitVec.ofNat 8 code) } 47)))) ∧
    (∀ line : Bool, c.nap.napping = true → exec (.hostArrivalLatch ch line) s = .next (s.becomes ch { c with
      nap := { c.nap with line := line || c.nap.line, evq := !line || c.nap.evq } })) ∧
    (∀ line : Bool, c.nap.napping = false → exec (.hostArrivalLatch ch line) s = .next (s.becomes ch c)) ∧
    (∀ (cp : Nat) (rising : Bool), c.pins.owned.getLsbD cp = false →
      exec (.pinWakeLatch ch cp rising) s = .next (s.becomes ch c)) ∧
    (∀ (cp : Nat) (rising : Bool), c.nap.napping = true → cp < 16 → c.pins.owned.getLsbD cp = true →
      (c.io.rdN 0xE31E 2).testBit cp = true → (c.io.rdN 0xE320 2).testBit cp = !rising →
      exec (.pinWakeLatch ch cp rising) s = .next (s.becomes ch { c with
        nap := { c.nap with pins := c.nap.pins ||| BitVec.ofNat 16 (2 ^ cp) } })) ∧
    (∀ (ticks kind index : Nat) (levels : BitVec 16), c.nap.napping = true → c.napCause = some (kind, index) → ∃ c' : Cell,
      let w := c.beam.ctime + ticks + 2
      exec (.wake ch ⟨ticks, levels⟩) s = .next (s.becomes ch c') ∧ c'.nap.napping = false ∧
      c'.beam.ctime = w + 1 ∧ c'.beam.frame = c.beam.frame ∧ c'.beam.line = c.beam.line ∧
      c'.beam.dot = c.beam.dot ∧ c'.intc.pend.getLsbD 47 = true ∧ c'.mem = c.mem ∧
      c'.core.pc = c.core.pc ∧ c'.core.g = c.core.g ∧ c'.core.p = c.core.p ∧ c'.core.status = c.core.status ∧
      c'.pins.samples = (List.range 16).map (fun n => if levels.getLsbD n then 0xFFFF#16 else 0#16) ∧
      (∀ n : Nat, n < 16 → c.nap.pins.getLsbD n = true → Emit.logAt w 7
        (leBytes 1 n ++ leBytes 7 (if (c.io.rdN 0xE320 2).testBit n then 1 else 2)) ∈ c'.outq) ∧
      (kind = 1 ∨ 37 ≤ index → Emit.logAt w 8 (leBytes 8 (kind * 64 + index)) ∈ c'.outq) ∧
      c'.outq.getLast? = some (.nap false) ∧
      (c.io.wf = true → c'.io.bit 0xE1E1 0 = true ∧ c'.io.rd 0xE1E2 = BitVec.ofNat 8 (kind * 64 + index)))

/-! ### The beam and the picture -/

/-- R161, R163, R165, R189: the beam runs to the end of the frame, and the tick after it is (0, 0) of the next frame, where FRAME is raised
and the sequencer starts; VBL is set and raised at (V_ACTIVE, 0); the blink phase toggles at a boundary at which the
counter has reached BLINK_HALF, and nowhere else.

R164: a beam compare with EN = 1 is matched where the beam arrives at its position, on its line or, with EL = 1, at its dot of each
line; a value is compared only after its acceptance, up to which the value before it is. Without EN nothing happens.
It rests on the model's choices of log entries 5 and 7. -/
def Obligations.FrameAndBeamEvents : Prop :=
  (∀ (s : State) (ch : Nat) (c c1 : Cell), s.runsOn ch c →
    (Cell.passUntil Cell.atFrameEnd c.dotsLeft c = some c1 → c1.beamRuns = true → c1.beam.frame = c.beam.frame →
      c.io.wf = true → c1.io.wf = true → ∃ c' : Cell,
      exec (.frameBoundary ch) s = .next ((s.becomes ch c').onChan ch fun k =>
        { k with
          sinceSnap := k.sinceSnap + 1
          u := if k.u.toNat < (c'.io.rd 0xE094).toNat then c'.io.rd 0xE094 else k.u }) ∧
      c'.beam.line = 0 ∧ c'.beam.dot = 0 ∧ c'.beam.ctime = c1.beam.ctime + 1 ∧
      c'.beam.frame = (c1.beam.frame + 1) % 4294967296 ∧ c'.beam.commits = c1.beam.commits ∧
      c'.intc.pend.getLsbD 7 = true ∧ c'.io.bit 0xE701 5 = true ∧
      c'.seq.pc = 0 ∧ c'.seq.count = 0 ∧ c'.seq.word = none ∧ c'.seq.run = c1.enterTick.eff.bit 0xE763 0 ∧
      c'.beam.boundary = true ∧
      c'.core.busy = 0 ∧ c'.core.pc = c1.core.pc ∧ c'.core.g = c1.core.g ∧ c'.core.p = c1.core.p ∧ c'.mem = c1.mem) ∧
    (c.runTo c.vActive 0 = some c1 → c1.beam.done.contains 2 = false →
      exec (.vbl ch) s = .next (s.becomes ch (Cell.raise { c1 with
        beam := { c1.beam with done := 2 :: c1.beam.done }
        io := c1.io.setBit 0xE701 4 true } 6))) ∧
    (c.beam.boundary = false → exec (.blinkToggle ch) s = .next (s.becomes ch c)) ∧
    (c.beam.boundary = true → c.beam.entered = false →
      c.eff.rd 0xE7C0 ≠ 0#8 → (c.eff.rd 0xE7C0).toNat ≤ c.beam.blinkCount →
      exec (.blinkToggle ch) s = .next (s.becomes ch { c with
        beam := { c.beam with blinkCount := 0 }
        io := c.io.wr 0xE7C1 (c.io.rd 0xE7C1 ^^^ 1#8) }))) ∧
  (∀ (s : State) (ch n : Nat) (c c1 : Cell), s.runsOn ch c → n < 2 →
    let r := c.io.rdN (0xE708 + 4 * n) 4
    let dot := bitsOf r 10 0
    let line := if r.testBit 26 then (if c.beam.dot < dot then c.beam.line else c.beam.line + 1) else bitsOf r 25 16
    let acc := c.beam.bcAccepted.getD n 0
    let old := c.beam.bcOld.getD n 0
    let matched (k : Cell) : State := s.becomes ch (Cell.raise { k with
      beam := { k.beam with done := n :: k.beam.done }
      io := k.io.setBit 0xE701 n true } (4 + n))
    (acc < c.beam.ctime → r.testBit 31 = true → (r.testBit 26 = true → c.beam.dot ≠ dot) → dot < c.hTotal →
      line < c.vTotal → c.runTo line dot = some c1 → acc < c1.beam.ctime → c1.beam.done.contains n = false →
      exec (.beamCompareMatch ch n) s = .next (matched c1)) ∧
    (c.beam.ctime ≤ acc → c.compareHere old = true → c.beam.done.contains n = false →
      exec (.beamCompareMatch ch n) s = .next (matched c)) ∧
    (acc < c.beam.ctime → r.testBit 31 = false → exec (.beamCompareMatch ch n) s = .next (s.becomes ch c)))

/-- R171, R172: a commit is placed at this frame's transfer, or at the next one's, modulo 2³², when it comes after the cut; between the cut
and the end of the transfer, at its install tick, it is late. A second commit for a transfer is merged and counted.

R173: the cut takes the snapshot of the shadows written before its tick when a commit is pending and every limit holds; otherwise it
discards the commit and raises COMMIT_BAD, and the shadows keep their values.

R174: at (COMMIT_LINE, 0) the transfer installs the horizontal timing and the dot clock; at the install tick, 64 ticks later, every
other framed value takes effect and DONE is raised.
It rests on the model's choices of log entries 7, 36 to 38 and 61. -/
def Obligations.CommitsCutsAndTransfers : Prop :=
  (∀ (s : State) (ch : Nat) (c : Cell), s.runsOn ch c →
    let pos := c.nextPos
    let f := if c.atFrameEnd then (c.beam.frame + 1) % 4294967296 else c.beam.frame
    let next := (f + 1) % 4294967296
    let ended := c.beam.endFrame = true ∧ c.beam.installAt = none ∧ c.atFrameEnd = false
    let before := ¬ ended ∧ pos.1 < c.cutLine
    let placed (target : Nat) : Cell := { c with beam := { c.beam with commits := c.beam.commits ++ [target] } }
    let merged : Cell := { c with io := c.io.wrN 0xE702 2 (min 65535 (c.io.rdN 0xE702 2 + 1)) }
    let late := ¬ ended ∧ c.cutLine ≤ pos.1 ∧ (pos.1 < c.commitLine ∨ (pos.1 = c.commitLine ∧ pos.2 ≤ 63))
    (before → f ∉ c.beam.commits → exec (.commit ch) s = .next (s.becomes ch (placed f))) ∧
    (before → f ∈ c.beam.commits → exec (.commit ch) s = .next (s.becomes ch merged)) ∧
    (¬ before → ¬ late → next ∉ c.beam.commits →
      exec (.commit ch) s = .next (s.becomes ch (placed next))) ∧
    (¬ before → ¬ late → next ∈ c.beam.commits →
      exec (.commit ch) s = .next (s.becomes ch merged)) ∧
    (late → ∀ k : Cell, (next ∉ c.beam.commits ∧ k = placed next) ∨ (next ∈ c.beam.commits ∧ k = merged) →
      (c.io.bit 0xE701 2 = true → exec (.commit ch) s = .next (s.becomes ch
        (Cell.raise { k with io := k.io.setBit 0xE701 2 true } 9))) ∧
      (c.io.bit 0xE701 2 = false → exec (.commit ch) s = .next (s.becomes ch
        ((Cell.raise { k with io := k.io.setBit 0xE701 2 true } 9).emit (.notify 4 0 (c.beam.ctime + 1))))))) ∧
  (∀ (s : State) (ch : Nat) (c c1 : Cell), s.runsOn ch c → c.runTo c.cutLine 0 = some c1 →
    c1.beam.done.contains 3 = false → c1.io.wf = true → (¬ c.isAt c.cutLine 0 ∨ ¬ c.beam.done.contains 3) →
    c1.cutLine = c.cutLine →
    let f := c1.beam.frame
    let ok := snapshotOk c1.shadowsNow = true ∧ c1.shadowsNow.rdN 0xE730 4 ≤ 4 * c1.ioFreq
    ∃ c' : Cell,
      exec (.cut ch) s = .next ((s.becomes ch c').onChan ch Chan.dropReads) ∧
      (∀ k : Chan, k.dropReads = { k with
        layerOld := k.dropReads.layerOld, layerNext := [0, 0], layerOff := [0, 0], layerReads := [[], []] }) ∧
      (f ∈ c1.beam.commits → ok → c'.beam.snap = some c1.shadowsNow ∧ f ∈ c'.beam.commits) ∧
      (f ∈ c1.beam.commits → ¬ ok → c'.beam.snap = c1.beam.snap ∧ f ∉ c'.beam.commits ∧
        c'.io.bit 0xE701 3 = true ∧ c'.intc.pend.getLsbD 10 = true) ∧
      (f ∉ c1.beam.commits → c'.beam.snap = c1.beam.snap ∧ c'.beam.commits = c1.beam.commits ∧
        c'.intc.pend = c1.intc.pend) ∧
      c'.eff = c1.eff ∧ c'.mem = c1.mem ∧ c'.core = c1.core ∧ c'.beam.line = c1.beam.line ∧ c'.beam.dot = c1.beam.dot) ∧
  (∀ (s : State) (ch : Nat) (c c1 : Cell) (snap : Bytes), s.runsOn ch c → c.beam.snap = some snap →
    c1.eff.wf = true → c1.io.wf = true →
    (c.runTo c.commitLine 0 = some c1 → c1.beam.done.contains 4 = false → ∃ c' : Cell,
      exec (.transfer ch) s = .next (s.becomes ch c') ∧
      (∀ a, 0xE730 ≤ a → a < 0xE73C → c'.eff.rd a = snap.rd a) ∧
      (∀ a, (a < 0xE730 ∨ 0xE73C ≤ a) → c'.eff.rd a = c1.eff.rd a) ∧
      c'.beam.installAt = some (c1.beam.ctime + 64) ∧
      (c'.beam.endFrame = true ↔ ∃ a, 0xE73C ≤ a ∧ a < 0xE748 ∧ c1.eff.rd a ≠ snap.rd a) ∧
      c'.beam.line = c1.beam.line ∧ c'.beam.dot = c1.beam.dot ∧ c'.mem = c1.mem ∧ c'.io = c1.io ∧
      c'.core = { c1.core with spent := c1.coreCycles c1.beam.ctime, spentFrom := c1.beam.ctime }) ∧
    (∀ t : Nat, c.beam.installAt = some t → c.runToTime t = some c1 → c1.beam.done.contains 5 = false → ∃ c' : Cell,
      exec (.installTick ch) s = .next (s.becomes ch c') ∧
      (∀ a, a ∈ framedAddrs → c'.eff.rd a = snap.rd a) ∧ (∀ a, a ∉ framedAddrs → c'.eff.rd a = c1.eff.rd a) ∧
      c'.beam.snap = none ∧ c'.beam.installAt = none ∧ c'.io.bit 0xE701 6 = true ∧ c'.intc.pend.getLsbD 8 = true ∧
      c'.mem = c1.mem ∧ c'.core = c1.core ∧ c'.beam.ctime = c1.beam.ctime))

/-- R175 to R179: each entry of the raster sequencer, and the stops of R178. A WAIT for a position that the geometry does not have, at
the tick at which its entry is read, is held to the end of the frame.
It rests on the model's choices of log entry 24. -/
def Obligations.SequencerEntriesRun : Prop :=
  ∀ (s : State) (ch : Nat) (c c1 : Cell) (w : Word), s.runsOn ch c → c.seqEntry = some (c1, w) →
    let v := w.toNat
    let op := v / 2 ^ 29
    let t := c1.beam.ctime
    let a := 0xE700 + bitsOf v 25 16
    let lo : Byte := BitVec.ofNat 8 v &&& liveMask a
    let hi : Byte := BitVec.ofNat 8 (v / 256) &&& liveMask (a + 1)
    let line := bitsOf v 25 16
    let dot := bitsOf v 10 0
    let fine := c1.seq.count ≤ 1024 ∧ seqEntryOk w = true
    (fine → op = 4 → exec (.rsEnd ch) s = .next (s.becomes ch
      (let k := c1.seqNext w c1.seq.pc t
       { k with seq := { k.seq with run := false } }))) ∧
    (fine → op = 3 → exec (.rsBranch ch) s = .next (s.becomes ch (c1.seqNext w (bitsOf v 9 0) t))) ∧
    (fine → op = 2 → exec (.rsSkip ch) s = .next (s.becomes ch (c1.seqNext w
      (if (if v.testBit 16 then BitVec.ofNat 8 c1.beam.frame else c1.io.rd 0xE767) &&& BitVec.ofNat 8 (v / 256) =
          BitVec.ofNat 8 v then c1.seq.pc + 2 else c1.seq.pc + 1) t))) ∧
    (fine → op = 1 → v.testBit 27 = false → exec (.rsWrite ch) s = .next (s.becomes ch
      (let k := (c1.liveBytes t true [(a, lo)]).afterLive t true a
       k.seqNext w (k.seq.pc + 1) t))) ∧
    (fine → op = 1 → v.testBit 27 = true → exec (.rsWrite ch) s = .next (s.becomes ch
      (let k := (c1.liveBytes t true [(a, lo), (a + 1, hi)]).afterLive t true (a + 1)
       k.seqNext w (k.seq.pc + 1) t))) ∧
    (fine → op = 0 → c1.seq.reachable = false → exec (.rsWait ch) s = .next (s.becomes ch c1)) ∧
    (fine → op = 0 → c1.seq.reachable = true → line = c1.seq.posLine → dot = c1.seq.posDot →
      exec (.rsWait ch) s = .next (s.becomes ch (c1.seqNext w (c1.seq.pc + 1) c1.seq.ready))) ∧
    (fine → op = 0 → c1.seq.reachable = true →
      (line < c1.seq.posLine ∨ (line = c1.seq.posLine ∧ dot < c1.seq.posDot)) →
      exec (.rsWait ch) s = .next (s.becomes ch (Cell.seqNext
        { c1 with io := c1.io.setBit 0xE764 1 true } w (c1.seq.pc + 1) c1.seq.ready))) ∧
    (∀ c2 : Cell, fine → op = 0 → c1.seq.reachable = true →
      (c1.seq.posLine < line ∨ (line = c1.seq.posLine ∧ c1.seq.posDot < dot)) →
      (c1.beam.line < line ∨ (c1.beam.line = line ∧ c1.beam.dot ≤ dot)) → c1.runTo line dot = some c2 →
      exec (.rsWait ch) s = .next (s.becomes ch (c2.seqNext w (c1.seq.pc + 1) c2.beam.ctime))) ∧
    (∀ (k : Cell) (x : Word), k.seq.run = true → k.seq.word = none → k.seq.ready ≤ k.beam.ctime →
      k.latchEntry.seq.word = some x → (k.latchEntry.seq.reachable = true ↔
        bitsOf x.toNat 25 16 < k.vTotal ∧ bitsOf x.toNat 10 0 < k.hTotal)) ∧
    (1024 < c1.seq.count → (op = 4 ∨ 4 < op) → exec (.rsEnd ch) s = .next (s.becomes ch (c1.seqStop 2))) ∧
    (1024 < c1.seq.count → (op = 1 ∨ 4 < op) → exec (.rsWrite ch) s = .next (s.becomes ch (c1.seqStop 2))) ∧
    (c1.seq.count ≤ 1024 → seqEntryOk w = false → (op = 0 ∨ 4 < op) →
      exec (.rsWait ch) s = .next (s.becomes ch (c1.seqStop 3))) ∧
    (c1.seq.count ≤ 1024 → seqEntryOk w = false → (op = 1 ∨ 4 < op) →
      exec (.rsWrite ch) s = .next (s.becomes ch (c1.seqStop 3))) ∧
    (∀ pc : Nat, c1.io.wf = true → let k := c1.seqNext w pc t
      k.seq.pc = pc % 1024 ∧ k.seq.ready = t + 1 ∧ k.seq.word = none ∧ k.seq.run = c1.seq.run ∧
      (w.getLsbD 28 = true → k.intc.pend.getLsbD 11 = true ∧ k.io.bit 0xE764 0 = true) ∧
      (w.getLsbD 28 = false → k.intc = c1.intc ∧ k.io = c1.io)) ∧
    (∀ bit : Nat, bit < 8 → c1.io.wf = true → let k := c1.seqStop bit
      k.seq.run = false ∧ k.intc.pend.getLsbD 12 = true ∧ k.io.bit 0xE764 bit = true ∧ k.eff = c1.eff ∧
      k.beam = c1.beam)

/-- R194 to R202: the search keeps the first 32 sprites of its line within the allowance and counts the rest; a collision at a dot sets its bits, and
raises SPR_COLL when its flag was 0.
It rests on the model's choices of log entry 7. -/
def Obligations.SpritesAreSearched : Prop :=
  ∀ (s : State) (ch : Nat) (c c1 : Cell), s.runsOn ch c →
    (∀ (line y : Nat), 64 < c.hTotal → c.sprites.due = none → c1.sprites.due = none →
      line = (if c.beam.dot < 64 ∨ (c.beam.dot = 64 ∧ ¬ c.beam.done.contains 7) then c.beam.line else c.beam.line + 1) →
      c.runTo line 64 = some c1 → c1.beam.done.contains 7 = false → c1.sprites.target = some y →
      let found := (List.range 128).filterMap fun i => spriteEntry c1.sprites.latch i y
      let shown := withinAllowance (c1.hTotal - c1.planeCost 0xE780 - c1.planeCost 0xE7A0) (found.take 32)
      ∃ c' : Cell, exec (.spriteSearch ch) s = .next (s.becomes ch c') ∧
        c'.sprites.rows = c1.sprites.rows ++ [{ y := y, hits := shown }] ∧ c'.sprites.target = none ∧
        (found.length = shown.length → c'.io = c1.io ∧ c'.intc = c1.intc) ∧
        (shown.length < found.length → c'.intc.pend.getLsbD 13 = true ∧
          (c1.io.wf = true → c'.io.rdN 0xE7DA 2 =
              min 65535 (c1.io.rdN 0xE7DA 2 + (found.length - shown.length)) ∧
            (32 < found.length → c'.io.bit 0xE7D8 0 = true) ∧
            (shown.length < (found.take 32).length → c'.io.bit 0xE7D8 1 = true))) ∧
        c'.mem = c1.mem ∧ c'.core = c1.core ∧ c'.eff = c1.eff) ∧
    (∀ (line dot : Nat), c.runTo line dot = some c1 → line < c1.vActive → dot < c1.hActive →
      let c2 := c1.enterTick
      let h := c2.sprites.group.getD (dot % 8) { sprites := [], plane := false }
      c2.io.wf = true →
      (2 ≤ h.sprites.length → ∃ c' : Cell,
        exec (.spriteSpriteCollision ch line dot) s = .next (s.becomes ch c') ∧ c'.io.bit 0xE7D8 2 = true ∧
        (c2.io.bit 0xE7D8 2 = false → c'.intc.pend.getLsbD 14 = true) ∧
        (c2.io.bit 0xE7D8 2 = true → c'.intc = c2.intc) ∧ c'.mem = c2.mem ∧ c'.core = c2.core ∧ c'.eff = c2.eff) ∧
      (h.plane = true → h.sprites ≠ [] → ∃ c' : Cell,
        exec (.spritePlaneCollision ch line dot) s = .next (s.becomes ch c') ∧ c'.io.bit 0xE7D8 3 = true ∧
        (c2.io.bit 0xE7D8 3 = false → c'.intc.pend.getLsbD 14 = true) ∧
        (c2.io.bit 0xE7D8 3 = true → c'.intc = c2.intc) ∧ c'.mem = c2.mem ∧ c'.core = c2.core ∧ c'.eff = c2.eff)) ∧
    (∀ (b : Nat) (l : List SpriteHit), ((withinAllowance b l).map (·.cost)).sum ≤ b ∧ withinAllowance b l <+: l)

/-- R221, R228, R229, R238, R242: an underrun, a guard comparison and a band close at their ticks, and REFRESH_ALL, which the first frame
that begins after its acceptance answers.
It rests on the model's choices of log entries 7 and 39. -/
def Obligations.LayersGuardsAndBands : Prop :=
  ∀ (s : State) (ch : Nat) (c c1 : Cell), s.runsOn ch c →
    (∀ (l y : Nat), l < 2 → c.runTo y 0 = some c1 → c1.beam.done.contains (12 + l) = false → y < c1.vActive →
      c1.dry = false → c1.io.wf = true →
      let miss := c1.missingLines l y
      (miss = [] → exec (.layerUnderrun ch l y) s = .next (s.becomes ch c)) ∧
      (miss ≠ [] → ∃ c' : Cell, exec (.layerUnderrun ch l y) s = .next (s.becomes ch c') ∧
        c'.io.rdN (0xE9AC + 0x20 * l) 2 = min 65535 (c1.io.rdN (0xE9AC + 0x20 * l) 2 + miss.length) ∧
        c'.io.bit (0xE9AA + 0x20 * l) 0 = true ∧ c'.intc.pend.getLsbD (17 + l) = true ∧
        c'.mem = c1.mem ∧ c'.core = c1.core ∧ c'.eff = c1.eff)) ∧
    (∀ b : Nat, b < c.bandCount → c.dry = false → c.runTo (c.lastLine b) (c.hActive + 8) = some c1 →
      c1.beam.done.contains 8 = false →
      let miss (x : Nat) : Prop := x < c1.blockCols ∧ c1.regionsOf b x ≠ 0#8 ∧
        crc32c (pixelBytes ((blockDots (c1.bandLines b) x).map (·.main))) ≠
          crc32c (pixelBytes ((blockDots (c1.bandLines b) x).map (·.guarded)))
      ((∀ x, ¬ miss x) → exec (.guardCompare ch b) s = .next (s.becomes ch
        { c1 with beam := { c1.beam with done := 8 :: c1.beam.done } })) ∧
      ((∃ x, miss x) → ∃ c' : Cell, exec (.guardCompare ch b) s = .next (s.becomes ch c') ∧
        c'.intc.pend.getLsbD 15 = true ∧ c'.mem = c1.mem ∧ c'.core = c1.core ∧ c'.eff = c1.eff ∧
        (c1.io.wf = true → ∀ x, miss x → ∀ r, (c1.regionsOf b x).getLsbD r = true → c'.io.bit 0xEA82 r = true ∧
          (c1.eff.bit 0xEA81 r = true → c'.io.bit 0xEA83 r = true)))) ∧
    (∀ b : Nat, b < c.bandCount → c.hActive + 16 < c.hTotal → c.runTo (c.lastLine b) (c.hActive + 16) = some c1 →
      c1.beam.done.contains 9 = false → c1.picture.held = false → c1.picture.firstBand ≤ b → ∃ c' : Cell,
      exec (.bandClose ch b) s = .next (s.becomes ch c') ∧
      (∀ v ∈ c1.bandBlocks b, v.held = false → lookupNat c'.picture.hashes (b * c1.blockCols + v.col) = some v.hash) ∧
      c1.outq <+: c'.outq ∧ c'.mem = c1.mem ∧ c'.core = c1.core ∧ c'.eff = c1.eff) ∧
    (c.atFrameEnd = false → exec (.refreshAll ch) s = .next (s.becomes ch { c with
      io := c.io.setBit 0xEA04 0 true
      picture := { c.picture with refreshNext := [.shq, .clq, .svc] } })) ∧
    (c.atFrameEnd = true → exec (.refreshAll ch) s = .next (s.becomes ch { c with
      io := c.io.setBit 0xEA04 0 true
      beam := { c.beam with shadowLog := c.beam.shadowLog ++
        [{ accepted := c.beam.ctime + 1, addr := 0xEA04, old := 1#8 }] } }))

/-- R167, R213, R214, R500: a write of PAL_HI or of TBL_DATA's top byte applies the register with its held byte and makes the write of
the entry that the index names, both of which wait for a fetch boundary, and increments the index, modulo the size of
the table. In a reserved table no entry is written. Nothing else changes. -/
def Obligations.PaletteAndTableWrites : Prop :=
  ∀ (s : State) (ch : Nat) (c : Cell) (v : Byte), s.runsOn ch c → c.io.wf = true →
    let waits (op : LiveOp) : LiveWrite := { accepted := c.beam.ctime + 1, bySequencer := false, op := op }
    let held (a : Nat) : Byte := if c.holds.rd (2 * a + 1) = 0#8 then c.io.rd a else c.holds.rd (2 * a)
    let top := v &&& 0x3F#8
    let colour := ((held 0xE964).toNat + 256 * top.toNat) * 0x10000 + c.io.rdN 0xE962 2
    let sel := (c.io.rd 0xE970).toNat
    let i := c.io.rdN 0xE972 2 % tableSize sel
    let value := ((held 0xE974).toNat + 256 * v.toNat) % 2 ^ tableBits sel
    exec (.palHiWrite ch v) s = .next (s.becomes ch { c with
      holds := (c.holds.wr 0x1D2C8 0#8).wr 0x1D2C9 0#8
      io := ((c.io.wr 0xE964 (held 0xE964)).wr 0xE965 top).wr 0xE960 (c.io.rd 0xE960 + 1#8)
      beam := { c.beam with pendLive := c.beam.pendLive ++
        [waits (.byte 0xE964 (held 0xE964)), waits (.byte 0xE965 top),
          waits (.palette (c.io.rd 0xE960).toNat (BitVec.ofNat 32 colour))] } }) ∧
    (tableSize sel ≠ 0 → exec (.tblDataWrite ch v) s = .next (s.becomes ch { c with
      holds := (c.holds.wr 0x1D2E8 0#8).wr 0x1D2E9 0#8
      io := ((c.io.wr 0xE974 (held 0xE974)).wr 0xE975 v).wrN 0xE972 2 ((i + 1) % tableSize sel)
      beam := { c.beam with pendLive := c.beam.pendLive ++
        [waits (.byte 0xE974 (held 0xE974)), waits (.byte 0xE975 v),
          waits (.table sel i (BitVec.ofNat 16 value))] } })) ∧
    (tableSize sel = 0 → exec (.tblDataWrite ch v) s = .next (s.becomes ch { c with
      holds := (c.holds.wr 0x1D2E8 0#8).wr 0x1D2E9 0#8
      io := (c.io.wr 0xE974 (held 0xE974)).wr 0xE975 v
      beam := { c.beam with pendLive := c.beam.pendLive ++
        [waits (.byte 0xE974 (held 0xE974)), waits (.byte 0xE975 v)] } }))

/-! ### The blitter and DMA -/

/-- R269: the raster operation of a pixel of d bits: result bit i is ROP[2s + t] of the source's and the destination's bits i. The operations of
the table, and when the result depends on the destination. -/
def Obligations.RasterOperations : Prop :=
  (∀ rop d s t i : Nat, i < d → (ropBits rop d s t).testBit i =
    rop.testBit (2 * (s.testBit i).toNat + (t.testBit i).toNat)) ∧
  (∀ rop d s t : Nat, ropBits rop d s t < 2 ^ d) ∧
  (∀ d s t : Nat, ropBits 0x0 d s t = 0 ∧ ropBits 0x3 d s t = 2 ^ d - 1 - s % 2 ^ d ∧
    ropBits 0x5 d s t = 2 ^ d - 1 - t % 2 ^ d ∧ ropBits 0x6 d s t = Nat.xor (s % 2 ^ d) (t % 2 ^ d) ∧
    ropBits 0x8 d s t = Nat.land (s % 2 ^ d) (t % 2 ^ d) ∧ ropBits 0xA d s t = t % 2 ^ d ∧
    ropBits 0xC d s t = s % 2 ^ d ∧ ropBits 0xE d s t = Nat.lor (s % 2 ^ d) (t % 2 ^ d)) ∧
  (∀ rop d : Nat, 0 < d → ((∃ s t u : Nat, ropBits rop d s t ≠ ropBits rop d s u) ↔
    (rop.testBit 0 ≠ rop.testBit 1 ∨ rop.testBit 2 ≠ rop.testBit 3)))

/-- R267 to R275: GO runs the image or fetches the list, each operation draws its words or pixels in order, and the end of a command raises
BLT or goes on with the list. A refused command writes nothing; a GO while BUSY is lost.
It rests on the model's choices of log entries 48 to 51 and 56. -/
def Obligations.BlitterCommands : Prop :=
  ∀ (s : State) (ch : Nat) (c : Cell), s.runsOn ch c →
    let b := c.blitter
    let g := drawOf b.cmd
    let clips := c.clipsOf b.cmd
    let left := (g.units clips).drop b.pos
    let drawn : Cell := { c with
      mem := left.foldl (g.unit clips b.pattern) c.mem
      blitter := { b with pos := b.pos + left.length, phase := .finished } }
    let part (k : Nat) : Cell := { c with
      mem := (left.take k).foldl (g.unit clips b.pattern) c.mem
      blitter := { b with pos := b.pos + k } }
    let finished : Cell := { c with blitter := { b with phase := .finished } }
    let image := c.io.block 0xE600 32
    let listed := (List.range 32).map fun i => c.mem.rd ((b.pc + i) % 0x80000)
    let shown : Cell := { c with io := (c.io.put 0xE600 listed).wrN 0xE648 3 (b.pc / 32 * 32 % 0x80000) }
    let started (k : Cell) (cmd : List Byte) : Cell := { k with blitter := { k.blitter with
      phase := .run, cmd := cmd, pos := 0
      pattern := (List.range 8).map fun i => k.mem.rd ((cmdField cmd 12 4 + i) % 0x80000) } }
    let refused (k : Cell) (code : Nat) : Cell := Cell.raise { k with
      io := (k.io.setBit 0xE641 1 true).wr 0xE642 (BitVec.ofNat 8 code)
      blitter := { k.blitter with phase := .idle } } 20
    (b.phase = .idle → c.io.bit 0xE640 7 = false → c.blitCheck image = none →
      exec (.bltGo ch) s = .next (s.becomes ch (started c image))) ∧
    (∀ code : Nat, b.phase = .idle → c.io.bit 0xE640 7 = false → c.blitCheck image = some code →
      exec (.bltGo ch) s = .next (s.becomes ch (refused c code))) ∧
    (b.phase = .idle → c.io.bit 0xE640 7 = true → exec (.bltGo ch) s = .next (s.becomes ch { c with
      blitter := { b with phase := .fetch, pc := c.io.rdN 0xE644 3 }
      io := c.io.wrN 0xE648 3 (c.io.rdN 0xE644 3 / 32 * 32) })) ∧
    (b.phase ≠ .idle → exec (.bltGo ch) s = .next (s.becomes ch { c with io := c.io.setBit 0xE641 2 true })) ∧
    (b.phase = .fetch → c.portFree 4 = true → shown.blitCheck listed = none →
      exec (.bltCommandFetch ch) s = .next (s.becomes ch (started shown listed))) ∧
    (∀ code : Nat, b.phase = .fetch → c.portFree 4 = true → shown.blitCheck listed = some code →
      exec (.bltCommandFetch ch) s = .next (s.becomes ch (refused shown code))) ∧
    (∀ (m : Nat) (units : Option Nat), m < 4 → c.wantsPort m = true →
      let waits (i : Instr) : Prop := exec i s = .next (s.becomes ch c)
      waits (.bltCommandFetch ch) ∧ waits (.copy ch units) ∧ waits (.fill ch units) ∧ waits (.patfill ch units) ∧
      waits (.line ch units) ∧ waits (.keycopy ch units) ∧ waits (.expand ch units)) ∧
    (b.phase = .run →
      (cmdOp b.cmd = 0 → exec (.bltNop ch) s = .next (s.becomes ch finished)) ∧
      (cmdOp b.cmd = 15 → exec (.bltJump ch) s = .next (s.becomes ch finished)) ∧
      (cmdOp b.cmd = 14 → exec (.setclip ch) s = .next (s.becomes ch { c with blitter := { b with
        phase := .finished
        clips := updateAt b.clips (cmdField b.cmd 0x18 2 % 4) fun _ =>
          { x0 := cmdField b.cmd 0x10 2, y0 := cmdField b.cmd 0x12 2
            xEnd := cmdField b.cmd 0x10 2 + cmdField b.cmd 0x14 2
            yEnd := cmdField b.cmd 0x12 2 + cmdField b.cmd 0x16 2 } } }))) ∧
    (b.phase = .run → c.portFree 4 = true →
      (cmdOp b.cmd = 1 → exec (.copy ch none) s = .next (s.becomes ch drawn)) ∧
      (cmdOp b.cmd = 2 → exec (.fill ch none) s = .next (s.becomes ch drawn)) ∧
      (cmdOp b.cmd = 3 → exec (.patfill ch none) s = .next (s.becomes ch drawn)) ∧
      (cmdOp b.cmd = 4 → exec (.line ch none) s = .next (s.becomes ch drawn)) ∧
      (cmdOp b.cmd = 5 → exec (.keycopy ch none) s = .next (s.becomes ch drawn)) ∧
      (cmdOp b.cmd = 6 → exec (.expand ch none) s = .next (s.becomes ch drawn)) ∧
      (∀ k : Nat, k < left.length →
        (cmdOp b.cmd = 1 → exec (.copy ch (some k)) s = .next (s.becomes ch (part k))) ∧
        (cmdOp b.cmd = 2 → exec (.fill ch (some k)) s = .next (s.becomes ch (part k))) ∧
        (cmdOp b.cmd = 3 → exec (.patfill ch (some k)) s = .next (s.becomes ch (part k))) ∧
        (cmdOp b.cmd = 4 → exec (.line ch (some k)) s = .next (s.becomes ch (part k))) ∧
        (cmdOp b.cmd = 5 → exec (.keycopy ch (some k)) s = .next (s.becomes ch (part k))) ∧
        (cmdOp b.cmd = 6 → exec (.expand ch (some k)) s = .next (s.becomes ch (part k))))) ∧
    (b.phase = .finished →
      let list := c.io.bit 0xE640 7
      let stop := (cmdFlags b.cmd).testBit 5
      let irq := (cmdFlags b.cmd).testBit 7 = true ∨ (list = true ∧ stop = true)
      let next := if cmdOp b.cmd = 15 then cmdField b.cmd 12 4 else (b.pc + 32) % 0x80000
      let k : Cell := if list = true ∧ stop = false then
          { c with blitter := { b with phase := .fetch, pc := next } }
        else { c with blitter := { b with phase := .idle } }
      (irq → exec (.bltCommandEnd ch) s = .next (s.becomes ch
        (Cell.raise { k with io := c.io.setBit 0xE641 0 true } 19))) ∧
      (¬ irq → exec (.bltCommandEnd ch) s = .next (s.becomes ch k))) ∧
    exec (.bltAbort ch) s = .next (s.becomes ch { c with blitter := { b with phase := .idle } })

/-- R277 to R284: DESC_PTR starts an enabled idle stream, a descriptor is fetched and run or refused with cause 5h, a request starts a unit, a
unit moves its pieces or ends in a bus error that writes BAD, and the completion record goes into the ring.

R277, R281, R283, R284: DESC_PTR, CR_RD, CR_BASE and CR_SIZE are written, a stream is dropped, and the end of the drain
leaves it idle or restarts it.
It rests on the model's choices of log entries 27, 28, 52 to 55 and 117. -/
def Obligations.DmaStreamsRun : Prop :=
  (∀ (s : State) (ch n : Nat) (c : Cell), s.runsOn ch c → n < 4 → n < c.dma.length →
    let x := c.stream n
    let put (k : Cell) (y : DmaStream) : Cell := k.setStream n fun _ => y
    let bad := c.descPtr n + 10
    let after (y : DmaStream) : DmaPhase :=
      if descCount y.desc ≤ y.done then .record else if c.dmaReq n = 0 then .moving else .waiting
    let d := (List.range 16).map fun i => c.mem.rd ((c.descPtr n + i) % 0x80000)
    let at_ (io : Bool) (v : Nat) : Nat := if io then v % 0x1000 else v % 0x80000
    let fetched : DmaStream := { x with
      desc := d, src := at_ (descSio d) (descField d 0 4), dst := at_ (descDio d) (descField d 4 4)
      done := 0, cause := 0, side := false }
    (x.phase = .fetch → c.portFree n = true → descRuns d = true → exec (.dmaDescriptorFetch ch n) s = .next (s.becomes ch
      (put c { fetched with phase := if c.dmaReq n = 0 then .moving else .waiting }))) ∧
    (x.phase = .fetch → c.portFree n = true → descRuns d = false → exec (.dmaDescriptorFetch ch n) s = .next (s.becomes ch
      { (put c { fetched with phase := .record, cause := 5, side := Config.sideNotRun c.free }) with
        free := c.free + 1 })) ∧
    (x.phase = .waiting → c.dmaLevel (c.dmaReq n) = some true → exec (.dmaRequest ch n) s =
      .next (s.becomes ch (put c { x with phase := .moving }))) ∧
    (x.phase = .waiting → c.dmaLevel (c.dmaReq n) = none → x.request = true → exec (.dmaRequest ch n) s =
      .next (s.becomes ch (put c { x with phase := .moving, request := false }))) ∧
    (∀ m : Nat, m < n → c.wantsPort m = true →
      exec (.dmaDescriptorFetch ch n) s = .next (s.becomes ch c) ∧
      exec (.dmaUnitComplete ch n none) s = .next (s.becomes ch c) ∧
      exec (.dmaDescriptorComplete ch n) s = .next (s.becomes ch c)) ∧
    (∀ (k : Cell) (y : DmaStream), x.phase = .moving → c.portFree n = true →
      Cell.dmaPieces (c.dmaUnit n x) (c.dmaUnit n x) x c = (k, y, none) →
      exec (.dmaUnitComplete ch n none) s = .next (s.becomes ch (put k { y with phase := after y }))) ∧
    (∀ (k : Cell) (y : DmaStream) (cause : Nat) (side : Bool), x.phase = .moving → c.portFree n = true →
      Cell.dmaPieces (c.dmaUnit n x) (c.dmaUnit n x) x c = (k, y, some (cause, side)) →
      exec (.dmaUnitComplete ch n none) s = .next (s.becomes ch
        (put { k with
            mem := if k.bulkRefused (bad % 0x80000) then k.mem else k.mem.orb (bad % 0x80000) 4#8 }
          { y with phase := .record, cause := cause, side := side }))) ∧
    (∀ unit : Nat, let ctl := descCtl x.desc
      descSio x.desc = false → descDio x.desc = false →
      let word := x.src % 4 = 0 ∧ x.dst % 4 = 0 ∧ ctl.testBit 4 = false ∧ ctl.testBit 3 = false ∧ 4 ≤ unit
      (word → c.bulkRefused x.dst = false → c.dmaPiece x unit = .moved
        { c with mem := c.mem.put x.dst ((List.range 4).map fun i => c.mem.rd ((x.src + i) % 0x80000)) }
        { x with src := (x.src + 4) % 0x80000, dst := (x.dst + 4) % 0x80000, done := x.done + 4 } 4) ∧
      (¬ word → c.bulkRefused x.dst = false → c.dmaPiece x unit = .moved
        { c with mem := c.mem.put x.dst [c.mem.rd (x.src % 0x80000)] }
        { x with
          src := if ctl.testBit 4 then x.src else (x.src + 1) % 0x80000
          dst := if ctl.testBit 3 then x.dst else (x.dst + 1) % 0x80000
          done := x.done + 1 } 1) ∧
      (c.bulkRefused x.dst = true → c.dmaPiece x unit = .error c 2 true)) ∧
    (x.phase = .record → c.portFree n = true → c.ringFull n = true → exec (.dmaDescriptorComplete ch n) s = .next (s.becomes ch
      { c with io := c.io.setBit (dAddr n 1) 3 true })) ∧
    (x.phase = .record → c.portFree n = true → c.ringFull n = false → c.io.wf = true → c.mem.wf = true → ∃ k : Cell,
      let size := c.ringSize n
      let wr := c.io.rdN (dAddr n 9) 2 % size
      let a (i : Nat) : Nat := (c.io.rdN (dAddr n 6) 3 + 8 * wr + i) % 0x80000
      exec (.dmaDescriptorComplete ch n) s = .next (s.becomes ch k) ∧
      (c.bulkRefused (a 0) = false → (∀ i, i < 8 → k.mem.rd (a i) = (x.record (c.descPtr n)).getD i 0#8) ∧
        ∀ m, (∀ i, i < 8 → m ≠ a i) → k.mem.rd m = c.mem.rd m) ∧
      (c.bulkRefused (a 0) = true → k.mem = c.mem ∧ k.intc.pend.getLsbD 25 = true) ∧
      k.io.rdN (dAddr n 9) 2 = (wr + 1) % size % 65536 ∧
      (k.stream n).phase = (if descLast x.desc then .idle else .fetch) ∧
      (k.stream n).ringPhase = (if (wr + 1) % size = 0 then !x.ringPhase else x.ringPhase) ∧
      ((x.cause = 1 ∨ x.cause = 2 ∨ x.cause = 3) → k.intc.pend.getLsbD 25 = true) ∧
      (x.cause = 0 → (descCtl x.desc).testBit 7 = true → k.intc.pend.getLsbD (21 + n) = true) ∧
      k.core = c.core ∧ k.beam = c.beam)) ∧
  (∀ (s : State) (ch n : Nat) (c : Cell), s.runsOn ch c → n < 4 → n < c.dma.length →
    let x := c.stream n
    let desc (v : BitVec 24) : Bytes := ((c.io.wr (dAddr n 2) (v.setWidth 8 &&& 0xF0#8)).wr (dAddr n 3)
      ((v >>> 8).setWidth 8)).wr (dAddr n 4) ((v >>> 16).setWidth 8 &&& 7#8)
    let off := c.io.setBit (dAddr n 0) 7 false
    let dropped (k : Cell) : Cell :=
      { (k.setStream n fun _ => { x with
          phase := .drain, request := x.request && Config.keepsRequest c.free, restart := false }) with
        free := c.free + 1, io := k.io.setBit (dAddr n 1) 3 false }
    (∀ v : BitVec 24, x.phase = .idle → c.io.bit (dAddr n 0) 7 = false →
      exec (.descPtrWrite ch n v) s = .next (s.becomes ch { c with io := desc v })) ∧
    (∀ v : BitVec 24, x.phase = .idle → c.io.bit (dAddr n 0) 7 = true →
      exec (.descPtrWrite ch n v) s = .next (s.becomes ch
        { (c.setStream n fun y => { y with phase := .fetch, restart := false }) with
          io := (desc v).setBit (dAddr n 1) 0 false })) ∧
    (∀ v : BitVec 24, x.phase ≠ .idle → exec (.descPtrWrite ch n v) s = .next (s.becomes ch c)) ∧
    (∀ v : Half, let io := (c.io.wr (dAddr n 0x0B) (v.setWidth 8)).wr (dAddr n 0x0C) ((v >>> 8).setWidth 8 &&& 3#8)
      let k : Cell := { c with io := io }
      exec (.crRdWrite ch n v) s = .next (s.becomes ch
        (if x.phase = .record ∧ k.ringFull n = false then { k with io := io.setBit (dAddr n 1) 3 false } else k))) ∧
    (∀ v : BitVec 24, exec (.crBaseWrite ch n false v) s = .next (s.becomes ch
      { (c.setStream n fun y => { y with ringPhase := true }) with
        io := (((c.io.wr (dAddr n 6) (v.setWidth 8 &&& 0xF8#8)).wr (dAddr n 7) ((v >>> 8).setWidth 8)).wr (dAddr n 8)
          ((v >>> 16).setWidth 8 &&& 7#8)).wrN (dAddr n 9) 2 0 })) ∧
    (∀ v : BitVec 24, let size := v.toNat % 16
      (2 ≤ size → size ≤ 10 → exec (.crBaseWrite ch n true v) s = .next (s.becomes ch
        { (c.setStream n fun y => { y with ringPhase := true }) with
          io := (c.io.wr (dAddr n 5) (BitVec.ofNat 8 size)).wrN (dAddr n 9) 2 0 })) ∧
      ((size < 2 ∨ 10 < size) → exec (.crBaseWrite ch n true v) s = .next (s.becomes ch c))) ∧
    (c.io.bit (dAddr n 0) 7 = true → x.phase ≠ .idle → x.phase ≠ .drain → x.phase ≠ .moving →
      exec (.dmaStreamDrop ch n) s = .next (s.becomes ch (dropped { c with io := off }))) ∧
    (∀ (k : Cell) (y : DmaStream) (r : Option (Nat × Bool)), c.io.bit (dAddr n 0) 7 = true → x.phase = .moving →
      Cell.dmaPieces (min (c.dmaUnit n x) (Config.droppedPieces c.free)) (c.dmaUnit n x) x { c with io := off } =
        (k, y, r) →
      exec (.dmaStreamDrop ch n) s = .next (s.becomes ch (dropped k))) ∧
    (x.phase = .drain → x.restart = false → exec (.dmaDropDrainEnd ch n) s = .next (s.becomes ch
      (c.setStream n fun y => { y with phase := .idle }))) ∧
    (x.phase = .drain → x.restart = true → exec (.dmaDropDrainEnd ch n) s = .next (s.becomes ch
      { (c.setStream n fun y => { y with phase := .fetch, restart := false }) with
        io := c.io.setBit (dAddr n 1) 0 false })))

/-! ### Audio -/

/-- R290 to R294: a chip tick counts every enabled voice, and one whose counter is at 0 reloads and advances; a reload or a step takes the beam to
the chip tick that makes it; a chip tick accepts a written CLICK; the PCM voice takes its bytes, and a trigger takes a
sample from them, holds the last one when it underruns, and is dropped when it comes too early; without one for 250
microseconds the voice is slow.

R287, R288, R298 to R302, R305 to R308: the mixer's writes wait for their mix tick; a mix tick delivers each output's sample of the tick
before; the host-out packet, the pin-in window, the PWM period and the loopback FIFO.
It rests on the model's choices of log entries 30 to 33, 57 to 62 and 118. -/
def Obligations.VoicesMixerAndOutputs : Prop :=
  (∀ (s : State) (ch : Nat) (c : Cell), s.runsOn ch c →
    let a := c.audio
    let fifo := a.pcmFifo
    let cfg := c.io.rd 0xEB58
    let t := bitsOf cfg.toNat 3 2
    let w := if bitsOf cfg.toNat 6 5 = 2 then 2 else 1
    let early (clocks : Nat) : Prop := clocks * 48000 * 0x100000000 < 400000000 * c.ioFreq
    let taken (clocks : Nat) : Audio :=
      { a with
        pcmTrigger := a.pcmTrigger ^^^ (1 <<< t), pcmInterval := clocks, pcmSlow := false
        pcmAt := some c.beam.ctime }
    let k := c.chipTick
    let counted (x : Voice) (en per size : Nat) : Voice :=
      if k.eff.bit en 7 = false then x
      else if x.count = 0 then { count := k.eff.rdN per 2, phase := (x.phase + 1) % size }
      else { x with count := x.count - 1 }
    let reloads (i : Instr) (en : Nat) (v : Audio → Option Voice) : Prop :=
      (∀ c1, Cell.passToChip (Cell.reloads en v) c.dotsLeft c = some c1 → exec i s = .next (s.becomes ch c1)) ∧
      (Cell.passToChip (Cell.reloads en v) c.dotsLeft c = none → exec i s = .next (s.becomes ch c))
    (∀ v : Nat, v < 4 → reloads (.toneReload ch v) (0xEB13 + 4 * v) fun x => x.tones[v]?) ∧
    reloads (.noiseStep ch) 0xEB22 (fun x => some x.noise) ∧
    (∀ v : Nat, v < 2 → reloads (.waveAdvance ch v) (0xEB26 + 4 * v) fun x => x.waves[v]?) ∧
    (c.eff.wf = true →
      (∀ v : Nat, v < 4 → k.audio.tones[v]? =
        (a.tones[v]?).map fun x => counted x (0xEB13 + 4 * v) (0xEB10 + 4 * v) 16) ∧
      k.audio.noise = counted a.noise 0xEB22 0xEB20 1 ∧
      k.audio.shift = (if k.eff.bit 0xEB22 7 = true ∧ a.noise.count = 0 then noiseNext (k.eff.bit 0xEB22 6) a.shift
        else a.shift) ∧
      (∀ v : Nat, v < 2 → k.audio.waves[v]? =
        (a.waves[v]?).map fun x => counted x (0xEB26 + 4 * v) (0xEB24 + 4 * v) 32)) ∧
    (∀ c1 : Cell, a.clickDirty = true →
      Cell.passUntil (fun x => x.audio.chipTicks != a.chipTicks) 2048 c = some c1 →
      exec (.clickAccept ch) s = .next (s.becomes ch c1)) ∧
    (a.clickDirty = false → exec (.clickAccept ch) s = .next (s.becomes ch c)) ∧
    (c.eff.wf = true → a.clickDirty = true → c.chipTick.eff.rd 0xEB50 = c.io.rd 0xEB50 ∧
      c.chipTick.audio.clickDirty = false ∧ c.chipTick.audio.chipTicks = a.chipTicks + 1) ∧
    (∀ v : Byte, fifo.length < 32 → exec (.pcmData ch v) s = .next (s.becomes ch
      { c with audio := { a with pcmFifo := fifo ++ [v] } })) ∧
    (∀ v : Byte, 32 ≤ fifo.length → exec (.pcmData ch v) s = .next (s.becomes ch
      { c with io := c.io.setBit 0xEB5B 3 true })) ∧
    (∀ clocks : Nat, a.pcmTrigger.testBit t = true → cfg.getLsbD 7 = true → c.nap.napping = false →
      (early clocks → exec (.pcmTrigger ch clocks) s = .next (s.becomes ch { c with
        audio := { a with pcmTrigger := a.pcmTrigger ^^^ (1 <<< t) }
        io := c.io.setBit 0xEB5B 1 true })) ∧
      (¬ early clocks → w ≤ fifo.length → exec (.pcmTrigger ch clocks) s = .next (s.becomes ch { c with
        audio := { taken clocks with
          pcmSamples := (pcmValue (bitsOf cfg.toNat 6 5) (fifo.take w) :: a.pcmSamples).take 4
          pcmFifo := fifo.drop w } })) ∧
      (¬ early clocks → fifo.length < w → exec (.pcmTrigger ch clocks) s = .next (s.becomes ch { c with
        audio := { taken clocks with pcmSamples := (a.pcmSamples.headD 0 :: a.pcmSamples).take 4 }
        io := countOpen (c.io.setBit 0xEB5B 0 true) 0xEB5C }))) ∧
    (∀ at_ : Nat, let due := at_ + 25000 * c.eff.rdN 0xE730 4 / 0x100000000
      let slow (x : Cell) : State := s.becomes ch { x with
        io := x.io.setBit 0xEB5B 2 true, audio := { x.audio with pcmSlow := true } }
      a.pcmAt = some at_ → cfg.getLsbD 7 = true → c.nap.napping = false → a.pcmSlow = false →
      (due ≤ c.beam.ctime → exec (.pcmSlow ch) s = .next (slow c)) ∧
      (∀ x, c.beam.ctime < due → c.runToTime due = some x → exec (.pcmSlow ch) s = .next (slow x)) ∧
      (c.beam.ctime < due → c.runToTime due = none → exec (.pcmSlow ch) s = .next (s.becomes ch c))) ∧
    ((a.pcmAt = none ∨ cfg.getLsbD 7 = false ∨ c.nap.napping = true ∨ a.pcmSlow = true) →
      exec (.pcmSlow ch) s = .next (s.becomes ch c))) ∧
  (∀ (s : State) (ch : Nat) (c : Cell), s.runsOn ch c →
    let a := c.audio
    let p := a.pinIn
    let kept (c' : Cell) : Prop := c'.core = c.core ∧ c'.mem = c.mem ∧ c'.beam = c.beam ∧ c'.eff = c.eff
    (∀ v : Half, c.holds.wf = true → (c.io.rd 0xEB60).toNat % 128 < 96 → ∃ c' : Cell,
      exec (.nodeGainWrite ch v) s = .next (s.becomes ch c') ∧ kept c' ∧
      c'.audio = { a with mixWrites := a.mixWrites ++ [.gain ((c.io.rd 0xEB60).toNat % 128) v.toInt] }) ∧
    (∀ v : Half, c.holds.wf = true → ∃ c' : Cell,
      exec (.routeMove ch v) s = .next (s.becomes ch c') ∧ kept c' ∧ c'.io = c.io ∧
      c'.audio = { a with mixWrites := a.mixWrites ++
        [.move (bitsOf v.toNat 15 12) (bitsOf v.toNat 10 8) (bitsOf v.toNat 6 4)] }) ∧
    (∀ v : Byte, exec (.bqApply ch v) s = .next (s.becomes ch { c with
      io := c.io.orb 0xEB7B v
      audio := { a with mixWrites := a.mixWrites ++
        (List.range 8).filterMap fun i => if v.toNat.testBit i then some (.apply i) else none } })) ∧
    (∀ since : Nat, c.nap.napping = true → exec (.mixTick ch since) s = .next (s.becomes ch
      { c with audio := { a with mixTicks := a.mixTicks + 1, packet := [] } })) ∧
    (∀ since : Nat, c.nap.napping = false → ∃ c' : Cell,
      exec (.mixTick ch since) s = .next (s.becomes ch c') ∧ c'.core = c.core ∧ c'.mem = c.mem ∧ c'.beam = c.beam ∧
      c'.audio.mixTicks = a.mixTicks + 1 ∧ c'.audio.mixWrites = [] ∧
      (∀ o : Nat, (c'.audio.outs[o]?).map (·.sample) = (a.outs[o]?).map (·.next)) ∧
      (a.mixWrites = [] → c.eff.bit 0xEB98 7 = true → a.loopback.length < 64 → ∃ w : Word,
        c'.audio.loopback = a.loopback ++ [w]) ∧
      (a.mixWrites = [] → c.eff.bit 0xEB98 7 = false → c'.audio.loopback = a.loopback)) ∧
    (∀ bytes : List Byte, a.packet.length = 48 → a.mixTicks % 48 = 0 → c.eff.bit 0xEB00 7 = true →
      bytes = (a.packet.flatMap fun f =>
        if c.eff.bit 0xEB00 6 then leBytes 4 (wordOf 32 f.1) ++ leBytes 4 (wordOf 32 f.2)
        else leBytes 2 (wordOf 16 (sample16 f.1)) ++ leBytes 2 (wordOf 16 (sample16 f.2))) →
      exec (.audioPacket ch) s = .next (s.becomes ch { c with
        audio := { a with packet := [] }
        outq := c.outq ++ [.audio (a.mixTicks / 48 - 1) a.packetStamp (c.eff.bit 0xEB00 6) bytes] })) ∧
    (48 ≤ p.ticks → (2 < p.empties ∨ 2 < p.fulls) → p.refused = false → exec (.pinInWindow ch) s = .next (s.becomes ch
      (Cell.raise { c with
        audio := { a with pinIn := { p with
          ticks := 0, empties := 0, fulls := 0, refused := true, from_ := p.value, k := 0 } }
        io := c.io.setBit 0xEB89 1 true } 28))) ∧
    (48 ≤ p.ticks → ¬ ((2 < p.empties ∨ 2 < p.fulls) ∧ p.refused = false) →
      exec (.pinInWindow ch) s = .next (s.becomes ch { c with
        audio := { a with pinIn := { p with ticks := 0, empties := 0, fulls := 0 } } })) ∧
    (∀ n : Nat, n < 2 → c.eff.bit (0xEB92 + n) 7 = true →
      let per := max 64 (c.eff.rdN 0xEB90 2)
      let z := (a.outs[2 + n]?).elim 0 (·.sample)
      exec (.pwmPeriod ch n) s = .next (s.becomes ch { c with audio := { a with
        pwm := updateAt a.pwm n fun _ => {
          length := per, high := ((z + 8388608) * per / 16777216).toNat, start := c.beam.ctime } } })) ∧
    (∀ (w : Word) (t : List Word), a.loopback = w :: t → c.latched.wf = true → ∃ c' : Cell,
      exec (.lbDataRead ch) s = .next (s.becomes ch c') ∧ kept c' ∧ c'.io = c.io ∧
      c'.audio = { a with loopback := t } ∧
      (∀ i, 1 ≤ i → i < 4 → c'.latched.rd (0xEB9C + i) = BitVec.ofNat 8 (w.toNat / 256 ^ i))))

/-! ### The PIO engines -/

/-- R313 to R325: in its cycle an enabled engine executes the word at its PC, or the one that stalls in its latch; it then goes on, jumps, stays stalled, or
is refused and loses its EN.

R319, R320: what instructions of the engines do to the engine: JMP's counters, IN and OUT with automatic push and pull, PUSH and PULL on full and empty
queues, EXCH, and WAIT and IRQ on a flag: of the requests of one I/O clock a set wins, and a flag is tested as the clock found it
(R324).
It rests on the model's choice of log entry 119. -/
def Obligations.PioEnginesRun : Prop :=
  (∀ (s : State) (ch n : Nat) (c : Cell) (same : Bool), s.runsOn ch c → n < 4 → c.io.bit 0xE400 n = true →
    c.nap.napping = false →
    let u := c.pioSetup n
    let e : Engine := { c.engine n with pc := if u.len ≤ (c.engine n).pc then 0 else (c.engine n).pc }
    let word : Half := e.latch.getD (BitVec.ofNat 16 (c.io.rdN (0xE480 + 2 * (u.base + e.pc)) 2))
    let w := word.toNat % 512
    let op := word.toNat / 4096
    let e0 : Engine := { e with acc := c.dividerAfter n e }
    let fault : Cell := Cell.raise { (c.setEngine n e0) with
      io := (c.io.setBit 0xE400 n false).setBit 0xE402 n true } 33
    let finish (e : Engine) (k : Cell) : Cell :=
      k.setEngine n { e with cyc := e.cyc + 1, values := sideDrive u word.toNat e.values }
    let end_ (r : PioNext) : State := s.becomes ch (match r with
      | .fault => fault
      | .stall e' k => finish { e' with latch := some word } k
      | .done e' k none => finish { e' with latch := none, triggers := 0#4, pc := (e'.pc + 1) % (max 1 u.len) } k
      | .done e' k (some t) =>
        if u.len ≤ t then fault else finish { e' with latch := none, triggers := 0#4, pc := t } k)
    let side := word.toNat.testBit 11 = true ∨ bitsOf word.toNat 10 9 = 0
    (side →
      (op = 0 → exec (.pioJmp ch n) s = .next (end_ (pioJmp c e0 u w))) ∧
      (op = 1 → exec (.pioWait ch ⟨n, same⟩) s = .next (end_ (pioWait (c.flagClock same) e0 w))) ∧
      (op = 2 → exec (.pioIn ch n) s = .next (end_ (pioIn c e0 u w))) ∧
      (op = 3 → exec (.pioOut ch n) s = .next (end_ (pioOut c e0 u w))) ∧
      (op = 4 → exec (.pioPush ch n) s = .next (end_ (pioPush c e0 u n w))) ∧
      (op = 5 → exec (.pioPull ch n) s = .next (end_ (pioPull c e0 u n w))) ∧
      (op = 6 → exec (.pioMov ch n) s = .next (end_ (pioMov c e0 u w))) ∧
      (op = 7 → exec (.pioSet ch n) s = .next (end_ (pioSet c e0 u w))) ∧
      (op = 8 → exec (.pioIrq ch ⟨n, same⟩) s =
        .next (end_ (pioIrq (c.flagClock same) e0 w e.latch.isNone))) ∧
      (op = 9 → exec (.pioExch ch n) s = .next (end_ (pioExch c e0 w)))) ∧
    (¬ side → op = 0 → exec (.pioJmp ch n) s = .next (s.becomes ch fault)) ∧
    (10 ≤ op → exec (.pioJmp ch n) s = .next (s.becomes ch fault))) ∧
  (∀ (c : Cell) (e : Engine) (u : PioSetup) (n w : Nat), w < 512 →
    let count := count32 (w % 32)
    (bitsOf w 8 6 = 1 → pioJmp c e u w =
      .done { e with k0 := e.k0 - 1 } c (if e.k0 = 1#32 then none else some (w % 64))) ∧
    (bitsOf w 8 6 = 7 → pioJmp c e u w =
      .done { e with a := e.a >>> 1 } c (if e.a.getLsbD 0 then some (w % 64) else none)) ∧
    (w.testBit 5 = true → pioIn c e u w = .fault) ∧
    (bitsOf w 8 6 = 1 → w.testBit 5 = false → u.autoPush = false → u.inMsb = true → pioIn c e u w =
      .done { e with rs := (e.rs <<< count) ||| lowBits count e.a, rn := min 32 (e.rn + count) } c none) ∧
    (bitsOf w 8 6 = 2 → w.testBit 5 = false → (u.autoPull = false ∨ e.tn ≠ 0) → u.outMsb = false → pioOut c e u w =
      .done { e with ts := e.ts >>> count, tn := e.tn - count, a := lowBits count e.ts } c none) ∧
    (bitsOf w 8 6 = 2 → w.testBit 5 = false → u.autoPull = true → e.tn = 0 → e.tx = [] →
      pioOut c e u w = .stall e c) ∧
    (w = 0 → e.rx.length < u.rxDepth →
      pioPush c e u n w = .done { e with rx := e.rx ++ [e.rs], rs := 0#32, rn := 0 } c none) ∧
    (w = 0 → u.rxDepth ≤ e.rx.length → pioPush c e u n w = .stall e c) ∧
    (∀ (x : Word) (t : List Word), w = 0 → e.tx = x :: t → pioPull c e u n w =
      .done { e with tx := t, ts := if u.outMsb then x <<< (32 - u.txBits) else x, tn := u.txBits } c none) ∧
    (w = 0 → e.tx = [] → pioPull c e u n w = .stall e c) ∧
    (w = 0 → pioExch c e w = .done { e with a := e.k0, k0 := e.a } c none) ∧
    (∀ f : Nat, f < 8 → w = f → pioIrq c e w true = .done e (c.setFlag f true) none) ∧
    (∀ f : Nat, f < 8 → w = 0x180 + f → pioIrq c e w true = .done e (c.setFlag f (!c.pio.before.getLsbD f)) none) ∧
    (∀ f : Nat, f < 8 → w = 0x140 + f → pioWait c e w =
      (if c.pio.before.getLsbD f then .done e c none else .stall e c)) ∧
    (∀ t : Nat, t < 4 → w = 0x80 + t → pioWait c e w =
      (if e.triggers.getLsbD t then .done e c none else .stall e c)) ∧
    (∀ f g : Nat, f < 8 → g < 8 →
      (c.setFlag f true).pio.flags.getLsbD g = (c.pio.flags.getLsbD g || f == g) ∧
      ((c.setFlag f true).setFlag f false).pio.flags.getLsbD f = true ∧
      ((c.setFlag f false).setFlag f true).pio.flags.getLsbD f = true ∧
      ((c.flagClock false).setFlag f false).pio.flags.getLsbD g = (c.pio.flags.getLsbD g && f != g)))

/-- R314, R317, R323, R324, R326: the program store, PIO_CTL, CLKSYNC, PIO_IRQ_FORCE, and TXF and RXF with their queues. -/
def Obligations.PioRegisters : Prop :=
  ∀ (s : State) (ch : Nat) (c : Cell) (v : Byte), s.runsOn ch c →
    let held (a : Nat) : Byte := if c.holds.rd (2 * a + 1) = 0#8 then c.io.rd a else c.holds.rd (2 * a)
    let restarted (p : Engine × Nat) : Engine :=
      if v.getLsbD (4 + p.2) then
        { p.1 with pc := 0, rs := 0#32, rn := 0, ts := 0#32, tn := 0, latch := none, acc := 0 }
      else p.1
    let synced (p : Engine × Nat) : Engine := if (v &&& 0x0F#8).getLsbD p.2 then { p.1 with acc := 0 } else p.1
    (∀ word : Nat, word < 40 → c.io.bit 0xE401 7 = true →
      exec (.programStoreWrite ch word v) s = .next (s.becomes ch c)) ∧
    (∀ word : Nat, word < 40 → c.io.bit 0xE401 7 = false → c.io.wf = true → ∃ c' : Cell,
      exec (.programStoreWrite ch word v) s = .next (s.becomes ch c') ∧
      c'.io.rdN (0xE480 + 2 * word) 2 = (held (0xE480 + 2 * word)).toNat + 256 * v.toNat ∧
      ((∃ n, n < 4 ∧ c.io.bit 0xE400 n = true ∧ (c.pioSetup n).base ≤ word ∧
        word < (c.pioSetup n).base + (c.pioSetup n).len) → c'.intc.pend.getLsbD 33 = true) ∧
      c'.core = c.core ∧ c'.mem = c.mem ∧ c'.pio = c.pio) ∧
    (exec (.pioCtlWrite ch v) s = .next (s.becomes ch { c with
      io := c.io.wr 0xE400 (v &&& 0x0F#8)
      pio := { c.pio with engines := c.pio.engines.zipIdx.map restarted } })) ∧
    (v.getLsbD 7 = false → exec (.clksync ch v) s = .next (s.becomes ch { c with
      pio := { c.pio with engines := c.pio.engines.zipIdx.map synced } })) ∧
    (v.getLsbD 7 = true → ∃ c' : Cell, exec (.clksync ch v) s = .next (s.becomes ch c') ∧
      c'.io = c.io.setBit 0xE401 7 true ∧ c'.core = c.core ∧ c'.mem = c.mem) ∧
    (exec (.pioIrqForce ch v) s = .next (s.becomes ch { c with
      pio := { c.pio with flags := c.pio.flags ||| v, before := c.pio.flags, sets := v } })) ∧
    (∀ n : Nat, n < 4 →
      let e := c.engine n
      let a := 0xE420 + 0x18 * n
      let x := (held a).toNat + 256 * ((held (a + 1)).toNat + 256 * ((held (a + 2)).toNat + 256 * v.toNat))
      (e.tx.length < (c.pioSetup n).txDepth → ∃ c' : Cell, exec (.txf ch n v) s = .next (s.becomes ch c') ∧
        c'.pio = (c.setEngine n { e with tx := e.tx ++ [BitVec.ofNat 32 x] }).pio ∧ c'.io = c.io ∧ c'.core = c.core ∧
        c'.mem = c.mem) ∧
      ((c.pioSetup n).txDepth ≤ e.tx.length → ∃ c' : Cell, exec (.txf ch n v) s = .next (s.becomes ch c') ∧
        c'.pio = c.pio ∧ c'.io = c.io.setBit (eAddr n 0x0E) 0 true ∧ c'.core = c.core ∧ c'.mem = c.mem)) ∧
    (∀ (n : Nat) (w : Word) (t : List Word), n < 4 → n < c.pio.engines.length → c.pinInOwns n = false →
      (c.engine n).rx = w :: t → c.latched.wf = true → ∃ c' : Cell,
      exec (.rxf ch n) s = .next (s.becomes ch c') ∧ c'.pio = (c.setEngine n { c.engine n with rx := t }).pio ∧
      (∀ i, 1 ≤ i → i < 4 → c'.latched.rd (0xE424 + 0x18 * n + i) = BitVec.ofNat 8 (w.toNat / 256 ^ i)) ∧
      c'.io = c.io ∧ c'.core = c.core ∧ c'.mem = c.mem)

/-! ### Pins and lines -/

/-- R336, R337, R341, R343, R346: GPIO_SET, GPIO_CLR and GPIO_TGL change GPIO_OUT alone; a pin's function changes unless it is locked, and the lockup output keeps FUNC 7;
PINLOCK locks by its two keys; a level mode pends once until it is armed again; a pattern match sets its flag and the levels. -/
def Obligations.PinRegistersAndInterrupts : Prop :=
  ∀ (s : State) (ch : Nat) (c : Cell) (v : Byte), s.runsOn ch c →
    let p := c.pins
    let k : Cell := { c with pins := { p with lockKey := false } }
    (∀ hi : Bool, let a := if hi then 0xE301 else 0xE300
      exec (.gpioSet ch hi v) s = .next (s.becomes ch { k with io := c.io.wr a (c.io.rd a ||| v) }) ∧
      exec (.gpioClr ch hi v) s = .next (s.becomes ch { k with io := c.io.wr a (c.io.rd a &&& ~~~ v) }) ∧
      exec (.gpioTgl ch hi v) s = .next (s.becomes ch { k with io := c.io.wr a (c.io.rd a ^^^ v) })) ∧
    (∀ n : Nat, n < 16 →
      (p.locked.getLsbD n = true → exec (.functionChange ch n v) s = .next (s.becomes ch k)) ∧
      (p.locked.getLsbD n = false → p.lockupPin ≠ some n →
        exec (.functionChange ch n v) s = .next (s.becomes ch { k with io := c.io.wr (0xE340 + 2 * n) v })) ∧
      (p.locked.getLsbD n = false → p.lockupPin = some n → exec (.functionChange ch n v) s = .next (s.becomes ch
        { k with io := c.io.wr (0xE340 + 2 * n) ((c.io.rd (0xE340 + 2 * n) &&& 0xE0#8) ||| (v &&& 0x1F#8)) }))) ∧
    (p.lockKey = false → exec (.pinlock ch v) s = .next (s.becomes ch { c with
      pins := { p with lockKey := v == 0x5A#8 } })) ∧
    (p.lockKey = true → v = 0xA5#8 → exec (.pinlock ch v) s = .next (s.becomes ch { c with
      pins := { p with lockKey := false, locked := p.locked ||| BitVec.ofNat 16 (c.io.rdN 0xE322 2) } })) ∧
    (p.lockKey = true → v ≠ 0xA5#8 → exec (.pinlock ch v) s = .next (s.becomes ch k)) ∧
    (∀ n : Nat, n < 16 → p.owned.getLsbD n = true → p.armed.getLsbD n = true → c.nap.napping = false →
      ((c.pinMode n = 4 ∧ p.delivered.getLsbD n = true) ∨ (c.pinMode n = 5 ∧ p.delivered.getLsbD n = false)) →
      exec (.pinLevelIrq ch n) s = .next (s.becomes ch { c with
        pins := { p with armed := p.armed &&& ~~~ BitVec.ofNat 16 (2 ^ n) }
        io := c.io.setBit (0xE310 + n / 8) (n % 8) true })) ∧
    (∀ n : Nat, p.armed.getLsbD n = false → exec (.pinLevelIrq ch n) s = .next (s.becomes ch c)) ∧
    (∀ (tick : Nat) (first' : Bool), c.nap.napping = false → p.tick ≤ tick →
      let q := p.atTick tick
      let first := first' && q.fresh == 1
      let mask := BitVec.ofNat 16 (c.io.rdN 0xE316 2)
      let value := BitVec.ofNat 16 (c.io.rdN 0xE318 2) &&& mask
      let m := p.delivered &&& mask
      (((c.io.rd 0xE31A).toNat % 4 = 1 ∧ m = value ∧ (first = true ∨ q.before &&& mask ≠ value)) ∨
        ((c.io.rd 0xE31A).toNat % 4 = 2 ∧ m ≠ value ∧ (first = true ∨ q.before &&& mask = value)) ∨
        ((c.io.rd 0xE31A).toNat % 4 = 3 ∧ first = false ∧ q.before &&& mask ≠ m)) →
      exec (.patternMatch ch tick first') s = .next (s.becomes ch (Cell.raise { c with
        pins := q
        io := (c.io.setBit 0xE31B 0 true).wrN 0xE31C 2 p.delivered.toNat } 36)))

/-- R338, R341, R342: a change passes the filter of an owned pin when its latest FILT + 1 samples agree and differ from the delivered level, which then
changes; IRQ_PEND follows the pin's mode, and the change is counted and logged.
It rests on the model's choices of log entries 65 and 119. -/
def Obligations.PinChangesAreDelivered : Prop :=
  ∀ (s : State) (ch n : Nat) (c : Cell) (samples : BitVec 16) (tick window : Nat), s.runsOn ch c →
    let p := c.pins
    let now := samples.getLsbD 0
    let steady := ∀ i, i < c.pinFilt n + 1 → samples.getLsbD i = now
    (n < 16 → p.owned.getLsbD n = true → c.nap.napping = false → c.dry = false → p.tick ≤ tick →
      p.pulse.getLsbD n = false → p.pulsing.getLsbD n = false → steady → now ≠ p.delivered.getLsbD n → c.io.wf = true → ∃ c' : Cell,
      exec (.pinLevelChange ch n samples tick window) s = .next (s.becomes ch c') ∧
      (∀ i, i < 16 → c'.pins.delivered.getLsbD i = if i = n then now else p.delivered.getLsbD i) ∧
      c'.pins.owned = p.owned ∧ c'.pins.locked = p.locked ∧
      ((c.pinMode n = 1 ∧ now = true) ∨ (c.pinMode n = 2 ∧ now = false) ∨ c.pinMode n = 3 →
        c'.io.bit (0xE310 + n / 8) (n % 8) = true) ∧
      (c.pinMode n = 0 → c'.io.bit (0xE310 + n / 8) (n % 8) = c.io.bit (0xE310 + n / 8) (n % 8)) ∧
      c'.outq.getLast? = some (.logRecord 6 (leBytes 1 n ++ leBytes 7 now.toNat)) ∧
      c'.core = c.core ∧ c'.mem = c.mem ∧ c'.beam = c.beam) ∧
    ((p.owned.getLsbD n = false ∨ c.nap.napping = true ∨ c.dry = true ∨ tick < p.tick ∨
        (p.pulse.getLsbD n = false ∧ p.pulsing.getLsbD n = false ∧ (¬ steady ∨ now = p.delivered.getLsbD n))) →
      exec (.pinLevelChange ch n samples tick window) s = .next (s.becomes ch c))

/-- R383, R389, R390: a read of the event FIFO takes its oldest entry and latches its bytes; a line's DATA is read and written through its FIFOs, which
flag an underrun and an overrun. -/
def Obligations.EventFifoAndLines : Prop :=
  ∀ (s : State) (ch : Nat) (c : Cell) (v : Byte), s.runsOn ch c →
    (∀ (e : List Byte) (t : List (List Byte)), c.evf = e :: t → c.latched.wf = true → ∃ c' : Cell,
      exec (.evfDataRead ch) s = .next (s.becomes ch c') ∧ c'.evf = t ∧
      (∀ i, 1 ≤ i → i < 8 → c'.latched.rd (0xEC00 + i) = e.getD i 0#8) ∧
      c'.io = c.io ∧ c'.core = c.core ∧ c'.mem = c.mem) ∧
    (∀ l : Nat, l < 4 →
      (∀ (b : Byte) (t : List Byte), (c.line l).rx = b :: t →
        exec (.lineDataRead ch l) s = .next (s.becomes ch (c.setLine l { c.line l with rx := t }))) ∧
      ((c.line l).rx = [] → exec (.lineDataRead ch l) s = .next (s.becomes ch
        { c with io := c.io.setBit (0xEC22 + 0x10 * l) 6 true })) ∧
      ((c.line l).txLevel < 256 → exec (.lineDataWrite ch l v) s = .next (s.becomes ch
        (c.setLine l { c.line l with
          tx := (c.line l).tx ++ [.byte v], txAt := (c.line l).txAt ++ [c.beam.ctime] }))) ∧
      (256 ≤ (c.line l).txLevel → exec (.lineDataWrite ch l v) s = .next (s.becomes ch
        { c with io := c.io.setBit (0xEC22 + 0x10 * l) 7 true })))

/-! ### The crypto unit -/

/-- R457 to R462: GO starts an operation or is refused with its code; the operations run as far as their FIFOs allow and end; ERASE empties its slot;
CRYPTO_DONE raises CRYPTO; ABORT empties the unit; CR_DIN and CR_DOUT.
It rests on the model's choices of log entries 40, 41 and 66 to 68. -/
def Obligations.CryptoUnit : Prop :=
  ∀ (s : State) (ch : Nat) (c : Cell) (v : Byte), s.runsOn ch c →
    let u := c.crypto
    let asked : Cell := { c with io := c.io.wr 0xED00 ((c.io.rd 0xED00 &&& 0xF0#8) ||| (v &&& 0x0F#8)) }
    let n := ((asked.slot asked.crKey).map (·.block)).getD 16
    let failed (k : Cell) (code : Nat) : Cell := Cell.raise { k with
      io := (k.io.setBit 0xED24 1 true).wr 0xED25 (BitVec.ofNat 8 code)
      crypto := { k.crypto with busy := false, finished := false } } 41
    let ran (k : SlotKey) : Crypto := cryptoRun k u.fuel u
    let cleared : Cell := { c with crypto := { u with
      busy := false, finished := false, din := [], dout := [], inBuf := [], outBuf := [], left := 0 } }
    (v.getLsbD 6 = false → u.busy = false → asked.crRefusal = none → ∃ c' : Cell,
      exec (.crGo ch v) s = .next (s.becomes ch c') ∧ c'.crypto.busy = true ∧ c'.crypto.finished = false ∧
      c'.crypto.op = asked.crOp ∧ c'.crypto.key = asked.crKey ∧ c'.crypto.key2 = asked.crKey2 ∧
      c'.crypto.left = (if asked.crOp = 9 then 0 else c.io.rdN 0xED04 2) ∧
      c'.crypto.chain = (if asked.crOp = 6 ∨ asked.crOp = 7 then List.replicate n 0#8 else asked.io.block 0xED10 n) ∧
      c'.io = asked.io ∧ c'.slots = c.slots ∧ c'.core = c.core ∧ c'.mem = c.mem) ∧
    (∀ code : Nat, v.getLsbD 6 = false → u.busy = false → asked.crRefusal = some code →
      exec (.crGo ch v) s = .next (s.becomes ch (failed asked code))) ∧
    (v.getLsbD 6 = false → u.busy = true → exec (.crGo ch v) s = .next (s.becomes ch asked)) ∧
    (∀ k : SlotKey, u.busy = true → u.finished = false → c.slot u.key = some k →
      let waits := ¬ ((ran k).left = 0 ∧ (ran k).outBuf = [])
      let c' : Cell := { c with crypto := ran k }
      (waits →
        (u.op = 1 → exec (.ecbEncrypt ch) s = .next (s.becomes ch c')) ∧
        (u.op = 6 → exec (.cmac ch) s = .next (s.becomes ch c')) ∧
        (u.op = 8 → exec (.unwrap ch) s = .next (s.becomes ch c'))) ∧
      (¬ waits →
        (u.op = 1 → exec (.ecbEncrypt ch) s = .next (s.becomes ch (finishCipher (ran k) k c'))) ∧
        (u.op = 2 → exec (.ecbDecrypt ch) s = .next (s.becomes ch (finishCipher (ran k) k c'))) ∧
        (u.op = 3 → exec (.cbcEncrypt ch) s = .next (s.becomes ch (finishCipher (ran k) k c'))) ∧
        (u.op = 4 → exec (.cbcDecrypt ch) s = .next (s.becomes ch (finishCipher (ran k) k c'))) ∧
        (u.op = 5 → exec (.ctr ch) s = .next (s.becomes ch (finishCipher (ran k) k c'))) ∧
        (u.op = 6 → exec (.cmac ch) s = .next (s.becomes ch { c with
          crypto := { ran k with finished := true, inBuf := [] }
          io := c.io.put 0xED30 (cmacLast k.bytes (ran k).chain (ran k).inBuf) })) ∧
        (u.op = 7 → exec (.macAlgorithm3 ch) s = .next (s.becomes ch (finishAlg3 (ran k) k c'))) ∧
        (u.op = 8 → keyUnwrap k.bytes (ran k).wrapped = none →
          exec (.unwrap ch) s = .next (s.becomes ch (failed c' 6))) ∧
        (∀ bytes : List Byte, u.op = 8 → keyUnwrap k.bytes (ran k).wrapped = some bytes →
          exec (.unwrap ch) s = .next (s.becomes ch
            (({ c with crypto := { ran k with finished := true } } : Cell).setSlot (ran k).key2 (some
              { type := (ran k).mode / 64, usage := bitsOf (ran k).mode 5 3 * 2, fromUnwrap := true, bytes := bytes
                count := 0 })))))) ∧
    (u.busy = true → u.finished = false → u.op = 9 → exec (.erase ch) s = .next (s.becomes ch
      (({ c with crypto := { u with finished := true } } : Cell).setSlot u.key none))) ∧
    (u.busy = true → u.finished = true → exec (.cryptoDone ch) s = .next (s.becomes ch (Cell.raise { c with
      crypto := { u with busy := false, finished := false }
      io := c.io.setBit 0xED24 0 true } 40))) ∧
    (u.busy = false ∨ u.finished = true ∨ (∀ k, c.slot u.key = some k → k.type ≠ 3) →
      exec (.crAbort ch) s = .next (s.becomes ch cleared)) ∧
    (∀ k : SlotKey, u.busy = true → u.finished = false → c.slot u.key = some k → k.type = 3 →
      exec (.crAbort ch) s = .next (s.becomes ch
        (cleared.setSlot u.key (some { k with count := k.count + u.blocks })))) ∧
    (u.din.length < 32 → exec (.crDin ch v) s = .next (s.becomes ch
      { c with crypto := { u with din := u.din ++ [v] } })) ∧
    (32 ≤ u.din.length → exec (.crDin ch v) s = .next (s.becomes ch
      { c with io := c.io.setBit 0xED24 2 true })) ∧
    (exec (.crDout ch) s = .next (s.becomes ch { c with crypto := { u with dout := u.dout.drop 1 } }))

/-! ### Resets, start-up and the endpoint -/

/-- R31, R32, R36, R48, R453, R466, R471, R480, R481: what each reset leaves: a power-on reset and RESET_N restart the device and keep the key
store; a fault or a WIPE_AND_HOLD hold leaves phase Fh with its cause; the fall of PWRGD stops every island; the loss of
all power empties the key store; PERST# resets the endpoint alone and stops no channel.
It rests on the model's choices of log entries 93 and 94. -/
def Obligations.ResetsKeepAndClear : Prop :=
  ∀ s : State,
    let restarted (t : State) : Prop :=
      t.pending = s.pending ∧ (∀ ch, (t.chan ch).state = .uncast ∧ (t.chan ch).cell = none) ∧
      t.hub.ready = false ∧ t.hub.linkUp = false ∧ t.hub.mcq = .blank ∧ t.hub.mrq = .blank ∧
      t.hub.image = none ∧ t.hub.part = s.hub.part ∧ t.hub.perstN = s.hub.perstN ∧ t.hub.glitchArmed = false ∧
      ∀ d n, ((t.die d).cell n).tested = false
    (∀ fault : BootFault, ∃ t : State, exec (.powerOnReset fault) s = .next t ∧ restarted t ∧
      t.hub.keys = s.hub.keys ∧ t.hub.pwrgd = true ∧ t.hub.wipeHold = s.hub.wipeHold ∧
      (fault = .none → s.hub.wipeHold = false → t.hub.phase = 0 ∧ t.hub.failCause = 0) ∧
      (fault = .none → s.hub.wipeHold = true → t.hub.phase = 15 ∧ t.hub.failCause = 2) ∧
      (fault = .alwaysOn → t.hub.phase = 15 ∧ t.hub.failCause = 1) ∧
      (fault = .refclk → t.hub.phase = 15 ∧ t.hub.failCause = 5)) ∧
    (∀ fault : BootFault, s.hub.pwrgd = true → exec (.resetN fault) s = exec (.powerOnReset fault) s) ∧
    (∀ fault : BootFault, s.hub.pwrgd = false → exec (.resetN fault) s = .next s) ∧
    (∃ t : State, exec .pwrgdFalling s = .next t ∧ restarted t ∧ t.hub.keys = s.hub.keys ∧ t.hub.pwrgd = false ∧
      t.hub.phase = 0) ∧
    (∃ t : State, exec .vbatAndMainPowerRemoved s = .next t ∧ restarted t ∧ t.hub.keys = .empty ∧
      t.hub.pwrgd = false ∧ t.hub.wipeHold = false ∧ t.hub.vbatAlarms = [] ∧ t.hub.tripped = 0#8) ∧
    (∃ t : State, exec .perstAsserted s = .next t ∧ t.pending = s.pending ∧ t.dies = s.dies ∧
      t.hub = { s.hub with
        perstN := false, linkUp := false, linkWidth := 0, d3hot := false, msix := msixBlank 64, pba := []
        unrelaxed := [], bars := [0, 0, 0], ideAssoc := [], mcq := .blank, mrq := .blank
        responses := [], spdm := .closed, ideActive := [], ideLoaded := [] } ∧
      ∀ ch, (t.chan ch).queues = List.replicate 16 .blank ∧ (t.chan ch).castTag = none ∧
        (t.chan ch).stopTags = [] ∧ (t.chan ch).vf = { VfRegs.blank with epochLatch := (s.chan ch).viewEpoch } ∧
        (t.chan ch).state = (s.chan ch).state ∧ (t.chan ch).epoch = (s.chan ch).epoch ∧
        (t.chan ch).cell = (s.chan ch).cell ∧ (t.chan ch).place = (s.chan ch).place) ∧
    (1 ≤ s.hub.phase → s.hub.phase ≤ 6 → exec .perstReleased s = .next (State.releasePending
      { s with hub := { s.hub with perstN := true, linkUp := true, linkWidth := 16 } })) ∧
    ((s.hub.phase = 0 ∨ 6 < s.hub.phase) → exec .perstReleased s = .next (State.releasePending
      { s with hub := { s.hub with perstN := true } }))

/-- R31, R33, R34, R36, R41, R42, R46, R444: the phases of start-up follow one another; the slot of the higher SEQUENCE whose header,
part, size, key generation, signature and tag are right and which is not below the rollback floor is taken and raises the
floor; with neither slot valid there is no image; the casting phase casts the channels marked for it; and READY rises.
It rests on the model's choices of log entries 47, 95, 98, 99 and 113. -/
def Obligations.StartUpRuns : Prop :=
  ∀ s : State,
    (∀ fault : BootFault, (s.hub.phase ≠ 0 ∨ s.hub.pwrgd = false) → exec (.securityPhase fault) s = .next s) ∧
    (s.hub.phase = 0 → s.hub.pwrgd = true → s.hub.vbatAlarms = [] → exec (.securityPhase .none) s = .next
      { s with hub := { s.hub with
          keyNeeded := s.hub.keys.imageKey.isNone, glitchArmed := true, phase := 1
          linkUp := s.hub.perstN || s.hub.linkUp, linkWidth := if s.hub.perstN then 16 else s.hub.linkWidth } }) ∧
    (s.hub.phase = 0 → s.hub.pwrgd = true → ∃ t : State, exec (.securityPhase .refclk) s = .next t ∧
      t.hub.phase = 15 ∧ t.hub.failCause = 5 ∧ t.hub.keys = s.hub.keys ∧ t.chans = []) ∧
    (∀ sensor mask : Nat, s.hub.phase = 0 → s.hub.pwrgd = true → s.hub.vbatAlarms = [(sensor, mask)] →
      s.hub.keys.level sensor = 3 → ∃ t : State, exec (.securityPhase .none) s = .next t ∧ t.hub.phase = 15 ∧
      t.hub.failCause = 2 ∧ t.hub.wipeHold = true ∧ t.hub.keyNeeded = true ∧ t.hub.keys.imageKey = none) ∧
    (∀ (o : Option TestOutcome) (cells : List (Nat × Nat × TestResult)),
      (s.hub.phase ≠ 1 → exec (.selfTestPhase o cells) s = .next s) ∧
      (s.hub.phase = 1 → o = some .logic → ∃ t : State, exec (.selfTestPhase o cells) s = .next t ∧
        t.hub.phase = 15 ∧ t.hub.failCause = 3) ∧
      (s.hub.phase = 1 → o = some .memory → ∃ t : State, exec (.selfTestPhase o cells) s = .next t ∧
        t.hub.phase = 15 ∧ t.hub.failCause = 4) ∧
      (s.hub.phase = 1 → o ≠ some .logic → o ≠ some .memory → ∃ t : State,
        exec (.selfTestPhase o cells) s = .next t ∧ t.hub.phase = 2 ∧ t.hub.keys = s.hub.keys ∧ t.chans = s.chans ∧
        ∀ d n, s.populated d = true → n < 88 → ((s.die d).cell n).role = .pool →
          (cells.find? fun x => x.1 = d ∧ x.2.1 = n) = none →
          ((t.die d).cell n).role = .pool ∧ ((t.die d).cell n).tested = true)) ∧
    (∀ (octal : Bool) (a b : SlotReading),
      let first := decide ((s.flashSlot false).rank < (s.flashSlot true).rank)
      let k := s.hub.keys
      let valid (x : Bool) (i : Image) : Prop :=
        let r := if x then b else a
        let f := s.flashSlot x
        ∃ key signing payload l, k.imageKey = some key ∧ k.signingKey = some signing ∧ f.headed = true ∧
          f.partMask.testBit (s.hub.part - 1) = true ∧ 256 + f.payloadLen ≤ 20 * 1024 * 1024 ∧ f.keyGen = k.keyGen ∧
          f.signedBy signing = true ∧ f.opened key = some payload ∧ sections payload = some l ∧
          k.floor ≤ f.sequence ∧ r.payload = some i ∧ i.matchesSections l = true ∧ i.sound = true
      let taken (x : Bool) (i : Image) (t : State) : Prop :=
        t.hub.phase = 3 ∧ t.hub.fallbackSpi = !octal ∧ t.hub.read = some i ∧ t.hub.noImage = false ∧
        t.hub.activeSlot = x.toNat ∧ (if x then t.hub.slotB else t.hub.slotA) = true ∧
        t.hub.sequence = (s.flashSlot x).sequence ∧ t.hub.keys.floor = (s.flashSlot x).sequence ∧
        t.hub.keys.levels = some i.device.levels ∧ t.hub.image = s.hub.image
      (s.hub.phase ≠ 2 → exec (.imageReadPhase octal a b) s = .next s) ∧
      (∀ i, s.hub.phase = 2 → valid first i → ∃ t : State,
        exec (.imageReadPhase octal a b) s = .next t ∧ taken first i t) ∧
      (∀ i, s.hub.phase = 2 → (∀ j, ¬ valid first j) → valid (!first) i → ∃ t : State,
        exec (.imageReadPhase octal a b) s = .next t ∧ taken (!first) i t) ∧
      (s.hub.phase = 2 → (∀ x j, ¬ valid x j) → exec (.imageReadPhase octal a b) s = .next
        { s with hub := { s.hub with phase := 3, fallbackSpi := !octal, noImage := true } })) ∧
    (s.hub.phase ≠ 3 → exec .imageLoadPhase s = .next s) ∧
    (s.hub.phase = 3 → ∃ t : State, exec .imageLoadPhase s = .next t ∧ t.hub.phase = 4 ∧ t.hub.read = none ∧
      t.chans = s.chans ∧ t.dies = s.dies ∧ (s.hub.read = none → t.hub.image = none ∧ t.hub.cardsSkipped = 0) ∧
      ∀ i, s.hub.read = some i → ∃ j, t.hub.image = some j ∧ j.moulds = i.moulds ∧ j.device = i.device ∧
        (∀ c, c ∈ j.cards ↔ c ∈ i.cards ∧ s.offers c.channel = true) ∧
        t.hub.cardsSkipped + j.cards.length = i.cards.length) ∧
    (∀ banks : List (List Nat),
      (s.hub.phase ≠ 4 → exec (.castingPhase banks) s = .next s) ∧
      (s.hub.phase = 4 → ∃ t : State, exec (.castingPhase banks) s = .next t ∧ t.hub.phase = 5 ∧
        (∀ d, 1 ≤ d → d ≤ s.dies.length → (t.die d).banks = banks.getD (d - 1) [0, 0]) ∧
        ∀ ch, s.offers ch = true →
          (s.hub.image = none → (t.chan ch).cause = 4) ∧
          (∀ i, s.hub.image = some i → s.card ch = none → (t.chan ch).cause = 1) ∧
          (∀ i c, s.hub.image = some i → s.card ch = some c → s.pinless ch = false → s.populated c.die = false →
            (t.chan ch).cause = 2) ∧
          (∀ i c, s.hub.image = some i → s.card ch = some c → (s.pinless ch = true ∨ s.populated c.die = true) →
            (c.auto = 0 → t.chan ch = s.chan ch) ∧
            (c.auto = 1 → (s.mould c.mould).isSome = true →
              ((t.chan ch).state = .casting ∧ (t.chan ch).epoch = (s.chan ch).epoch + 1 ∧
                (t.chan ch).place.isSome = true) ∨ (t.chan ch).cause = 3)))) ∧
    ((s.hub.phase ≠ 5 ∨ s.chans.any (fun c => c.state == .casting) = true) → exec .ready s = .next s) ∧
    (s.hub.phase = 5 → s.chans.any (fun c => c.state == .casting) = false → ∃ t : State,
      exec .ready s = .next t ∧ t.hub.phase = 6 ∧ t.hub.ready = true ∧ t.hub.keys = s.hub.keys ∧
      ∀ ch, (t.chan ch).state = (s.chan ch).state ∧ (t.chan ch).epoch = (s.chan ch).epoch)

/-- R34, R370, R371, R372, R394, R395, R397: configuration and unsupported requests are answered; D3hot stops requests alone; function-level
resets clear their registers and rings and stop no channel; a broken lane narrows the link; VF_STATE latches VF_EPOCH; a
refresh request with a stale epoch is dropped and counted; and register writes reach their registers.
It rests on the model's choices of log entries 73, 96, 97, 110 and 121. -/
def Obligations.EndpointRequests : Prop :=
  ∀ (s : State) (ch : Nat),
    (s.hub.linkUp = true → exec .unsupportedRequest s = .next (s.send .unsupported) ∧
      ∀ (fn : Nat) (r : ConfigReg), let ask := exec (.configurationRequest ⟨fn, r⟩) s
        (partChannels s.hub.part < fn → ask = .next (s.send .unsupported)) ∧
        (fn ≤ partChannels s.hub.part → s.hub.ready = false → ask = .next (s.send (.config false 0#32))) ∧
        (fn ≤ partChannels s.hub.part → s.hub.ready = true → ask = .next (s.send (.config true (s.configValue fn r))))) ∧
    (∀ fn r, s.hub.linkUp = false →
      exec (.configurationRequest ⟨fn, r⟩) s = .next s ∧ exec .unsupportedRequest s = .next s) ∧
    ((s.hub.part = 1 → s.configValue 0 .id = 0x20801FA3#32 ∧ s.configValue 0 .totalVfs = 80#32) ∧
      (s.hub.part = 2 → s.configValue 0 .id = 0x42401FA3#32 ∧ s.configValue 0 .totalVfs = 240#32) ∧
      (s.hub.part = 3 → s.configValue 0 .id = 0x85601FA3#32 ∧ s.configValue 0 .totalVfs = 560#32) ∧
      (s.configValue 0 .classRevision).extractLsb' 8 24 = 0x0B4000#24) ∧
    (s.hub.linkUp = true → s.hub.ready = true →
      exec .d3hot s = .next { s with hub := { s.hub with d3hot := true } } ∧
      (s.hub.responses = [] → exec (.registerWrite (.power false)) s = .next (State.releasePending
        { s with hub := { s.hub with d3hot := false } })) ∧
      (∀ fn, exec (.registerWrite (.relax fn false)) s = .next { s with hub := { s.hub with
        unrelaxed := s.hub.unrelaxed.filter (· != fn) ++ [fn] } }) ∧
      (∀ (stream reg : Nat) (v : Word), exec (.registerWrite (.ide stream reg v)) s = .next { s with hub := { s.hub with
        ideAssoc := insertNat s.hub.ideAssoc (8 * stream + reg) v } }) ∧
      (∃ t : State, exec .pf0FunctionLevelReset s = .next t ∧ t.pending = s.pending ∧ t.dies = s.dies ∧
        t.hub = { s.hub with
          mcq := .blank, mrq := .blank, msix := msixBlank 64, pba := s.hub.pba.filter fun p => p.1 != 0
          responses := [], d3hot := false, unrelaxed := s.hub.unrelaxed.filter (· != 0) } ∧
        ∀ m, (t.chan m).queues = (s.chan m).queues ∧ (t.chan m).cell = (s.chan m).cell ∧
          (t.chan m).state = (s.chan m).state ∧ (t.chan m).castTag = none ∧ (t.chan m).stopTags = [])) ∧
    ((s.hub.linkUp = false ∨ s.hub.ready = false) → exec .d3hot s = .next s ∧
      exec .pf0FunctionLevelReset s = .next s ∧ exec (.functionLevelReset ch) s = .next s ∧
      exec (.vfStateRead ch) s = .next s ∧ ∀ v, exec (.refresh ch v) s = .next s) ∧
    (∀ lanes : BitVec 16, s.hub.linkUp = true →
      let works (lo n : Nat) : Prop := ∀ i, i < n → lanes.getLsbD (lo + i) = true
      let width (w : Nat) : State := { s with hub := { s.hub with linkWidth := min s.hub.linkWidth w, linkUp := true } }
      (works 0 16 → exec (.laneFailure lanes) s = .next (width 16)) ∧
      (¬ works 0 16 → works 0 8 ∨ works 8 8 → exec (.laneFailure lanes) s = .next (width 8)) ∧
      (¬ works 0 8 → ¬ works 8 8 → works 0 4 ∨ works 12 4 → exec (.laneFailure lanes) s = .next (width 4)) ∧
      (¬ works 0 4 → ¬ works 12 4 → ¬ works 8 8 → exec (.laneFailure lanes) s = .next
        { s with hub := { s.hub with linkWidth := 0, linkUp := false } })) ∧
    (s.hub.linkUp = true → s.hub.ready = true → s.offers ch = true →
      let c := s.chan ch
      (exec (.functionLevelReset ch) s = .next { s.setChan { c with
          queues := List.replicate 16 .blank, vf := { VfRegs.blank with epochLatch := c.viewEpoch }
          layerReads := [[], []], layerOld := [0, 0], layerStopped := [true, true] } with
        hub := { s.hub with
          pba := s.hub.pba.filter fun p => p.1 != ch + 1, unrelaxed := s.hub.unrelaxed.filter (· != ch + 1) } }) ∧
      (exec (.vfStateRead ch) s = .next (s.setChan { c with vf := { c.vf with epochLatch := c.viewEpoch } })) ∧
      (∀ v : Byte, c.vf.cmdEpoch ≠ c.epoch → exec (.refresh ch v) s = .next (s.setChan { c with
        stale := c.stale + 1, vf := { c.vf with stale := true, staleCount := c.vf.staleCount + 1 } })) ∧
      (∀ (v : Byte) (x : Cell), c.vf.cmdEpoch = c.epoch → c.state = .running → c.draining = false → c.step = .none →
        c.cell = some x → ∃ t : State, exec (.refresh ch v) s = .next t ∧
          (t.chan ch).vf = { c.vf with done := true } ∧
          (v.getLsbD 0 = true → v.getLsbD 1 = false → (t.chan ch).cell = some (x.refreshStream .shq)) ∧
          (v.getLsbD 0 = false → v.getLsbD 1 = true → (t.chan ch).cell = some (x.refreshStream .clq)) ∧
          (v.getLsbD 0 = false → v.getLsbD 1 = false → (t.chan ch).cell = some x)) ∧
      (∀ v : Word, exec (.registerWrite (.vf ch 0x08 v)) s = .next (s.setChan { c with
        vf := { c.vf with cmdEpoch := v.toNat } }))) ∧
    (∀ (c : Cell) (a : Nat) (v : Byte), s.runsOn ch c →
      exec (.registerWrite (.io ch a v)) s = .next (s.becomes ch (c.ioStore a v)))

/-! ### Tamper, SPDM, IDE and SMBus -/

/-- R461, R465, R466, R467: a sensor that watches and is not tripped raises one alarm, which is recorded and drives ALARM_N low; at WIPE_ALL and above
the image key, the IDE keys, every escrow and every key slot are erased and the link drops; at WIPE_AND_HOLD the device holds itself in reset; an
alarm with the main rails off, or before the security phase, waits for it; ALARM_N rises when the last sensor clears after its
records were read.
It rests on the model's choices of log entries 42 and 101 to 103. -/
def Obligations.TamperAlarmsErase : Prop :=
  ∀ (s : State) (sensor mask : Nat),
    let k := s.hub.keys
    let level := k.level sensor
    let now := s.hub.pwrgd = true ∧ s.hub.phase ≠ 0 ∧ s.hub.phase ≠ 15
    let recorded (t : State) (erased : Nat) : Prop :=
      t.hub.keys.alarmSeq = k.alarmSeq + 1 ∧ t.hub.alarmN = false ∧ t.hub.alarmsRead = false ∧
      ∃ r, t.hub.keys.alarms.getLast? = some r ∧ r.seq = k.alarmSeq + 1 ∧ r.sensor = sensor ∧ r.level = level ∧
        r.dies = (if sensor = 3 ∨ sensor = 5 then mask else 0) ∧ r.onVbat = (!s.hub.pwrgd) ∧ r.erased = erased
    (8 ≤ sensor ∨ s.hub.tripped.getLsbD sensor = true ∨ s.hub.watches sensor = false →
      exec (.tamperAlarm sensor mask) s = .next s) ∧
    (sensor < 8 → s.hub.tripped.getLsbD sensor = false → s.hub.watches sensor = true →
      ∃ t : State, exec (.tamperAlarm sensor mask) s = .next t ∧ t.pending = s.pending ∧
        (¬ now → recorded t 0 ∧ t.chans = s.chans ∧ t.hub.keys.imageKey = k.imageKey ∧ t.hub.keys.escrow = k.escrow ∧
          t.hub.vbatAlarms = s.hub.vbatAlarms ++ [(sensor, mask)] ∧ t.hub.tripped.getLsbD sensor = true) ∧
        (now → level = 0 → recorded t 0 ∧ t.chans = s.chans ∧ t.hub.keys.imageKey = k.imageKey ∧
          t.hub.keys.escrow = k.escrow ∧ t.hub.tripped.getLsbD sensor = true) ∧
        (now → level = 1 → t.hub.keys.imageKey = k.imageKey ∧ t.hub.keys.ideKeys = k.ideKeys ∧
          (∃ n, recorded t n) ∧ (sensor ≠ 3 → sensor ≠ 5 → ∀ ch x, (t.chan ch).cell = some x → ∀ h, h < 8 → x.slot h = none)) ∧
        (now → level = 2 → (∃ n, recorded t n) ∧ t.hub.keys.imageKey = none ∧ t.hub.keys.ideKeys = [] ∧
          t.hub.keys.escrow = [] ∧ t.hub.keyNeeded = true ∧ t.hub.ideActive = [] ∧ t.hub.phase = s.hub.phase ∧
          t.hub.linkUp = false ∧
          t.hub.keys.signingKey = k.signingKey ∧ t.hub.keys.floor = k.floor ∧
          ∀ ch x, (t.chan ch).cell = some x → ∀ h, h < 8 → x.slot h = none) ∧
        (now → level = 3 → (∃ n, recorded t n) ∧ t.hub.keys.imageKey = none ∧ t.hub.keys.ideKeys = [] ∧
          t.hub.keys.escrow = [] ∧ t.hub.keyNeeded = true ∧ t.hub.phase = 15 ∧ t.hub.failCause = 2 ∧
          t.hub.wipeHold = true ∧ ∀ ch, (t.chan ch).cell = none)) ∧
    (sensor < 8 → exec (.sensorClear sensor) s = .next { s with hub := { s.hub with
      tripped := s.hub.tripped &&& ~~~ BitVec.ofNat 8 (2 ^ sensor)
      alarmN := s.hub.alarmN ||
        (s.hub.alarmsRead && (s.hub.tripped &&& ~~~ BitVec.ofNat 8 (2 ^ sensor)) == 0#8) } })

/-- R376, R464, R468 (the order of the requests, and the messages that the manual does not lay out, are the model's: see the
assumption log): the DOE mailbox answers each SPDM request in its place and an error out of it; measurements; sessions.

R375, R453, R464, R468, R481: in a secured session IDE_KM programs a key set, which K_SET_GO puts into use; KEY_PROVISION, from a requester
that proved itself, sets the image key and its generation, and the signing key and the floor only when the key store has lost
them; out of a secured session each is refused.
It rests on the model's choices of log entries 47 and 104 to 106. -/
def Obligations.SpdmAnswersAndKeysAreProvisioned : Prop :=
  (∀ s : State, s.hub.linkUp = true → s.hub.ready = true →
    let p := s.hub.spdm
    let withSpdm (q : Spdm) : State := { s with hub := { s.hub with spdm := q } }
    let refused : Host.Outcome State Fault Refusal := .next (s.doeAnswer 255 [])
    (exec .doeDiscovery s = .next (s.doeAnswer 0 [0#8, 1#8, 2#8])) ∧
    (exec .getVersion s = .next ((withSpdm { Spdm.closed with version := true }).doeAnswer 1 spdmVersions)) ∧
    (p.version = true → exec .getCapabilities s = .next ((withSpdm { p with capabilities := true }).doeAnswer 2 spdmFlags)) ∧
    (p.version = false → exec .getCapabilities s = refused) ∧
    (p.capabilities = true →
      exec .negotiateAlgorithms s = .next ((withSpdm { p with algorithms := true }).doeAnswer 3 spdmAlgorithmSet)) ∧
    (p.capabilities = false → exec .negotiateAlgorithms s = refused) ∧
    (p.algorithms = true →
      exec .getDigests s = .next (s.doeAnswer 4 (sha384 Config.certificateChain)) ∧
      (∀ off len, exec (.getCertificate off len) s =
        .next (s.doeAnswer 5 ((Config.certificateChain.drop off).take len))) ∧
      (∀ nonce, exec (.challenge nonce) s = .next (s.doeAnswer 6 (Config.deviceSignature nonce))) ∧
      exec (.getMeasurements 1) s = .next (s.doeAnswer 7 (sha384 (Config.firmware false))) ∧
      exec (.getMeasurements 3) s = .next (s.doeAnswer 7 (sha384 s.hub.header)) ∧
      exec (.getMeasurements 6) s = .next (s.doeAnswer 7
        (((List.range 8).map fun i => BitVec.ofNat 8 (s.hub.keys.level i)) ++ leBytes 4 s.hub.keys.alarms.length)) ∧
      (∀ i, i = 0 ∨ 7 < i → exec (.getMeasurements i) s = refused) ∧
      (∀ id, (∀ x ∈ p.sessions, x.id ≠ id) → exec (.keyExchange id) s = .next ((withSpdm { p with
        sessions := p.sessions ++ [{ id := id, finished := false, mutualAuth := false, updates := 0 }] }).doeAnswer
          8 []))) ∧
    (p.algorithms = false → exec .getDigests s = refused ∧
      ∀ id, exec (.keyExchange id) s = refused ∧ exec (.getMeasurements id) s = refused) ∧
    (∀ (id : Nat) (x : Session) (rest : List Session), p.sessions = x :: rest → x.id = id →
      (∀ y ∈ rest, y.id ≠ id) →
      (x.finished = false → ∀ auth : Bool, exec (.finish id auth) s = .next
        ((withSpdm { p with sessions := { x with finished := true, mutualAuth := auth } :: rest }).doeAnswer 9 [])) ∧
      (x.finished = true →
        exec (.heartbeat id) s = .next (s.doeAnswer 10 []) ∧
        exec (.keyUpdate id) s = .next
          ((withSpdm { p with sessions := { x with updates := x.updates + 1 } :: rest }).doeAnswer 11 []) ∧
        exec (.endSession id) s = .next ((withSpdm { p with sessions := rest }).doeAnswer 12 [])))) ∧
  (∀ (s : State) (id : Nat), s.hub.linkUp = true → s.hub.ready = true →
    let h := s.hub
    let refused : Host.Outcome State Fault Refusal := .next (s.doeAnswer 255 [])
    (∀ (stream set : Nat) (key : List Byte), h.spdm.secured id = true → stream ≤ 4 → set ≤ 1 → key.length = 32 →
      ∃ t : State, exec (.ideKm id stream set key) s = .next t ∧ t.hub.ideActive = h.ideActive ∧
        (stream, set) ∈ t.hub.ideLoaded ∧ (stream, set, key) ∈ t.hub.keys.ideKeys ∧
        (∀ x ∈ t.hub.keys.ideKeys, x.1 = stream → x.2.1 = set → x.2.2 = key) ∧
        (∀ x, (x.1 ≠ stream ∨ x.2.1 ≠ set) → (x ∈ t.hub.keys.ideKeys ↔ x ∈ h.keys.ideKeys)) ∧
        t.hub.keys.imageKey = h.keys.imageKey ∧ t.chans = s.chans) ∧
    (∀ stream set : Nat, h.spdm.secured id = true → (stream, set) ∈ h.ideLoaded →
      exec (.kSetGo id stream set) s = .next
        (({ s with hub := { h with ideActive := insertNat h.ideActive stream set } } : State).doeAnswer 15 [])) ∧
    (∀ stream set : Nat, (stream, set) ∉ h.ideLoaded → exec (.kSetGo id stream set) s = refused) ∧
    (∀ (x : Session) (key signing : List Byte) (gen floor : Nat), h.spdm.session id = some x → x.finished = true →
      x.mutualAuth = true → key.length = 32 → ∃ t : State,
        exec (.keyProvision id key gen signing floor) s = .next t ∧ t.hub.keys.imageKey = some key ∧
        t.hub.keys.keyGen = gen ∧ t.hub.keyNeeded = false ∧ t.chans = s.chans ∧ t.hub.image = h.image ∧
        (∀ old, h.keys.signingKey = some old → t.hub.keys.signingKey = some old ∧ t.hub.keys.floor = h.keys.floor) ∧
        (h.keys.signingKey = none → t.hub.keys.signingKey = some signing ∧ t.hub.keys.floor = floor)) ∧
    (h.spdm.session id = none → ∀ (stream set gen floor : Nat) (key signing : List Byte),
      exec (.ideKm id stream set key) s = refused ∧ exec (.kSetGo id stream set) s = refused ∧
      exec (.keyProvision id key gen signing floor) s = refused))

/-- R407, R408, R492: SMBus reads answer from one snapshot of the health registers; ALERT_MASK is the one writable register; the Alert Response Address
is answered with the device's address while SMBALERT# is asserted; a timeout changes no register.
It rests on the model's choices of log entries 42, 44, 108 and 109. -/
def Obligations.SmbusAnswers : Prop :=
  ∀ (s : State) (c : Nat) (v : Byte),
    let h := s.hub
    let right (c : Nat) (b : Byte) : Prop :=
      (c ≤ 3 → b = BitVec.ofNat 8 (h.bootStatus.toNat / 256 ^ c)) ∧ (c = 0x04 → b = BitVec.ofNat 8 h.part) ∧
      (c = 0x05 → b = h.revision) ∧
      (c = 0x08 → b.getLsbD 1 = h.pwrgd ∧ b.getLsbD 2 = h.ready ∧ b.getLsbD 3 = (!h.lockupN) ∧
        b.getLsbD 4 = (!h.netlowN) ∧ b.getLsbD 5 = (!h.alarmN) ∧ b.getLsbD 6 = h.standbyLost ∧
        b.getLsbD 0 = false ∧ b.getLsbD 7 = false) ∧
      (0x0A ≤ c → c ≤ 0x10 → s.populated (c - 9) = false → b = 0#8) ∧
      (c = 0x13 → b = BitVec.ofNat 8 (s.chans.countP fun x => x.state == .safe)) ∧
      (0x17 ≤ c → c ≤ 0x1A → b = BitVec.ofNat 8 (h.catchCount / 256 ^ (c - 0x17))) ∧ (c = 0x1F → b = h.alertMask)
    let read (t : State) (l : List Byte) : Prop :=
      t.hub.sent = h.sent ++ [.smbus l] ∧ t.chans = s.chans ∧ t.dies = s.dies ∧ t.pending = s.pending ∧
      t.hub.keys = h.keys ∧ t.hub.alertMask = h.alertMask
    (h.pwrgd = true →
      (∃ t b, exec (.readByte c) s = .next t ∧ read t [b] ∧ right c b) ∧
      (∃ t b b', exec (.readWord c) s = .next t ∧ read t [b, b'] ∧ right c b ∧ right (c + 1) b') ∧
      (∀ n, ∃ t l, exec (.blockRead c n) s = .next t ∧ read t l ∧ l.length = n ∧
        ∀ i, i < n → right (c + i) (l.getD i 0#8)) ∧
      exec (.writeByte 0x1F v) s = .next { s with hub := { h with alertMask := v &&& 0x7E#8 } }) ∧
    (c ≠ 0x1F → exec (.writeByte c v) s = .next s) ∧
    (h.pwrgd = true → (h.alarmN = false ∧ h.alertMask.getLsbD 5 = true) ∨
        (h.netlowN = false ∧ h.alertMask.getLsbD 4 = true) ∨ (h.lockupN = false ∧ h.alertMask.getLsbD 3 = true) ∨
        (h.standbyLost = true ∧ h.alertMask.getLsbD 6 = true) ∨ (h.ready = false ∧ h.alertMask.getLsbD 2 = true) →
      exec .alertResponseAddress s = .next (s.send (.smbus [0x2A#8]))) ∧
    (h.alertMask = 0#8 → exec .alertResponseAddress s = .next s) ∧
    (h.pwrgd = false → exec (.readByte c) s = .next s ∧ exec (.readWord c) s = .next s ∧
      exec (.blockRead c 0) s = .next s ∧ exec .alertResponseAddress s = .next s) ∧
    exec .smbusTimeout s = .next s

/-! ### The host queues and the carousel -/

/-- R378, R380, R381, R382: arming a queue zeroes its indexes, or is refused with ERRC 5h; disarming drops what was in hand; a doorbell within
the ring is taken, and one beyond it sets ERRC and disarms; an error is notified; the end of a holdoff sends the one message
that was deferred.
It rests on the model's choices of log entries 71, 73 and 74. -/
def Obligations.QueuesAreArmedAndRung : Prop :=
  ∀ (s : State) (q : QueueId) (v : Word), s.hasQueue q = true → s.hub.responses = [] →
    (∀ ch n, q = .vf ch n → (s.chan ch).queues.length = 16) →
    let x := s.queue q
    let ctl (y : Queue) : Queue :=
      { y with wbEn := v.getLsbD 30, ie := v.getLsbD 29, vec := bitsOf v.toNat 17 16, holdoff := v.toNat % 65536 }
    let stopped (t : State) (code : Nat) : Prop :=
      (t.queue q).arm = false ∧ (t.queue q).errc = code ∧ (t.queue q).base = x.base ∧ (t.queue q).prod = x.prod ∧
      (t.queue q).cons = x.cons ∧ ∀ ch n, q = .vf ch n → n ≠ 11 → ∃ h, (t.chan ch).ntq.getLast? = some h ∧
        h.bytes = ntqBytes 0x08 (n * 256 + code) 0 (s.chan ch).now
    (s.hub.linkUp = true → s.hub.ready = true →
      (x.arm = false → minLog q ≤ x.log2 → x.log2 ≤ 16 → exec (.queueArm q v) s = .next (s.onQueue q fun y =>
        { ctl y with
          arm := true, prod := 0, cons := 0, issued := 0, bells := [], reading := false, inHand := none
          samples := none, live := [] })) ∧
      (x.arm = false → x.log2 < minLog q ∨ 16 < x.log2 → ∃ t, exec (.queueArm q v) s = .next t ∧ stopped t 5) ∧
      (x.arm = true → exec (.queueArm q v) s = .next (s.onQueue q ctl)) ∧
      (exec (.queueDisarm q v) s = .next (s.onQueue q fun y =>
        { ctl y with
          arm := false, issued := 0, bells := [], reading := false, inHand := none, samples := none, live := [] })) ∧
      (isInbound q = true →
        (x.arm = true → gap v.toNat x.cons ≤ 2 ^ x.log2 →
          exec (.inboundDoorbell q v) s =
            .next (State.onQueue { s with hub := { s.hub with bellCount := s.hub.bellCount + 1 } } q fun y =>
              { y with prod := v.toNat, bells := y.waiting ++ [(v.toNat, s.hub.bellCount)] })) ∧
        (x.arm = true → 2 ^ x.log2 < gap v.toNat x.cons → ∃ t, exec (.inboundDoorbell q v) s = .next t ∧ stopped t 1) ∧
        (x.arm = false → exec (.inboundDoorbell q v) s = .next s)) ∧
      (isInbound q = false →
        (x.arm = true → gap v.toNat x.cons ≤ gap x.prod x.cons →
          exec (.outboundDoorbell q v) s = .next (s.onQueue q fun y => { y with cons := v.toNat })) ∧
        (x.arm = true → gap x.prod x.cons < gap v.toNat x.cons →
          ∃ t, exec (.outboundDoorbell q v) s = .next t ∧ stopped t 2) ∧
        (x.arm = false → exec (.outboundDoorbell q v) s = .next s))) ∧
    (x.quiet = true → x.deferred = false →
      exec (.holdoffEnd q) s = .next (s.onQueue q fun y => { y with quiet := false })) ∧
    (x.quiet = true → x.deferred = true → s.hub.canSend = true → s.vectorMasked (fnOf q) (x.vector q) = false →
      ∃ t, exec (.holdoffEnd q) s = .next t ∧ t.hub.sent = s.hub.sent ++ [.msi (fnOf q) (x.vector q)] ∧ (t.queue q).deferred = false ∧
      (t.queue q).quiet = decide (x.holdoff ≠ 0) ∧ (t.queue q).prod = x.prod ∧ (t.queue q).cons = x.cons) ∧
    (x.quiet = false → exec (.holdoffEnd q) s = .next s)

/-- R380, R381, R383, R388, R403, R404: a visit moves a notification into its ring with the present epoch, and reads the next entry of an
inbound ring; a channel left without work keeps no deficit; an entry that arrives is delivered, skipped or held; and a read
that fails stops its queue.
It rests on the model's choices of log entries 69, 70 and 72. -/
def Obligations.CarouselMovesItems : Prop :=
  ∀ (s : State) (ch : Nat), s.offers ch = true → (s.chan ch).queues.length = 16 →
    let c := s.chan ch
    let q (n : Nat) : Queue := s.queue (.vf ch n)
    let others (n : Nat) : Prop := ∀ m, m ≠ n → (q m).arm = false
    let bare := c.cell = none ∧ c.ntqLost = 0 ∧ s.hub.panel.selected ≠ some ch ∧ (∀ m, (q m).inHand = none) ∧
      c.deficit = 0 ∧ 1 ≤ c.share ∧ s.hub.canSend = true ∧ s.nextVisit = some ch
    (s.hub.canSend = false ∨ s.nextVisit ≠ some ch → exec (.carouselVisit ch) s = .next s) ∧
    (∀ h : Held, bare → others 11 → c.ntq = [h] → h.moved = 0 → h.bytes.length = 16 → (q 11).arm = true →
      (q 11).issued = 0 → gap (q 11).prod (q 11).cons + 1 ≤ 2 ^ (q 11).log2 → (q 11).wbEn = false → (q 11).ie = false →
      ∃ t, exec (.carouselVisit ch) s = .next t ∧ (t.chan ch).ntq = [] ∧ (t.chan ch).deficit = 0 ∧
        (t.queue (.vf ch 11)).prod = ((q 11).prod + 1) % 0x100000000 ∧
        t.hub.sent = s.hub.sent ++ [.mem (ch + 1) ((q 11).base + (q 11).prod % 2 ^ (q 11).log2 * 16)
          (h.bytes.take 4 ++ leBytes 4 c.epoch ++ h.bytes.drop 8) (s.relaxed (ch + 1))] ∧ t.hub.turn = ch + 1 ∧
        t.dies = s.dies) ∧
    (∀ n, n < 8 → bare → others n → c.ntq = [] → (q n).arm = true → (q n).reading = false → (q n).issued ≠ (q n).prod →
      ∃ t, exec (.carouselVisit ch) s = .next t ∧ (t.queue (.vf ch n)).reading = true ∧ (t.chan ch).deficit = 0 ∧
        (t.queue (.vf ch n)).issued = ((q n).issued + 1) % 0x100000000 ∧
        (t.queue (.vf ch n)).cons = (q n).cons ∧
        t.hub.sent = s.hub.sent ++ [.hostRead ch ((q n).base + (q n).issued % 2 ^ (q n).log2 * unitOf (.vf ch n))
          (unitOf (.vf ch n))] ∧ t.dies = s.dies) ∧
    (∀ e : List Byte, (q 0).reading = true → (q 0).inHand = none → e.length = 16 →
      let cls := (e.getD 0 0#8).toNat
      let fine := (1 ≤ cls ∧ cls ≤ 3 ∨ 0x80 ≤ cls) ∧ ∀ b ∈ e.drop 8, b = 0#8
      (¬ fine → ∃ t, exec (.readCompletion ch (.entry 0) (some e)) s = .next t ∧
        (t.queue (.vf ch 0)).skipped = ((q 0).skipped + 1) % 0x100000000 ∧
        (t.queue (.vf ch 0)).cons = ((q 0).cons + 1) % 0x100000000 ∧ (t.queue (.vf ch 0)).inHand = none ∧
        (t.chan ch).cell = c.cell) ∧
      (∀ x : Cell, fine → c.cell = some x → x.runs = true → x.nap.napping = false → x.io.bit 0xEC09 7 = true →
        x.evf.length < 64 → ∃ t x', exec (.readCompletion ch (.entry 0) (some e)) s = .next t ∧
          (t.chan ch).cell = some x' ∧ x'.evf = x.evf ++ [e.take 8] ∧ x'.core = x.core ∧ x'.mem = x.mem ∧
          (t.queue (.vf ch 0)).cons = ((q 0).cons + 1) % 0x100000000 ∧ (t.queue (.vf ch 0)).inHand = none ∧
          (t.queue (.vf ch 0)).skipped = (q 0).skipped) ∧
      (∀ x : Cell, fine → c.cell = some x → (x.runs = false ∨ x.nap.napping = true ∨ x.io.bit 0xEC09 7 = false ∨
          64 ≤ x.evf.length) → exec (.readCompletion ch (.entry 0) (some e)) s = .next (s.onQueue (.vf ch 0) fun y =>
            { y with reading := false, inHand := some e }))) ∧
    (∀ n, n < 8 → (q n).reading = true → (q n).inHand = none → ∃ t,
      exec (.readDoesNotComplete ch (.entry n)) s = .next t ∧ exec (.readCompletion ch (.entry n) none) s = .next t ∧
      (t.queue (.vf ch n)).arm = false ∧ (t.queue (.vf ch n)).errc = 3 ∧ (t.queue (.vf ch n)).reading = false ∧
      (t.queue (.vf ch n)).cons = (q n).cons ∧ (t.chan ch).cell = c.cell)

/-! ### Management commands -/

/-- R49, R50, R51, R52, R53, R401, R455, R503: CAST starts on a free tested cell, waits for a drain, or is refused; the cast ends with the
channel RUNNING on the cell of its mould and card; STOP begins a drain; the end of the drain leaves the channel STOPPED, with
its queues disarmed, its keys erased and its cell in the pool, or with the kiln after a fault. A stale epoch is counted.
It rests on the model's choices of log entries 76 to 79. -/
def Obligations.ChannelsAreCastAndStopped : Prop :=
  ∀ (s : State) (ch tag epoch mould : Nat),
    let c := s.chan ch
    let u := s.takeCommand
    let die := if s.pinless ch then 0 else (s.card ch).elim 0 (·.die)
    let m := if mould = 255 then (s.card ch).elim 0 (·.mould) else mould
    let idle := (c.state = .uncast ∨ c.state = .stopped ∨ c.state = .safe) ∧ c.draining = false
    (s.manages = false → exec (.cast ch tag epoch mould) s = .next s ∧ exec (.stop ch tag epoch) s = .next s) ∧
    (s.manages = true → s.offers ch = false → exec (.cast ch tag epoch mould) s = .next (u.respond 1 6 tag ch 0 0) ∧
      exec (.stop ch tag epoch) s = .next (u.respond 2 6 tag ch 0 0)) ∧
    (s.manages = true → s.offers ch = true → epoch ≠ c.epoch →
      exec (.cast ch tag epoch mould) s = .next ((u.setChan { c with stale := c.stale + 1 }).respond 1 2 tag ch 0 0) ∧
      exec (.stop ch tag epoch) s = .next ((u.setChan { c with stale := c.stale + 1 }).respond 2 2 tag ch 0 0)) ∧
    (s.manages = true → s.offers ch = true → epoch = c.epoch →
      (∀ (i : Image) (card : Card) (p : Nat × Nat), idle → s.hub.image = some i → s.card ch = some card →
        (die = 0 ∨ s.populated die = true) → (s.mould m).isSome = true → s.castCell die none = some p →
        ((s.die p.1).cell p.2).role = .pool → ∃ t : State, exec (.cast ch tag epoch mould) s = .next t ∧
          (t.chan ch).state = .casting ∧ (t.chan ch).epoch = c.epoch + 1 ∧ (t.chan ch).place = some p ∧
          (t.chan ch).mould = m ∧ (t.chan ch).cause = 0 ∧ (t.chan ch).castTag = some tag ∧
          (t.chan ch).lockup = none ∧ (t.chan ch).cell = none ∧
          (c.ntq.length < 128 → (t.chan ch).queues = c.queues) ∧
          ((t.die p.1).cell p.2).role = .hosting ch ∧ (∀ n, n ≠ ch → t.chan n = s.chan n) ∧
          ∀ r : Nat × Nat, r.1 ≥ 1 → p.1 ≥ 1 → r ≠ p → (t.die r.1).cell r.2 = (s.die r.1).cell r.2) ∧
      (∀ (i : Image) (card : Card), idle → s.hub.image = some i → s.card ch = some card →
        (die = 0 ∨ s.populated die = true) → (s.mould m).isSome = true → s.castCell die none = none →
        exec (.cast ch tag epoch mould) s = .next ((u.setChan { c with cause := 3 }).respond 1 4 tag ch 0 0)) ∧
      (∀ i : Image, idle → s.hub.image = some i → s.card ch = none →
        exec (.cast ch tag epoch mould) s = .next ((u.setChan { c with cause := 1 }).respond 1 6 tag ch 0 0)) ∧
      (idle → s.hub.image = none →
        exec (.cast ch tag epoch mould) s = .next ((u.setChan { c with cause := 4 }).respond 1 6 tag ch 0 0)) ∧
      (¬ idle → c.draining = false → exec (.cast ch tag epoch mould) s = .next (u.respond 1 1 tag ch 0 0)) ∧
      (c.draining = true → c.pendingCast = none → exec (.cast ch tag epoch mould) s = .next
        (u.setChan { c with pendingCast := some { tag := some tag, mould := mould } })) ∧
      (∀ w, c.draining = true → c.pendingCast = some w → ∃ t, exec (.cast ch tag epoch mould) s = .next t ∧
        t.chan ch = { c with
          castReplaced := c.castReplaced + 1, pendingCast := some { tag := some tag, mould := mould } } ∧
        ∀ n, n ≠ ch → t.chan n = s.chan n) ∧
      (c.draining = false → c.state = .uncast ∨ c.state = .stopped →
        exec (.stop ch tag epoch) s = .next (u.respond 2 1 tag ch 0 0)) ∧
      (c.draining = true → c.pendingCast = none → exec (.stop ch tag epoch) s = .next
        (u.setChan { c with stopTags := c.stopTags ++ [tag] })) ∧
      (c.draining = false → c.state ≠ .uncast → c.state ≠ .stopped → ∃ t, exec (.stop ch tag epoch) s = .next t ∧
        (t.chan ch).draining = true ∧ (t.chan ch).epoch = c.epoch + 1 ∧ (t.chan ch).viewEpoch = c.epoch + 1 ∧
        (t.chan ch).state = c.state ∧ (t.chan ch).stopTags = c.stopTags ++ [tag] ∧ (t.chan ch).place = c.place ∧
        (c.ntq.length < 128 → (t.chan ch).queues = c.queues) ∧
        (∀ x, (t.chan ch).cell = some x → x.runs = false) ∧ t.dies = s.dies)) ∧
    (∀ (card : Card) (mo : Mould) (p : Nat × Nat), c.state = .casting → c.draining = false → c.place = some p →
      s.card ch = some card → s.mould c.mould = some mo →
      let k := freshCell mo card s.hub.keys.imageKey (s.hub.panel.selected == some ch)
      let x : Cell := { k with picture := { k.picture with cloneNext := c.cloneWait } }
      ∃ t, exec (.castComplete ch) s = .next t ∧ (t.chan ch).state = .running ∧ (t.chan ch).view = .running ∧
        (t.chan ch).cell = some x ∧ (t.chan ch).checkpoint = some x.stateRecord ∧ (t.chan ch).share = card.share ∧
        (t.chan ch).interval = card.interval ∧ (t.chan ch).epoch = c.epoch ∧ (t.chan ch).castTag = none ∧
        (c.step = .none → (t.chan ch).pads = s.padsOf ch x)) ∧
    (c.state ≠ .casting ∨ c.draining = true → exec (.castComplete ch) s = .next s) ∧
    (∀ p : Nat × Nat, c.draining = true → s.drainWrites ch = false → c.pendingCast = none → c.stopTags = [] →
      c.place = some p →
      ((s.die p.1).cell p.2).role = .hosting ch → ∃ t, exec (.drainEnd ch) s = .next t ∧
        (t.chan ch).state = .stopped ∧ (t.chan ch).draining = false ∧ (t.chan ch).cell = none ∧
        (t.chan ch).place = none ∧ (t.chan ch).pads = s.stopPads ch ∧ (t.chan ch).epoch = c.epoch ∧
        (∀ q ∈ (t.chan ch).queues, q.arm = false) ∧ (∀ e ∈ t.hub.keys.escrow, e.1 ≠ ch) ∧
        (c.drainFault = false → ((t.die p.1).cell p.2).role = .pool) ∧
        (c.drainFault = true → ((t.die p.1).cell p.2).role = .testing) ∧ ∀ n, n ≠ ch → t.chan n = s.chan n) ∧
    (c.draining = false ∨ s.drainWrites ch = true → exec (.drainEnd ch) s = .next s)

/-- R54, R55, R130, R242, R245, R258, R263, R399, R400, R401, R436, R467: the other management commands answer, or are refused with
their STATUS: cloning waits for the frame boundary, an image update opens, fills and closes a slot, the read commands return
their records, and an undefined opcode answers 8; the response goes to the ring when it has room.
It rests on the model's choices of log entries 43, 45, 46, 79, 100 and 107. -/
def Obligations.ManagementAnswers : Prop :=
  ∀ (s : State) (ch tag epoch : Nat), s.manages = true →
    let c := s.chan ch
    let u := s.takeCommand
    (∀ (on : Bool) (v : Byte), s.offers ch = true → epoch ≠ c.epoch →
      let stale := u.setChan { c with stale := c.stale + 1 }
      exec (.clone ch tag epoch on) s = .next (stale.respond 3 2 tag ch 0 0) ∧
      exec (.streamRefresh ch tag epoch v) s = .next (stale.respond 4 2 tag ch 0 0)) ∧
    (∀ (on : Bool) (v : Byte), s.offers ch = true → epoch = c.epoch →
      (c.cellLess = true → exec (.clone ch tag epoch on) s = .next (u.respond 3 1 tag ch 0 0)) ∧
      (c.cellLess = false → c.state = .casting → exec (.clone ch tag epoch on) s =
        .next ((u.setChan { c with cloneWait := some on }).respond 3 0 tag ch 0 0)) ∧
      (c.cellLess = false → c.state ≠ .casting → exec (.clone ch tag epoch on) s = .next ((u.setChan { c with
        cell := c.cell.map fun x => { x with picture := { x.picture with cloneNext := some on } } }).respond 3 0 tag ch
          0 0)) ∧
      (c.cellLess = true ∨ c.state = .casting →
        exec (.streamRefresh ch tag epoch v) s = .next ((u.setChan c).respond 4 0 tag ch 0 0)) ∧
      (c.state = .running → c.draining = false → c.step = .none → v &&& 7#8 = 1#8 →
        exec (.streamRefresh ch tag epoch v) s = .next ((u.setChan { c with
          cell := c.cell.map fun x => x.refreshStream .shq }).respond 4 0 tag ch 0 0))) ∧
    (∀ sel : Nat, s.offers sel = false → sel ≠ 0xFFFF →
      exec (.svcSelect tag sel) s = .next (u.respond 5 6 tag 0 0 0)) ∧
    (s.hub.update = none → s.hub.flash.length = 2 → s.hub.mrq.arm = false → ∃ t n,
      exec (.imageBegin tag) s = .next t ∧ t.hub.update = some n ∧ n < 2 ∧
      t.hub.flash[n]? = some { bytes := [], written := true, open_ := true } ∧
      t.hub.flash[1 - n]? = s.hub.flash[1 - n]? ∧ (s.hub.noImage = false → n ≠ s.hub.activeSlot) ∧
      t.hub.responses.getLast? = some (responseBytes 0x20 0 tag 0 0 (s.chan 0).epoch 0)) ∧
    (∀ n, s.hub.update = some n → exec (.imageBegin tag) s = .next (u.respond 0x20 3 tag 0 0 0)) ∧
    (∀ (off : Nat) (data : List Byte) (n : Nat) (f : FlashSlot), s.hub.update = some n → s.hub.flash[n]? = some f →
      (data.length ≤ 0x100000 → off + data.length ≤ 20 * 1024 * 1024 → ∃ t,
        exec (.imageWrite tag off data) s = .next t ∧ t.hub.update = some n ∧
        t.hub.flash[n]? = some { f with bytes := f.bytes.put off data } ∧ t.chans = s.chans) ∧
      (0x100000 < data.length ∨ 20 * 1024 * 1024 < off + data.length →
        exec (.imageWrite tag off data) s = .next (u.respond 0x21 6 tag 0 0 0))) ∧
    (∀ (r : SlotReading) (n : Nat) (f : FlashSlot), s.hub.update = some n → s.hub.flash[n]? = some f →
      ∃ t, exec (.imageCommit tag r) s = .next t ∧ t.hub.update = none ∧
        t.hub.flash[n]? = some { f with open_ := false } ∧ t.chans = s.chans ∧ t.hub.image = s.hub.image) ∧
    (∀ (r : SlotReading) (off : Nat) (data : List Byte), s.hub.update = none →
      exec (.imageCommit tag r) s = .next (u.respond 0x22 1 tag 0 0 0) ∧
      exec (.imageWrite tag off data) s = .next (u.respond 0x21 1 tag 0 0 0)) ∧
    (∀ buf len : Nat,
      exec (.readCatchLog tag buf len) s = .next
        (u.answer 0x30 tag buf len 0 (s.hub.catchLog.flatMap CatchRecord.bytes)) ∧
      (∀ r, s.offers ch = true → c.lockup = some r →
        exec (.readLockup ch tag buf len) s = .next (u.answer 0x31 tag buf len ch (lockupBytes ch r))) ∧
      (s.offers ch = false → exec (.readLockup ch tag buf len) s = .next (u.respond 0x31 6 tag ch 0 0)) ∧
      exec (.readCounters tag buf len) s = .next (u.answer 0x35 tag buf len 0 (Config.countsLayout
        (s.chans.map fun x => (x.n, [x.shq.counts, x.clq.counts, x.svc.counts])))) ∧
      (∃ t bytes, exec (.readHealth tag buf len) s = .next (State.answer t 0x32 tag buf len 0 bytes) ∧
        bytes.length = 16 * 88 * partDies s.hub.part ∧ t.chans = s.chans ∧ t.hub.keys = s.hub.keys ∧
        ∀ d n, ((t.die d).cell n).role = ((s.die d).cell n).role) ∧
      (∃ t bytes, exec (.readForecast tag buf len) s = .next (State.answer t 0x33 tag buf len 0 bytes) ∧
        bytes.length = 16 * partDies s.hub.part ∧ t.chans = s.chans ∧ t.dies = s.dies) ∧
      (∃ t bytes, exec (.readSecurity tag buf len) s = .next (State.answer t 0x34 tag buf len 0 bytes) ∧
        bytes.length = 16 + 32 * s.hub.keys.alarms.length ∧ t.chans = s.chans ∧ t.hub.keys = s.hub.keys ∧
        (bytes.length ≤ len → s.hub.tripped = 0#8 → t.hub.alarmN = true) ∧
        (len < bytes.length ∨ s.hub.tripped ≠ 0#8 → t.hub.alarmN = s.hub.alarmN))) ∧
    (∀ op : Byte, (op = 0#8 ∨ 5 < op.toNat ∧ op.toNat < 0x10 ∨ 0x17 < op.toNat ∧ op.toNat < 0x20 ∨
        0x22 < op.toNat ∧ op.toNat < 0x30 ∨ 0x35 < op.toNat) →
      exec (.undefinedOpcode op ch tag) s = .next (u.respond op.toNat 8 tag ch 0 0) ∧
      (s.hub.mcq.wbEn = false → s.hub.mcq.ie = false → s.hub.responses = [] → s.hub.mrq.arm = true → s.hub.mrq.wbEn = false →
        s.hub.mrq.ie = false → gap s.hub.mrq.prod s.hub.mrq.cons + 1 ≤ 2 ^ s.hub.mrq.log2 →
        exec (.undefinedOpcode op ch tag) s = .next { s with hub := { s.hub with
          mcq := { s.hub.mcq with cons := (s.hub.mcq.cons + 1) % 0x100000000 }
          mrq := { s.hub.mrq with prod := (s.hub.mrq.prod + 1) % 0x100000000 }
          sent := s.hub.sent ++ [.mem 0 (s.hub.mrq.base + s.hub.mrq.prod % 2 ^ s.hub.mrq.log2 * 16)
            (responseBytes op.toNat 8 tag ch 0 c.epoch 0) (s.relaxed 0)] } }))

/-! ### Debug through PF0, and the service panel -/

/-- R132, R133, R134, R135, R136, R137: attaching turns the net off with cause DEBUG and answers OK while the channel runs, naps or is halted; the
other debug commands change the core of an attached channel and are refused where the manual does not allow them; DBG_READ has
no side effect; detaching resumes the core, clears the breakpoints and asks for a checkpoint.
It rests on the model's choices of log entries 23 and 114. -/
def Obligations.DebugCommandsRun : Prop :=
  ∀ (s : State) (ch tag : Nat), s.manages = true → s.offers ch = true →
    let c := s.chan ch
    let u := s.takeCommand
    let e := c.epoch
    let wrong (op : Nat) : Host.Outcome State Fault Refusal := .next (u.respond op 1 tag ch 0 0)
    let answered (op : Nat) (f : Cell → Cell) : Host.Outcome State Fault Refusal :=
      .next ((u.deliver ch f).respond op 0 tag ch 0 0)
    let may := (c.state = .running ∨ c.state = .napping ∨ c.state = .halted) ∧ c.draining = false
    let bad := u.setChan { c with stale := c.stale + 1 }
    (may → ∃ t, exec (.dbgAttach ch tag e) s = .next t ∧ (t.chan ch).attached = true ∧ (t.chan ch).state = c.state ∧
      (t.chan ch).netIs .debug = true ∧ (t.chan ch).epoch = c.epoch ∧ t.dies = s.dies ∧
      (c.netOff = [] → (t.chan ch).netOff = [(.debug, c.now)] ∧ t.hub.catchLog.getLast?.map (·.kind) = some 3)) ∧
    (¬ may → exec (.dbgAttach ch tag e) s = wrong 0x10) ∧
    (∀ (v : Nat) (space : DebugSpace) (a n b : Nat) (l : List Byte) (points : List Half), v ≠ e →
      exec (.dbgAttach ch tag v) s = .next (bad.respond 0x10 2 tag ch 0 0) ∧
      exec (.dbgHalt ch tag v) s = .next (bad.respond 0x11 2 tag ch 0 0) ∧
      exec (.dbgStep ch tag v) s = .next (bad.respond 0x12 2 tag ch 0 0) ∧
      exec (.dbgResume ch tag v) s = .next (bad.respond 0x13 2 tag ch 0 0) ∧
      exec (.dbgRead ch tag v space a n b) s = .next (bad.respond 0x14 2 tag ch 0 0) ∧
      exec (.dbgWrite ch tag v space a l) s = .next (bad.respond 0x15 2 tag ch 0 0) ∧
      exec (.dbgBreak ch tag v points) s = .next (bad.respond 0x16 2 tag ch 0 0) ∧
      exec (.dbgDetach ch tag v) s = .next (bad.respond 0x17 2 tag ch 0 0)) ∧
    (∀ (space : DebugSpace) (a n b : Nat) (l : List Byte) (points : List Half),
      (c.attached = false ∨ c.draining = true ∨ c.cell = none) →
      exec (.dbgHalt ch tag e) s = wrong 0x11 ∧ exec (.dbgStep ch tag e) s = wrong 0x12 ∧
      exec (.dbgResume ch tag e) s = wrong 0x13 ∧ exec (.dbgRead ch tag e space a n b) s = wrong 0x14 ∧
      exec (.dbgWrite ch tag e space a l) s = wrong 0x15 ∧ exec (.dbgBreak ch tag e points) s = wrong 0x16 ∧
      exec (.dbgDetach ch tag e) s = wrong 0x17) ∧
    (∀ x : Cell, c.attached = true → c.draining = false → c.cell = some x →
      let halted := x.core.debugHalt = true
      let stopped := x.core.debugHalt = true ∨ x.core.lockup = true
      (¬ stopped → exec (.dbgHalt ch tag e) s = answered 0x11 fun y =>
        { y with core := { y.core with haltRequest := true } }) ∧
      (stopped → exec (.dbgHalt ch tag e) s = wrong 0x11) ∧
      (halted → exec (.dbgStep ch tag e) s = answered 0x12 Cell.debugStep) ∧
      (halted → exec (.dbgResume ch tag e) s = answered 0x13 fun y => ({ y with core := { y.core with
        debugHalt := false, haltRequest := false, resumeAt := some y.core.pc } } : Cell).restartPace) ∧
      (¬ halted → exec (.dbgStep ch tag e) s = wrong 0x12 ∧ exec (.dbgResume ch tag e) s = wrong 0x13) ∧
      (∀ a n b : Nat, (a + n ≤ 0x80000 → exec (.dbgRead ch tag e .memory a n b) s =
          .next (u.answer 0x14 tag b n ch ((List.range n).map fun i => x.mem.rd (a + i)))) ∧
        (a + n ≤ 240 → exec (.dbgRead ch tag e .file a n b) s =
          .next (u.answer 0x14 tag b n ch ((List.range n).map fun i => x.core.p.rd (a + i)))) ∧
        (0x80000 < a + n → exec (.dbgRead ch tag e .memory a n b) s = .next (u.respond 0x14 6 tag ch 0 0))) ∧
      (∀ b : Nat, exec (.dbgRead ch tag e .special 20 2 b) s =
          .next (u.answer 0x14 tag b 2 ch [x.core.pc.setWidth 8, (x.core.pc >>> 8).setWidth 8])) ∧
      (∀ (a : Nat) (l : List Byte), (stopped → a + l.length ≤ 0x80000 → ∃ t x',
          exec (.dbgWrite ch tag e .memory a l) s = .next t ∧ (t.chan ch).cell = some x' ∧ x'.mem = x.mem.put a l ∧
          x'.core = x.core) ∧
        (¬ stopped → exec (.dbgWrite ch tag e .memory a l) s = wrong 0x15) ∧
        (stopped → exec (.dbgWrite ch tag e .ioPage a l) s = .next (u.respond 0x15 6 tag ch 0 0))) ∧
      (∀ points : List Half, (points.length ≤ 4 → exec (.dbgBreak ch tag e points) s = answered 0x16 fun y =>
          { y with breakpoints := points }) ∧
        (4 < points.length → exec (.dbgBreak ch tag e points) s = .next (u.respond 0x16 6 tag ch 0 0))) ∧
      (∃ t x', exec (.dbgDetach ch tag e) s = .next t ∧ (t.chan ch).attached = false ∧ (t.chan ch).detached = true ∧
        (t.chan ch).cell = some x' ∧ x'.breakpoints = [] ∧ x'.core.debugHalt = false ∧
        x'.core.haltRequest = false ∧ x'.mem = x.mem ∧ x'.core.pc = x.core.pc)) ∧
    (∀ x : Cell, s.runsOn ch x →
      (x.coreOn = true → x.core.haltRequest = true → x.core.slot = none → x.core.shadow = false →
        (x.core.afterEntry = false ∨ x.core.stepping = true) → x.core.lockup = false →
        exec (.debugHaltTaken ch) s = .next (s.becomes ch { x with
          core := { x.core with haltRequest := false, debugHalt := true, stepping := false } })) ∧
      ((x.core.haltRequest = false ∨ x.core.slot.isSome = true ∨ x.core.shadow = true ∨
          (x.core.afterEntry = true ∧ x.core.stepping = false)) →
        exec (.debugHaltTaken ch) s = .next (s.becomes ch x)) ∧
      (∀ v : VInstr, x.executes = true → x.core.slot = none → x.core.shadow = false →
        x.interruptDue = false → x.core.resumeAt ≠ some x.core.pc → x.core.pc ∈ x.breakpoints →
        exec (.breakpointHalt ch v) s = .next (s.becomes ch { x with
          core := { x.core with haltRequest := false, debugHalt := true, stepping := false } })) ∧
      (∀ v : VInstr, x.breakpoints = [] → exec (.breakpointHalt ch v) s = .next (s.becomes ch x)))

/-- R245, R260, R261, R262, R263, R309, R400: selecting the panel wakes it from none and lets it sleep again, and moves the service stream
between channels; the wait ends with a black panel; a whole sherd of the selected channel is sent as column, page and memory
packets and a seal ends its frame, the first full one switching the display on; a tearing-effect edge releases a sealed frame.
It rests on the model's choices of log entries 34, 111 and 112. -/
def Obligations.PanelIsServed : Prop :=
  ∀ (s : State) (tag n : Nat),
    let p := s.hub.panel
    let c := s.chan n
    let u := s.takeCommand
    (s.manages = true → s.offers n = true → n ≠ 0xFFFF → p.selected = none → ∃ t l,
      exec (.svcSelect tag n) s = .next t ∧ t.hub.panel.selected = some n ∧ t.hub.panel.awake = true ∧
      t.hub.panel.waiting = true ∧ t.hub.panel.starting = true ∧ t.hub.sent = u.hub.sent ++ [.panel [0x11#8]] ++ l ∧
      (t.chan n).svc.held = [] ∧ (∀ x, c.cell = some x → ∃ x', (t.chan n).cell = some x' ∧
        x'.picture.service = true ∧ x'.audio.service = true ∧ x'.core = x.core ∧ x'.mem = x.mem) ∧
      ∀ m, m ≠ n → t.chan m = s.chan m) ∧
    (s.manages = true → p.selected = some n → ∃ t l, exec (.svcSelect tag 0xFFFF) s = .next t ∧
      t.hub.panel.selected = none ∧ t.hub.panel.awake = false ∧ t.hub.panel.on = false ∧
      t.hub.sent = u.hub.sent ++ [.panel [0x28#8], .panel [0x10#8]] ++ l ∧ (t.chan n).svc.held = [] ∧
      (∀ x, c.cell = some x → ∃ x', (t.chan n).cell = some x' ∧ x'.picture.service = false ∧ x'.core = x.core) ∧
      ∀ m, m ≠ n → t.chan m = s.chan m) ∧
    (s.manages = true → s.offers n = true → n ≠ 0xFFFF → p.selected = some n →
      exec (.svcSelect tag n) s = .next (u.respond 5 0 tag 0 0 0)) ∧
    (p.waiting = true → 0 < s.device.panelW → 0 < s.device.panelH → ∃ t l, exec .svcWakeWaitEnd s = .next t ∧
      t.hub.panel = { p with waiting := false } ∧ t.chans = s.chans ∧ t.hub.sent = s.hub.sent ++
        [.panel ([0x2A#8, 0#8, 0#8] ++ beBytes 2 (s.device.panelW - 1)),
          .panel ([0x2B#8, 0#8, 0#8] ++ beBytes 2 (s.device.panelH - 1))] ++ l) ∧
    (p.waiting = false → exec .svcWakeWaitEnd s = .next s) ∧
    (p.selected = none ∨ p.waiting = true → exec .servicePush s = .next s ∧ exec .tearingEffectEdge s = .next s) ∧
    (∀ (h : Held) (rest : List Held), p.selected = some n → c.svc.held = h :: rest → p.waiting = false →
      h.size ≤ h.moved → (s.device.teEn = false ∨ p.pushing = true) →
      let kept (t : State) : Prop := (∀ m, m ≠ n → t.chan m = s.chan m) ∧ (t.chan n).svc = { c.svc with held := rest } ∧
        (t.chan n).cell = c.cell ∧ t.hub.panel.selected = some n ∧ t.hub.panel.area = s.areaOf n
      (h.isSeal = false → ∃ t, exec .servicePush s = .next t ∧ kept t ∧ t.hub.panel.pushing = p.pushing ∧
        t.hub.sent = s.hub.sent ++ (s.sherdPackets (s.areaOf n) h.bytes).map Sent.panel) ∧
      (h.isSeal = true → ∃ t, exec .servicePush s = .next t ∧ kept t ∧ t.hub.panel.pushing = false ∧
        (p.starting = true → (h.bytes.getD 3 0#8).getLsbD 0 = true → p.startFrame ≠ some h.frame →
          t.hub.panel.on = true ∧ t.hub.panel.starting = false ∧ t.hub.sent = s.hub.sent ++ [.panel [0x29#8]]) ∧
        (p.starting = false ∨ (h.bytes.getD 3 0#8).getLsbD 0 = false ∨ p.startFrame = some h.frame → t.hub.panel.on = p.on ∧ t.hub.sent = s.hub.sent))) ∧
    (∀ h rest, p.selected = some n → c.svc.held = h :: rest → h.moved < h.size → exec .servicePush s = .next s) ∧
    (∀ h : Held, p.selected = some n → s.device.teEn = true → p.waiting = false → h ∈ c.svc.held → h.isSeal = true →
      h.size ≤ h.moved →
      exec .tearingEffectEdge s = .next { s with hub := { s.hub with panel := { p with pushing := true } } }) ∧
    (s.device.teEn = false → exec .tearingEffectEdge s = .next s)

/-! ### The safety net -/

/-- R133, R409, R410, R418, R419, R420, R430, R431, R433, R503: a fault in a cell that hosts a protected channel moves it to the
reserve chosen while the cell still counts as hosting, or to SAFE with none; in a drain it is noted, in a cast the cast restarts,
and with the net off a drain begins; an error in the slot or the log turns the net off; a pool cell passes to the kiln.
It rests on the model's choices of log entries 82, 84 and 85. -/
def Obligations.FaultsAreCaught : Prop :=
  ∀ (s : State) (ch d n block : Nat), s.populated d = true → n < 88 →
    let c := s.chan ch
    let role (t : State) (p : Nat × Nat) : CellRole := ((t.die p.1).cell p.2).role
    let event (cause blk : Nat) (i : Instr) : Prop := (i = .lockstepMismatch d n block false ∧ cause = 1 ∧ blk = block) ∨
      (i = .residueMismatch d n false ∧ cause = 3 ∧ blk = 9)
    let lastKind (t : State) : Option (Nat × Nat) := t.hub.catchLog.getLast?.map fun r => (r.kind, r.cause)
    (∀ cause blk i, event cause blk i →
      (role s (d, n) = .hosting ch → c.place = some (d, n) → c.draining = false → c.netOff = [] →
        c.state ≠ .casting → c.state ≠ .testing → c.checkpoint.isSome = true →
        (∀ new, s.catchCell d (s.pinless ch) = some new → ∃ t, exec i s = .next t ∧ (t.chan ch).epoch = c.epoch + 1 ∧
          (t.chan ch).state = (if c.state = .running then .catching else c.state) ∧ (t.chan ch).place = some new ∧
          (t.chan ch).step = .loading ∧ (∀ x, (t.chan ch).cell = some x → x.runs = false) ∧
          role t new = .hosting ch ∧ role t (d, n) = .testing ∧ (t.chan ch).pads = c.pads ∧
          (c.step = .none → (t.chan ch).faultTime = c.now ∧ (t.chan ch).faultCause = cause ∧
            (t.chan ch).faultBlock = blk ∧ (t.chan ch).oldPlace = (d, n)) ∧ ∀ m, m ≠ ch → t.chan m = s.chan m) ∧
        (s.catchCell d (s.pinless ch) = none → ∃ t, exec i s = .next t ∧ (t.chan ch).state = .safe ∧
          (t.chan ch).epoch = c.epoch + 1 ∧ (t.chan ch).cell = none ∧ (t.chan ch).place = none ∧
          (t.chan ch).pads = s.stopPads ch ∧ role t (d, n) = .testing ∧ lastKind t = some (5, 0x20) ∧
          (∀ e ∈ t.hub.keys.escrow, e.1 ≠ ch) ∧ ∀ m, m ≠ ch → t.chan m = s.chan m)) ∧
      (role s (d, n) = .hosting ch → c.place.isSome = true → c.draining = true → ∃ t, exec i s = .next t ∧
        t.chan ch = { c with drainFault := true } ∧ lastKind t = some (8, cause) ∧ t.dies = s.dies) ∧
      (∀ p, role s (d, n) = .hosting ch → c.place = some (d, n) → c.draining = false → c.state = .casting →
        s.castCell (if s.pinless ch then 0 else (s.card ch).elim 0 (·.die)) (some (d, n)) = some p → ∃ t,
        exec i s = .next t ∧ t.chan ch = { c with place := some p } ∧ role t p = .hosting ch ∧
        role t (d, n) = .testing ∧ lastKind t = some (7, cause)) ∧
      (role s (d, n) = .hosting ch → c.place.isSome = true → c.draining = false → c.state ≠ .casting →
        c.state ≠ .testing → c.netOff ≠ [] → ∃ t, exec i s = .next t ∧ (t.chan ch).draining = true ∧
        (t.chan ch).epoch = c.epoch + 1 ∧ t.dies = s.dies ∧
        lastKind t = some (6, if c.netIs .debug then 0x13 else 0x14)) ∧
      (role s (d, n) = .pool → ∃ t, exec i s = .next t ∧ role t (d, n) = .testing ∧ t.chans = s.chans) ∧
      (role s (d, n) = .retired ∨ role s (d, n) = .testing → exec i s = .next s)) ∧
    (∀ addr : Nat, role s (d, n) = .hosting ch → ∃ t, exec (.uncorrectableError d n 1 addr false) s = .next t ∧
      ((t.die d).cell n).uncorrectable = ((s.die d).cell n).uncorrectable + 1 ∧ role t (d, n) = .hosting ch ∧
      (c.protected = true → (t.chan ch).netIs .slotError = true ∧ (t.chan ch).state = c.state ∧
        (t.chan ch).epoch = c.epoch) ∧ (c.protected = false → t.chans = s.chans)) ∧
    (∀ addr : Nat, role s (d, n) = .pool → ∃ t, exec (.uncorrectableError d n 0 addr false) s = .next t ∧
      ((t.die d).cell n).uncorrectable = ((s.die d).cell n).uncorrectable + 1 ∧ role t (d, n) = .testing)

/-- R345, R414, R420, R422, R424, R426, R428, R429, R437, R445: the steps of a catch follow one another until the channel goes live at
its due time; a failing ringmaster hands over and every catch starts again; a low margin makes a planned catch fall due, which
moves the channel at a frame boundary; the pads' latches catch edges only during a pause.
It rests on the model's choices of log entries 82, 86 and 91. -/
def Obligations.CatchesRunTheirSteps : Prop :=
  ∀ (s : State) (ch : Nat),
    let c := s.chan ch
    let role (t : State) (p : Nat × Nat) : CellRole := ((t.die p.1).cell p.2).role
    (c.step = .loading → exec (.catchReserveLoaded ch) s = .next (s.setChan { c with
      step := .replay, checkpoint := c.snapshot.or c.checkpoint
      log := if c.snapshot.isSome then c.log.drop c.logOld else c.log, logOld := 0, snapshot := none })) ∧
    (c.step ≠ .loading → exec (.catchReserveLoaded ch) s = .next s) ∧
    (∀ x : Cell, c.step = .replay → c.cell = some x → exec (.faultPointReached ch) s = .next (s.setChan { c with
      step := .chase, cell := some { x with
        runs := true, dry := !x.nap.napping, outq := []
        picture := { x.picture with
          held := true, unguarded := x.picture.unguarded || !x.guardsDone } } })) ∧
    (c.step ≠ .replay → exec (.faultPointReached ch) s = .next s) ∧
    (∀ (elapsed : Nat) (levels : BitVec 16),
      (c.step ≠ .chase → exec (.goingLive ch elapsed levels) s = .next s) ∧
      (∀ (x : Cell) (p : Nat × Nat), c.step = .chase → c.cell = some x → c.place = some p →
        (x.nap.napping = false → x.beam.ctime ≠ c.faultTime + elapsed →
          exec (.goingLive ch elapsed levels) s = .next s) ∧
        (x.outq = [] → (x.nap.napping = true ∨ x.beam.ctime = c.faultTime + elapsed) → ∃ t x',
          exec (.goingLive ch elapsed levels) s = .next t ∧ (t.chan ch).step = .none ∧
          (t.chan ch).state = (if c.state = .catching then .running else c.state) ∧ (t.chan ch).epoch = c.epoch ∧
          (t.chan ch).snapDue = true ∧ (t.chan ch).catches = c.catches + 1 ∧ (t.chan ch).place = c.place ∧
          t.hub.catchCount = s.hub.catchCount + 1 ∧ (t.chan ch).cell = some x' ∧ x'.dry = false ∧
          x'.core = x.core ∧ x'.mem = x.mem ∧ x'.beam = x.beam ∧ x'.pins.delivered = x.pins.delivered ∧
          t.dies = s.dies ∧ (t.hub.catchLog.getLast?.map fun r => (r.kind, r.cause, r.ctime)) =
            some (1, c.faultCause, c.faultTime)))) ∧
    (1 ≤ s.hub.phase → s.hub.phase ≤ 6 → s.hub.standbyLost = false → ∃ t, exec .ringmasterFailover s = .next t ∧
      t.hub.active = 3 - s.hub.active ∧ t.hub.standbyLost = true ∧ t.dies = s.dies ∧ t.hub.keys = s.hub.keys ∧
      (c.step = .none → t.chan ch = c) ∧ (c.step ≠ .none → (t.chan ch).step = .loading ∧
        (t.chan ch).place = c.place ∧ ∀ x, (t.chan ch).cell = some x → x.runs = false)) ∧
    (1 ≤ s.hub.phase → s.hub.phase ≤ 6 → s.hub.standbyLost = true → ∃ t, exec .ringmasterFailover s = .next t ∧
      t.hub.phase = 15 ∧ t.hub.failCause = 3) ∧
    ((s.hub.phase = 0 ∨ 6 < s.hub.phase) → exec .ringmasterFailover s = .next s) ∧
    (∀ d n margin trend : Nat, s.populated d = true → n < 88 → role s (d, n) = .hosting ch → trend < 128 → ∃ t,
      exec (.agingMarginLow d n margin trend) s = .next t ∧ ((t.die d).cell n).margin = margin ∧
      ((t.die d).cell n).trend = trend ∧ role t (d, n) = .hosting ch ∧
      (margin < 50 → t.chan ch = { c with planned := some 4 }) ∧ (50 ≤ margin → t.chans = s.chans)) ∧
    (∀ (cause : Nat) (old new : Nat × Nat) (x : Cell) (rising falling levels : BitVec 16), c.planned = some cause → c.place = some old → c.cell = some x →
      c.mayPause = true → role s old = .hosting ch → s.catchCell old.1 (cause == 4 && s.pinless ch) = some new → 1 ≤ old.1 →
      ∃ t x', exec (.plannedCatchPause ⟨ch, rising, falling, levels⟩) s = .next t ∧ (t.chan ch).place = some new ∧
        (t.chan ch).planned = none ∧
        (t.chan ch).epoch = c.epoch + 1 ∧ (t.chan ch).state = c.state ∧ (t.chan ch).catches = c.catches + 1 ∧
        (t.chan ch).cell = some x' ∧ x'.core = x.core ∧ x'.mem = x.mem ∧ x'.beam = x.beam ∧
        role t new = .hosting ch ∧ (cause = 4 → role t old = .retired) ∧ (cause ≠ 4 → role t old = .testing) ∧
        (t.hub.catchLog.getLast?.map fun r => (r.kind, r.cause)) = some (2, cause)) ∧
    (∀ rising falling levels : BitVec 16, c.planned = none ∨ c.mayPause = false →
      exec (.plannedCatchPause ⟨ch, rising, falling, levels⟩) s = .next s) ∧
    (∀ (cp : Nat) (x : Cell), cp < 16 → c.cell = some x → x.pins.owned.getLsbD cp = true → c.draining = false →
      (c.step ≠ .none ∨ c.state = .testing →
        exec (.pinPauseLatch ch cp true) s = .next (s.setChan { c with
          rising := c.rising ||| BitVec.ofNat 16 (2 ^ cp) }) ∧
        exec (.pinPauseLatch ch cp false) s = .next (s.setChan { c with
          falling := c.falling ||| BitVec.ofNat 16 (2 ^ cp) })) ∧
      (c.step = .none → c.state ≠ .testing → ∀ r, exec (.pinPauseLatch ch cp r) s = .next s))

/-- R133, R411, R412, R413, R417, R418, R456: a snapshot is taken at a frame boundary that is due, or at the start of a line when it is forced, and
changes nothing of the cell; its slots go into escrow; the copy makes it the checkpoint and frees the older log; an
uncorrectable error in the copy or in a scrub turns the net off.
It rests on the model's choices of log entries 82, 83, 88 and 89. -/
def Obligations.CheckpointsAreTaken : Prop :=
  ∀ (s : State) (ch : Nat),
    let c := s.chan ch
    let snapped (x : Cell) (t : State) : Prop :=
      (t.chan ch).cell = some x ∧ (t.chan ch).snapshot = some x.stateRecord ∧ (t.chan ch).checkpoint = c.checkpoint ∧
      (t.chan ch).sinceSnap = 0 ∧ (t.chan ch).snapDue = false ∧ (t.chan ch).forced = false ∧
      (t.chan ch).state = c.state ∧ (t.chan ch).epoch = c.epoch ∧ (t.chan ch).lastU = c.u ∧
      (ch, x.slots) ∈ t.hub.keys.escrow ∧ t.dies = s.dies ∧ (∀ m, m ≠ ch → t.chan m = s.chan m) ∧
      (c.logFull = false → c.detached = false → (t.chan ch).log = c.log ∧ (t.chan ch).logOld = c.log.length) ∧
      (c.logFull = true ∨ c.detached = true → (t.chan ch).log = [])
    (∀ x : Cell, c.cell = some x → c.maySnap = true → x.beam.boundary = true → x.beam.entered = false →
      (c.snapDue = true ∨ c.detached = true ∨ c.interval ≤ c.sinceSnap) →
      ∃ t, exec (.checkpointSnapshot ch) s = .next t ∧ snapped x t) ∧
    ((c.maySnap = false ∨ c.cell = none ∨ (∀ x, c.cell = some x → x.beam.boundary = false ∨ x.beam.entered = true) ∨
        (c.snapDue = false ∧ c.detached = false ∧ c.sinceSnap < c.interval)) →
      exec (.checkpointSnapshot ch) s = .next s) ∧
    (∀ x : Cell, c.cell = some x → c.maySnap = true → c.forced = true → x.beam.dot = 0 →
      ∃ t, exec (.forcedCheckpoint ch) s = .next t ∧ snapped x t) ∧
    (c.forced = false ∨ c.maySnap = false → exec (.forcedCheckpoint ch) s = .next s) ∧
    (∀ r : Cell, c.snapshot = some r → c.netEnds = [] → (c.log.drop c.logOld).foldr (fun x n => x.size + n) 0 < 40960 →
      exec (.checkpointCopyComplete ch false) s = .next (s.setChan { c with
        checkpoint := some r, snapshot := none, log := c.log.drop c.logOld, logOld := 0 })) ∧
    (∀ r : Cell, c.snapshot = some r → ∃ t, exec (.checkpointCopyComplete ch true) s = .next t ∧
      (t.chan ch).checkpoint = none ∧ (t.chan ch).snapshot = none ∧ (t.chan ch).netIs .slotError = true ∧
      (t.chan ch).state = c.state ∧ (t.chan ch).epoch = c.epoch) ∧
    (c.snapshot = none → ∀ bad, exec (.checkpointCopyComplete ch bad) s = .next s) ∧
    (exec (.slotScrub ch false) s = .next s) ∧
    (c.protected = true → ∃ t, exec (.slotScrub ch true) s = .next t ∧ (t.chan ch).netIs .slotError = true ∧
      (t.chan ch).checkpoint = c.checkpoint ∧ (t.chan ch).state = c.state ∧ (t.chan ch).epoch = c.epoch) ∧
    (c.protected = false → exec (.slotScrub ch true) s = .next s)

/-! ### The kiln -/

/-- R430, R438, R439, R442, R443, R445, R446, R448, R449, R450, R451, R452: the kiln takes an idle unit when no test waits on its die, tests it in
isolation and returns it to the pool or retires it, with a record; a cell that hosts a channel is rotated or tested in place; a
failed standby is lost, and another failed hub block holds the device; repair records are written in order.
It rests on the model's choices of log entries 3, 81 and 90 to 92. -/
def Obligations.KilnTestsUnits : Prop :=
  ∀ (s : State) (d n : Nat), s.populated d = true → n < 88 →
    let unit (t : State) : CellUnit := (t.die d).cell n
    let u := unit s
    let last (t : State) : Option (Nat × Nat × Nat × Nat) :=
      t.hub.kilnLog.getLast?.map fun k => (k.die, k.unit, k.scope, k.outcome)
    (s.hub.ready = true →
      (u.role = .pool → s.dieBusy d = false → ∃ t, exec (.kilnDailyTest (.cell d n)) s = .next t ∧
        unit t = { u with
          role := .testing, scope := 2, inTest := false, reserve := (s.die d).reserves.contains n } ∧
        t.chans = s.chans) ∧
      (u.role = .pool → s.dieBusy d = true → exec (.kilnDailyTest (.cell d n)) s = .next s) ∧
      (∀ ch, u.role = .hosting ch → s.testedReserves d = [] →
        exec (.kilnDailyTest (.cell d n)) s = .next (s.setChan { s.chan ch with testDue := true })) ∧
      (∀ ch, u.role = .hosting ch → s.testedReserves d ≠ [] → (s.chan ch).planned = none →
        exec (.kilnDailyTest (.cell d n)) s = .next (s.setChan { s.chan ch with planned := some 5 })) ∧
      (∀ b, s.hubTestable b = true → (∀ x ∈ s.hub.hubTests, x.1 ≠ b) →
        exec (.kilnDailyTest (.hub b)) s = .next
          { s with hub := { s.hub with hubTests := s.hub.hubTests ++ [(b, false)] } })) ∧
    (s.hub.ready = false → ∀ k, exec (.kilnDailyTest k) s = .next s) ∧
    (u.role = .testing → (s.die d).cells.any (·.inTest) = false → s.copyingOut (d, n) = false → ∃ t,
      exec (.blockScopeTest (.cell d n)) s = .next t ∧ unit t = { u with inTest := true } ∧ t.chans = s.chans ∧
      t.hub = s.hub) ∧
    (u.role ≠ .testing → exec (.blockScopeTest (.cell d n)) s = .next s) ∧
    (∀ r : TestResult, u.role = .testing → u.inTest = true →
      (r.outcome = .pass → ∃ t, exec (.kilnTestComplete (.cell d n) r) s = .next t ∧ (unit t).role = .pool ∧
        (unit t).tested = true ∧ (unit t).inTest = false ∧ last t = some (d, n, u.scope, 0) ∧ t.chans = s.chans ∧
        t.hub.repairs = s.hub.repairs) ∧
      (r.outcome = .repaired → ∃ t, exec (.kilnTestComplete (.cell d n) r) s = .next t ∧ (unit t).role = .pool ∧
        (unit t).tested = true ∧ last t = some (d, n, u.scope, 1) ∧
        t.hub.repairs.getLast?.map (fun x => (x.type, x.die, x.unit, x.memory, x.spare)) =
          some (1, d, n, r.memory, r.spare)) ∧
      (∀ code, (r.outcome = .memory ∧ code = 2) ∨ (r.outcome = .logic ∧ code = 3) → ∃ t,
        exec (.kilnTestComplete (.cell d n) r) s = .next t ∧ (unit t).role = .retired ∧
        (t.die d).consumed = (s.die d).consumed + 1 ∧ last t = some (d, n, u.scope, code) ∧
        t.hub.repairs.getLast?.map (fun x => (x.type, x.die, x.unit)) = some (2, d, n))) ∧
    (∀ (r : TestResult) (b : Nat), (b, true) ∈ s.hub.hubTests →
      (b ≠ 1 → b ≠ 2 → r.outcome = .logic → ∃ t, exec (.kilnTestComplete (.hub b) r) s = .next t ∧
        t.hub.phase = 15 ∧ t.hub.failCause = 3) ∧
      (b ≠ 1 → b ≠ 2 → r.outcome = .memory → ∃ t, exec (.kilnTestComplete (.hub b) r) s = .next t ∧
        t.hub.phase = 15 ∧ t.hub.failCause = 4) ∧
      (b = 1 ∨ b = 2 → r.outcome = .logic ∨ r.outcome = .memory → ∃ t,
        exec (.kilnTestComplete (.hub b) r) s = .next t ∧ t.hub.standbyLost = true ∧ t.hub.phase = s.hub.phase ∧
        t.hub.active = s.hub.active) ∧
      (b = 1 ∨ b = 2 → r.outcome = .pass → ∃ t, exec (.kilnTestComplete (.hub b) r) s = .next t ∧
        t.hub.active = b ∧ last t = some (0, b, 2, 0))) ∧
    (∀ ch, let c := s.chan ch
      (∀ x : Cell, c.testDue = true → c.mayPause = true → c.cell = some x → ∃ t,
        exec (.cellScopeTest ch) s = .next t ∧ (t.chan ch).state = .testing ∧ (t.chan ch).testDue = false ∧
        (t.chan ch).cell = some { x with runs := false } ∧ (t.chan ch).checkpoint = some x.stateRecord ∧
        (t.chan ch).log = [] ∧ (t.chan ch).epoch = c.epoch ∧ (ch, x.slots) ∈ t.hub.keys.escrow ∧ t.dies = s.dies) ∧
      (c.testDue = false ∨ c.mayPause = false → exec (.cellScopeTest ch) s = .next s) ∧
      (∀ (r : TestResult) (levels : BitVec 16) (x : Cell), c.place = some (d, n) → c.state = .testing →
        c.draining = false → c.cell = some x → u.role = .hosting ch →
        (r.outcome = .pass ∨ r.outcome = .repaired → ∃ t x', exec (.cellScopeTestEnd ch r levels) s = .next t ∧
          (t.chan ch).state = (if x.core.lockup then .halted else .running) ∧ (t.chan ch).cell = some x' ∧
          x'.runs = true ∧ x'.core = x.core ∧ x'.mem = x.mem ∧ x'.beam = x.beam ∧ (t.chan ch).epoch = c.epoch ∧
          (t.chan ch).place = some (d, n) ∧ (unit t).role = .hosting ch ∧ (unit t).tested = true ∧
          last t = some (d, n, 3, if r.outcome = .pass then 0 else 1)) ∧
        (∀ new, r.outcome = .logic ∨ r.outcome = .memory → s.catchCell d (s.pinless ch) = some new → ∃ t x',
          exec (.cellScopeTestEnd ch r levels) s = .next t ∧ (t.chan ch).place = some new ∧
          (t.chan ch).epoch = c.epoch + 1 ∧ (t.chan ch).cell = some x' ∧ x'.runs = true ∧ x'.core = x.core ∧
          x'.mem = x.mem ∧ (unit t).role = .retired ∧ ((t.die new.1).cell new.2).role = .hosting ch ∧
          (t.hub.catchLog.getLast?.map fun k => (k.kind, k.cause)) = some (2, 4)) ∧
        (r.outcome = .logic ∨ r.outcome = .memory → s.catchCell d (s.pinless ch) = none → ∃ t,
          exec (.cellScopeTestEnd ch r levels) s = .next t ∧ (t.chan ch).state = .safe ∧ (t.chan ch).cell = none ∧
          (unit t).role = .retired))) ∧
    (∀ (r : RepairRecord) (rest : List RepairRecord), s.hub.repairs = r :: rest →
      (s.hub.repairArea.length < 0x8000 → ∃ t, exec (.repairRecordWrite true) s = .next t ∧ t.hub.repairs = rest ∧
        t.hub.repairArea = s.hub.repairArea ++ [r] ∧ t.hub.kilnLog = s.hub.kilnLog ∧
        t.hub.sent = s.hub.sent ++ [.flash (0x3F00000 + 32 * s.hub.repairArea.length) r.bytes]) ∧
      (∃ t, exec (.repairRecordWrite false) s = .next t ∧ t.hub.repairs = rest ∧ last t = some (r.die, r.unit, 2, 4) ∧
        t.hub.repairArea = s.hub.repairArea ∧ t.hub.sent = s.hub.sent)) ∧
    (s.hub.repairs = [] → ∀ ok, exec (.repairRecordWrite ok) s = .next s)

/-! ### The whole machine -/

/-- A step takes the command that waits longest and carries it out with the rest of the queue (assumption 4: an empty queue
idles). -/
def Obligations.StepRunsTheFront : Prop :=
  (∀ (s : State) (c : Instr), step { s with pending := c :: s.pending } = exec c s) ∧
  (∀ s : State, s.pending = [] → step s = .next s)

/-- R9, R32, R36, R48, R379, R408, R480: the state right after reset: phase 0h with READY low and the link down, every channel UNCAST with
no cell, every die's 88 cells in the pool and untested, and the hub in a legal state.
It rests on the model's choices of log entries 1, 3 and 9. -/
def Obligations.ResetLeaves : Prop :=
  State.reset.hub.Legal ∧ State.reset.Shaped ∧ State.reset.pending = [] ∧ State.reset.hub.phase = 0 ∧
  State.reset.hub.ready = false ∧ State.reset.hub.linkUp = false ∧ State.reset.hub.failCause = 0 ∧
  State.reset.hub.alertMask = 0x78#8 ∧ State.reset.hub.mcq = .blank ∧ State.reset.hub.mrq = .blank ∧
  (∀ ch, (State.reset.chan ch).state = .uncast ∧ (State.reset.chan ch).epoch = 0 ∧
    (State.reset.chan ch).cell = none ∧ (State.reset.chan ch).queues = List.replicate 16 .blank) ∧
  (∀ d n, 1 ≤ d → d ≤ 7 → n < 88 → ((State.reset.die d).cell n).role = .pool ∧
    ((State.reset.die d).cell n).tested = false)

/-- Every command of the table has an outcome, and none of them changes the commands that wait. -/
def Obligations.CommandsKeepTheQueue : Prop :=
  ∀ (i : Instr) (s : State), ∃ t, exec i s = .next t ∧ t.pending = s.pending

/-- R31, R32, R34, R36, R445, R471: no step leaves the hub's legal states: PHASE is one of the table's and READY mirrors phase 6h, the
link is up only past the security phase with PERST# high, a hub without power is at phase 0h, and one ringmaster is active. -/
def Obligations.HubStaysLegal : Prop :=
  ∀ s t : State, s.hub.Legal → step s = .next t → t.hub.Legal

/-- R41, R42, R453, R468: while the key store holds its signing key, no command but the loss of all power changes that key or lowers
the rollback floor. -/
def Obligations.FloorIsNeverLowered : Prop :=
  ∀ (i : Instr) (s t : State), i ≠ .vbatAndMainPowerRemoved → s.hub.keys.signingKey.isSome = true → exec i s = .next t →
    t.hub.keys.signingKey = s.hub.keys.signingKey ∧ s.hub.keys.floor ≤ t.hub.keys.floor

/-- R11, R12: an event or an instruction of one channel's cell changes no other channel, no die, no start-up phase, no pin of the
package and no key. -/
def Obligations.ChannelsAreIsolated : Prop :=
  ∀ (i : Instr) (s t : State) (ch : Nat), cellOf i = some ch → exec i s = .next t →
    (∀ n, n ≠ ch → t.chan n = s.chan n) ∧ t.dies = s.dies ∧ t.hub.phase = s.hub.phase ∧ t.hub.linkUp = s.hub.linkUp ∧
    t.hub.ready = s.hub.ready ∧ t.hub.keys = s.hub.keys ∧ t.hub.image = s.hub.image

/-- R17, R76, R350, R377, R389, R454: every step keeps the form of the state: sixteen queues on every channel, the memories of every
cell in their canonical form, and its timers, lines, streams, engines and slots at their numbers. -/
def Obligations.ShapeIsKept : Prop :=
  ∀ s t : State, s.Shaped → step s = .next t → t.Shaped
end

