-- ==== Sys2Proof/Laws/Bytes.lean ====
section
/-! SUPPORT. Sparse bytes: a read after a write, and that every operation keeps the canonical form. -/

namespace Sys2Proof

/-! ### A read after a write -/

theorem Bytes.rd_of_wfFrom (m : Bytes) (l a : Nat) (h : Bytes.wfFrom (some l) m = true) (ha : a ≤ l) :
    m.rd a = 0#8 := by
  induction m generalizing l with
  | nil => rfl
  | cons p t ih =>
    obtain ⟨k, w⟩ := p
    simp only [Bytes.wfFrom, Bool.and_eq_true, decide_eq_true_eq] at h
    have hk : a ≠ k := by omega
    simp only [Bytes.rd, hk, if_false]
    exact ih k h.2 (by omega)

/-- A write leaves every other address as it was, in any list. -/
theorem Bytes.rd_wr_other (m : Bytes) (a b : Nat) (v : Byte) (h : b ≠ a) : (m.wr a v).rd b = m.rd b := by
  induction m with
  | nil => unfold Bytes.wr; split <;> simp [Bytes.rd, h]
  | cons p t ih =>
    obtain ⟨k, w⟩ := p
    unfold Bytes.wr
    split
    · split <;> simp [Bytes.rd, h]
    · split
      · rename_i _ hk
        subst hk
        split <;> simp [Bytes.rd, h]
      · simp [Bytes.rd, ih]

theorem Bytes.rd_wr_from (m : Bytes) (lo : Option Nat) (a : Nat) (v : Byte) (h : Bytes.wfFrom lo m = true) :
    (m.wr a v).rd a = v := by
  induction m generalizing lo with
  | nil => unfold Bytes.wr; split <;> simp_all [Bytes.rd]
  | cons p t ih =>
    obtain ⟨k, w⟩ := p
    simp only [Bytes.wfFrom, Bool.and_eq_true] at h
    unfold Bytes.wr
    split
    · rename_i hlt
      split
      · rename_i hv
        have hk : a ≠ k := by omega
        simp only [Bytes.rd, hk, if_false, hv]
        exact Bytes.rd_of_wfFrom t k a h.2 (by omega)
      · simp [Bytes.rd]
    · split
      · rename_i _ hk
        split
        · rename_i hv
          rw [hv]
          exact Bytes.rd_of_wfFrom t k a h.2 (by omega)
        · simp [Bytes.rd, hk]
      · rename_i _ hk
        simp only [Bytes.rd, hk, if_false]
        exact ih (some k) h.2

/-- A read of the byte written gives the value written. -/
theorem Bytes.rd_wr_same (m : Bytes) (a : Nat) (v : Byte) (h : m.wf = true) : (m.wr a v).rd a = v :=
  Bytes.rd_wr_from m none a v h

/-! ### The canonical form -/

theorem Bytes.wfFrom_wr (m : Bytes) (lo : Option Nat) (a : Nat) (v : Byte) (h : Bytes.wfFrom lo m = true)
    (ha : ∀ l, lo = some l → l < a) : Bytes.wfFrom lo (m.wr a v) = true := by
  induction m generalizing lo with
  | nil =>
    unfold Bytes.wr
    split
    · rfl
    · rename_i hv
      cases lo with
      | none => simp [Bytes.wfFrom, hv]
      | some l => simp [Bytes.wfFrom, hv, ha l rfl]
  | cons p t ih =>
    obtain ⟨k, w⟩ := p
    have h' := h
    simp only [Bytes.wfFrom, Bool.and_eq_true] at h
    unfold Bytes.wr
    split
    · rename_i hlt
      split
      · exact h'
      · rename_i hv
        cases lo with
        | none => simp [Bytes.wfFrom, hv, hlt, h.1.2, h.2]
        | some l => simp [Bytes.wfFrom, hv, hlt, h.1.2, h.2, ha l rfl]
    · split
      · rename_i _ hk
        split
        · have : ∀ (x : Bytes) (l : Nat), Bytes.wfFrom (some l) x = true → (∀ j, lo = some j → j < l) →
              Bytes.wfFrom lo x = true := by
            intro x l hx hl
            cases x with
            | nil => rfl
            | cons q u =>
              obtain ⟨i, z⟩ := q
              simp only [Bytes.wfFrom, Bool.and_eq_true, decide_eq_true_eq] at hx ⊢
              refine ⟨⟨?_, hx.1.2⟩, hx.2⟩
              cases lo with
              | none => rfl
              | some j =>
                have := hl j rfl
                simp
                omega
          exact this t k h.2 (by intro j hj; have := ha j hj; omega)
        · rename_i hv
          simp only [Bytes.wfFrom, Bool.and_eq_true]
          exact ⟨⟨h.1.1, by simpa using hv⟩, h.2⟩
      · rename_i h1 h2
        simp only [Bytes.wfFrom, Bool.and_eq_true]
        exact ⟨h.1, ih (some k) h.2 (by intro l hl; cases hl; omega)⟩

theorem Bytes.wr_wf (m : Bytes) (a : Nat) (v : Byte) (h : m.wf = true) : (m.wr a v).wf = true :=
  Bytes.wfFrom_wr m none a v h (by intro l hl; cases hl)

theorem Bytes.wrN_wf (n : Nat) (m : Bytes) (a v : Nat) (h : m.wf = true) : (m.wrN a n v).wf = true := by
  induction n generalizing m a v with
  | zero => exact h
  | succ n ih => exact ih _ _ _ (Bytes.wr_wf m a _ h)

theorem Bytes.put_wf (l : List Byte) (m : Bytes) (a : Nat) (h : m.wf = true) : (m.put a l).wf = true := by
  induction l generalizing m a with
  | nil => exact h
  | cons b t ih => exact ih _ _ (Bytes.wr_wf m a b h)

theorem copyBytesTo_wf (n : Nat) (src dst : Bytes) (a b : Nat) (h : dst.wf = true) :
    (copyBytesTo src a b n dst).wf = true := by
  induction n generalizing dst a b with
  | zero => exact h
  | succ n ih => exact ih _ _ _ (Bytes.wr_wf dst b _ h)

theorem Bytes.orb_wf (m : Bytes) (a : Nat) (v : Byte) (h : m.wf = true) : (m.orb a v).wf = true :=
  Bytes.wr_wf m a _ h

theorem Bytes.clr_wf (m : Bytes) (a : Nat) (v : Byte) (h : m.wf = true) : (m.clr a v).wf = true :=
  Bytes.wr_wf m a _ h

theorem Bytes.setBit_wf (m : Bytes) (a i : Nat) (b : Bool) (h : m.wf = true) : (m.setBit a i b).wf = true := by
  unfold Bytes.setBit
  split
  · exact Bytes.orb_wf m a _ h
  · exact Bytes.clr_wf m a _ h

theorem Bytes.count16_wf (m : Bytes) (a n : Nat) (h : m.wf = true) : (m.count16 a n).wf = true :=
  Bytes.wrN_wf 2 m a _ h

/-- A write of a value below FFFFh and its read back (R5). -/
theorem Bytes.rdN_wrN_2 (m : Bytes) (a v : Nat) (h : m.wf = true) (hv : v < 65536) :
    (m.wrN a 2 v).rdN a 2 = v := by
  have h1 : (m.wr a (BitVec.ofNat 8 v)).wf = true := Bytes.wr_wf m a _ h
  have e : a ≠ a + 1 := by omega
  simp only [Bytes.wrN, Bytes.rdN, Bytes.rd_wr_same _ _ _ h1, Bytes.rd_wr_other _ (a + 1) a _ e,
    Bytes.rd_wr_same _ _ _ h, BitVec.toNat_ofNat]
  omega

end Sys2Proof

namespace Sys2Proof.Machine

/-- Reset lists no byte anywhere: no channel has a cell. -/
theorem State.reset_chans : State.reset.chans = [] := rfl

end Sys2Proof.Machine
end

