-- ==== Sys2Proof/Laws/State.lean ====
section
/-! SUPPORT. What each update of the state leaves and changes: the hub, the channels, the dies, the queue of
commands, and a cell under an event. -/

namespace Sys2Proof.Machine

/-! ### The list of channels -/

theorem findChan_insert_same (l : List Chan) (c : Chan) : findChan (insertChan l c) c.n = some c := by
  induction l with
  | nil => simp [insertChan, findChan]
  | cons d t ih =>
    unfold insertChan
    split
    · simp [findChan]
    · split
      · simp [findChan]
      · rename_i h1 h2
        simp [findChan, Ne.symm h2, ih]

theorem findChan_insert_other (l : List Chan) (c : Chan) (n : Nat) (h : n ≠ c.n) :
    findChan (insertChan l c) n = findChan l n := by
  induction l with
  | nil => simp [insertChan, findChan, Ne.symm h]
  | cons d t ih =>
    unfold insertChan
    split
    · simp [findChan, Ne.symm h]
    · split
      · rename_i h1 h2
        simp [findChan, ← h2, Ne.symm h]
      · simp [findChan, ih]

theorem findChan_n (l : List Chan) (n : Nat) (c : Chan) (h : findChan l n = some c) : c.n = n := by
  induction l with
  | nil => simp [findChan] at h
  | cons d t ih =>
    unfold findChan at h
    split at h
    · rename_i hn
      cases h
      exact hn
    · exact ih h

/-- A channel is found under its own number. -/
@[simp] theorem State.chan_n (s : State) (n : Nat) : (s.chan n).n = n := by
  unfold State.chan
  cases h : findChan s.chans n with
  | none => rfl
  | some c => exact findChan_n _ _ _ h

/-! ### One update -/

section
variable (s : State) (c : Chan) (f : Hub → Hub) (g : Chan → Chan) (n m d : Nat) (k : Die → Die)

@[simp] theorem State.onHub_hub : (s.onHub f).hub = f s.hub := rfl
@[simp] theorem State.onHub_chans : (s.onHub f).chans = s.chans := rfl
@[simp] theorem State.onHub_dies : (s.onHub f).dies = s.dies := rfl
@[simp] theorem State.onHub_pending : (s.onHub f).pending = s.pending := rfl
@[simp] theorem State.onHub_chan : (s.onHub f).chan n = s.chan n := rfl

@[simp] theorem State.setChan_hub : (s.setChan c).hub = s.hub := rfl
@[simp] theorem State.setChan_dies : (s.setChan c).dies = s.dies := rfl
@[simp] theorem State.setChan_pending : (s.setChan c).pending = s.pending := rfl
@[simp] theorem State.setChan_chan_self : (s.setChan c).chan c.n = c := by
  simp [State.setChan, State.chan, findChan_insert_same]
theorem State.setChan_chan_other (h : n ≠ c.n) : (s.setChan c).chan n = s.chan n := by
  simp [State.setChan, State.chan, findChan_insert_other _ _ _ h]

@[simp] theorem State.onChan_hub : (s.onChan n g).hub = s.hub := rfl
@[simp] theorem State.onChan_dies : (s.onChan n g).dies = s.dies := rfl
@[simp] theorem State.onChan_pending : (s.onChan n g).pending = s.pending := rfl
@[simp] theorem State.onChan_chan_self : (s.onChan n g).chan n = { g (s.chan n) with n := n } :=
  State.setChan_chan_self s { g (s.chan n) with n := n }
theorem State.onChan_chan_other (h : m ≠ n) : (s.onChan n g).chan m = s.chan m :=
  State.setChan_chan_other s { g (s.chan n) with n := n } m h

@[simp] theorem State.onDie_hub : (s.onDie d k).hub = s.hub := rfl
@[simp] theorem State.onDie_chans : (s.onDie d k).chans = s.chans := rfl
@[simp] theorem State.onDie_pending : (s.onDie d k).pending = s.pending := rfl

@[simp] theorem State.send_chans (x : Sent) : (s.send x).chans = s.chans := rfl
@[simp] theorem State.send_dies (x : Sent) : (s.send x).dies = s.dies := rfl
@[simp] theorem State.send_pending (x : Sent) : (s.send x).pending = s.pending := rfl
@[simp] theorem State.send_sent (x : Sent) : (s.send x).hub.sent = s.hub.sent ++ [x] := rfl

end

/-! ### Events of a cell -/

/-- Only what the event makes of the channel's own cell counts. -/
theorem State.cellEvent_congr {s : State} {ch : Nat} {c : Cell} {f : Cell → Cell} {c' : Cell}
    (h : (s.chan ch).cell = some c) (hf : f c = c') : s.cellEvent ch f = s.cellEvent ch fun _ => c' := by
  simp [State.cellEvent, h, hf]

/-- A channel without a cell, or whose island does not run, takes no event of a cell. -/
theorem State.cellEvent_idle {s : State} {ch : Nat} (f : Cell → Cell)
    (h : (s.chan ch).cell.elim true (fun c => !c.runs) = true) : s.cellEvent ch f = s := by
  unfold State.cellEvent
  cases hc : (s.chan ch).cell with
  | none => rfl
  | some x => simp [hc] at h; simp [h]

end Sys2Proof.Machine
end

