-- ==== Sys2Proof/Laws/Core.lean ====
section
/-! SUPPORT. The Voleth core: what a register write leaves alone, and what an instruction does when nothing comes
before it. -/

namespace Sys2Proof.Machine

/-! ### Writes of registers -/

section
variable (k : Core) (f : Nat) (v : Byte) (x : Half) (w : Word) (u : FlagUpdate) (e : Ea)

@[simp] theorem Core.setReg_pc : (k.setReg f v).pc = k.pc := by unfold Core.setReg; split <;> rfl
@[simp] theorem Core.setReg_status : (k.setReg f v).status = k.status := by unfold Core.setReg; split <;> rfl
@[simp] theorem Core.setReg_slot : (k.setReg f v).slot = k.slot := by unfold Core.setReg; split <;> rfl
@[simp] theorem Core.setReg_busy : (k.setReg f v).busy = k.busy := by unfold Core.setReg; split <;> rfl
@[simp] theorem Core.setReg_lend : (k.setReg f v).lend = k.lend := by unfold Core.setReg; split <;> rfl
@[simp] theorem Core.setReg_cwp : (k.setReg f v).cwp = k.cwp := by unfold Core.setReg; split <;> rfl
@[simp] theorem Core.setReg_wres : (k.setReg f v).wres = k.wres := by unfold Core.setReg; split <;> rfl
@[simp] theorem Core.setReg_ssp : (k.setReg f v).ssp = k.ssp := by unfold Core.setReg; split <;> rfl
@[simp] theorem Core.setReg_usp : (k.setReg f v).usp = k.usp := by unfold Core.setReg; split <;> rfl


@[simp] theorem Core.setPair_pc : (k.setPair f x).pc = k.pc := by simp [Core.setPair]
@[simp] theorem Core.setPair_status : (k.setPair f x).status = k.status := by simp [Core.setPair]
@[simp] theorem Core.setPair_slot : (k.setPair f x).slot = k.slot := by simp [Core.setPair]
@[simp] theorem Core.setPair_busy : (k.setPair f x).busy = k.busy := by simp [Core.setPair]
@[simp] theorem Core.setPair_lend : (k.setPair f x).lend = k.lend := by simp [Core.setPair]
@[simp] theorem Core.setPair_cwp : (k.setPair f x).cwp = k.cwp := by simp [Core.setPair]
@[simp] theorem Core.setPair_wres : (k.setPair f x).wres = k.wres := by simp [Core.setPair]
@[simp] theorem Core.setPair_ssp : (k.setPair f x).ssp = k.ssp := by simp [Core.setPair]
@[simp] theorem Core.setPair_usp : (k.setPair f x).usp = k.usp := by simp [Core.setPair]


@[simp] theorem Core.setQuad_pc : (k.setQuad f w).pc = k.pc := by simp [Core.setQuad]
@[simp] theorem Core.setQuad_status : (k.setQuad f w).status = k.status := by simp [Core.setQuad]
@[simp] theorem Core.setQuad_slot : (k.setQuad f w).slot = k.slot := by simp [Core.setQuad]
@[simp] theorem Core.setQuad_busy : (k.setQuad f w).busy = k.busy := by simp [Core.setQuad]
@[simp] theorem Core.setQuad_lend : (k.setQuad f w).lend = k.lend := by simp [Core.setQuad]


@[simp] theorem Core.setFlags_pc : (k.setFlags u).pc = k.pc := rfl
@[simp] theorem Core.setFlags_slot : (k.setFlags u).slot = k.slot := rfl
@[simp] theorem Core.setFlags_busy : (k.setFlags u).busy = k.busy := rfl
@[simp] theorem Core.setFlags_lend : (k.setFlags u).lend = k.lend := rfl


@[simp] theorem Core.setSp_pc : (k.setSp x).pc = k.pc := by unfold Core.setSp; split <;> rfl
@[simp] theorem Core.setSp_slot : (k.setSp x).slot = k.slot := by unfold Core.setSp; split <;> rfl
@[simp] theorem Core.setSp_busy : (k.setSp x).busy = k.busy := by unfold Core.setSp; split <;> rfl
@[simp] theorem Core.setSp_lend : (k.setSp x).lend = k.lend := by unfold Core.setSp; split <;> rfl

@[simp] theorem Core.updateBase_pc : (k.updateBase e).pc = k.pc := by unfold Core.updateBase; split <;> simp
@[simp] theorem Core.updateBase_slot : (k.updateBase e).slot = k.slot := by unfold Core.updateBase; split <;> simp
@[simp] theorem Core.updateBase_busy : (k.updateBase e).busy = k.busy := by unfold Core.updateBase; split <;> simp
@[simp] theorem Core.updateBase_lend : (k.updateBase e).lend = k.lend := by unfold Core.updateBase; split <;> simp

end

/-! ### One instruction -/

theorem Cell.begun_refusalN (c : Cell) (kind : Access) (n : Nat) (a : Half) :
    c.begun.refusalN kind a n = c.refusalN kind a n := by
  induction n generalizing a with
  | zero => rfl
  | succ n ih =>
    unfold Cell.refusalN
    rw [ih, show c.begun.refusal kind a = c.refusal kind a from rfl]

theorem Cell.begun_fetchLen (c : Cell) (v : VInstr) : c.begun.core.fetchLen v = c.core.fetchLen v := rfl
theorem Cell.begun_illegal (c : Cell) (v : VInstr) : c.begun.core.illegal v = c.core.illegal v := rfl
theorem Cell.begun_badContext (c : Cell) (v : VInstr) : c.begun.core.badContext v = c.core.badContext v := rfl

/-- Nothing comes before a plain instruction, and it has its effect. -/
theorem Cell.runInstr_plain {c : Cell} {v : VInstr} {stop : Option Nat} (h : c.plain v) :
    c.runInstr v stop =
      match c.begun.effect v stop (c.core.pc + BitVec.ofNat 16 (c.core.fetchLen v)) with
      | .fault cf vec cycles _ =>
        ({ cf with core := { cf.core with busy := cf.core.busy + cycles } } : Cell).takeFault c.core.pc vec
      | .done d => c.begun.complete (c.core.pc + BitVec.ofNat 16 (c.core.fetchLen v)) d := by
  obtain ⟨⟨h1, h2, h3, h4, h5, h6, h7⟩, h8, h9, h10⟩ := h
  have hp : c.begun.paced = false := h4
  have ha : c.begun.attempt v stop = c.begun.effect v stop (c.core.pc + BitVec.ofNat 16 (c.core.fetchLen v)) := by
    unfold Cell.attempt
    have e : c.begun.core.pc = c.core.pc := rfl
    have u : ¬ (supervisorOnly v = true ∧ ¬ c.begun.core.supervisor = true) := by
      rintro ⟨x, y⟩
      exact y (h9 x)
    simp only [Cell.begun_refusalN, Cell.begun_fetchLen, Cell.begun_illegal, Cell.begun_badContext, e, h7, h8, h10,
      u, Bool.false_eq_true, if_false]
  unfold Cell.runInstr
  simp only [h1, h2, h3, not_true, Bool.false_eq_true, or_self, if_false]
  simp only [Cell.begin_, h4, Bool.false_eq_true, if_false]
  rw [show ({ c with core := { c.core with resumeAt := none, afterEntry := false, repaced := false } } : Cell) =
    c.begun from rfl, ha]
  cases c.begun.effect v stop (c.core.pc + BitVec.ofNat 16 (c.core.fetchLen v)) with
  | done d => simp only [false_and, if_false]; rfl
  | fault cf vec cycles charge => simp only [false_and, if_false]

/-- A plain instruction that falls through, with no loop that ends at it. -/
theorem Cell.runInstr_done {c c' : Cell} {v : VInstr} {stop : Option Nat} {shadow : Bool} {cycles charge : Nat}
    (h : c.plain v)
    (he : c.begun.effect v stop (c.core.pc + BitVec.ofNat 16 (c.core.fetchLen v)) =
      .done { cell := c', next := c.core.pc + BitVec.ofNat 16 (c.core.fetchLen v), shadow := shadow
              cycles := cycles, charge := charge })
    (hl : c'.core.lend ≠ c.core.pc) :
    c.runInstr v stop =
      { c' with core := { c'.core.after c.core.pc (c.core.fetchLen v) cycles with shadow := shadow } } := by
  have hs : c.begun.core.slot = none := h.1.2.2.2.2.1
  have hn : ¬ (c.begun.core.pc = c'.core.lend) := fun x => hl x.symm
  rw [Cell.runInstr_plain h, he]
  simp only [Cell.complete, hs, loopAction, hn, and_false, if_false, Bool.false_eq_true]
  rfl

theorem Cell.runInstr_seq {c c' : Cell} {v : VInstr} {stop : Option Nat} {k : Core} {len cycles : Nat}
    (h : c.plain v) (hlen : c.core.fetchLen v = len)
    (he : c.begun.effect v stop (c.core.pc + BitVec.ofNat 16 len) =
      .seq c' k (c.core.pc + BitVec.ofNat 16 len) cycles)
    (hl : k.lend ≠ c.core.pc) :
    c.runInstr v stop = { c' with core := k.after c.core.pc len cycles } := by
  subst hlen
  exact Cell.runInstr_done (c' := { c' with core := k }) (shadow := false) (charge := 0) h he hl

/-- A plain instruction that changes the core alone. -/
theorem Cell.runInstr_did {c : Cell} {v : VInstr} {stop : Option Nat} {len cycles : Nat} {f : Core → Core}
    (h : c.plain v) (hlen : c.core.fetchLen v = len)
    (he : c.begun.effect v stop (c.core.pc + BitVec.ofNat 16 len) =
      .seq c.begun (f c.begun.core) (c.core.pc + BitVec.ofNat 16 len) cycles)
    (hl : (f c.begun.core).lend = c.core.lend) : c.runInstr v stop = c.did len cycles f := by
  exact Cell.runInstr_seq h hlen he (by rw [hl]; exact h.1.2.2.2.2.2.1)

/-- A plain instruction that falls through, and then traps. -/
theorem Cell.runInstr_trap {c : Cell} {v : VInstr} {stop : Option Nat} {len cycles charge vec cause : Nat}
    {f : Core → Core} (h : c.plain v) (hlen : c.core.fetchLen v = len)
    (he : c.begun.effect v stop (c.core.pc + BitVec.ofNat 16 len) =
      .done { cell := { c.begun with core := f c.begun.core }, next := c.core.pc + BitVec.ofNat 16 len
              cycles := cycles, charge := charge, trap := some (vec, cause) })
    (hl : (f c.begun.core).lend = c.core.lend) :
    c.runInstr v stop =
      (c.did len cycles f).enter (c.core.pc + BitVec.ofNat 16 len) vec (BitVec.ofNat 8 cause) := by
  have hs : c.begun.core.slot = none := h.1.2.2.2.2.1
  have hn : ¬ (c.begun.core.pc = (f c.begun.core).lend) := by rw [hl]; exact fun x => h.1.2.2.2.2.2.1 x.symm
  rw [Cell.runInstr_plain h, hlen, he]
  simp only [Cell.complete, hs, loopAction, hn, and_false, if_false, Bool.false_eq_true]
  rfl

end Sys2Proof.Machine
end

