-- ==== Sys2Proof/Laws/Frame.lean ====
section
/-! SUPPORT. Everything that the shared operations of the hub leave as it was: one lemma for each operation that most
commands go through, in the form "what was steady so far stays so". -/

namespace Sys2Proof.Machine

theorem State.Steady.same (s : State) : s.Steady s := ⟨rfl, rfl, rfl, rfl, rfl, rfl, rfl, rfl, rfl, rfl⟩

theorem State.Steady.trans {s t u : State} (h : s.Steady t) (k : t.Steady u) : s.Steady u :=
  ⟨k.pending.trans h.pending, k.part.trans h.part, k.pwrgd.trans h.pwrgd, k.perstN.trans h.perstN,
    k.phase.trans h.phase, k.ready.trans h.ready, k.linkUp.trans h.linkUp, k.active.trans h.active,
    k.floor.trans h.floor, k.signingKey.trans h.signingKey⟩

/-- An update of the hub that keeps what `State.Steady` names. -/
structure Hub.Keeps (f : Hub → Hub) : Prop where
  part : ∀ h, (f h).part = h.part
  pwrgd : ∀ h, (f h).pwrgd = h.pwrgd
  perstN : ∀ h, (f h).perstN = h.perstN
  phase : ∀ h, (f h).phase = h.phase
  ready : ∀ h, (f h).ready = h.ready
  linkUp : ∀ h, (f h).linkUp = h.linkUp
  active : ∀ h, (f h).active = h.active
  floor : ∀ h, (f h).keys.floor = h.keys.floor
  signingKey : ∀ h, (f h).keys.signingKey = h.keys.signingKey

section
variable {s t : State} (h : s.Steady t)
include h

theorem State.Steady.onHub {f : Hub → Hub} (k : Hub.Keeps f) : s.Steady (t.onHub f) :=
  h.trans ⟨rfl, k.part _, k.pwrgd _, k.perstN _, k.phase _, k.ready _, k.linkUp _, k.active _, k.floor _, k.signingKey _⟩

theorem State.Steady.setChan (c : Chan) : s.Steady (t.setChan c) := h.trans ⟨rfl, rfl, rfl, rfl, rfl, rfl, rfl, rfl, rfl, rfl⟩

theorem State.Steady.onChan (n : Nat) (g : Chan → Chan) : s.Steady (t.onChan n g) := h.setChan _

theorem State.Steady.onDie (d : Nat) (g : Die → Die) : s.Steady (t.onDie d g) := h.trans ⟨rfl, rfl, rfl, rfl, rfl, rfl, rfl, rfl, rfl, rfl⟩

theorem State.Steady.onCellUnit (d n : Nat) (g : CellUnit → CellUnit) : s.Steady (t.onCellUnit d n g) := h.onDie _ _

theorem State.Steady.send (x : Sent) : s.Steady (t.send x) := by
  refine h.onHub ?_
  constructor <;> intro _ <;> rfl

theorem State.Steady.signal (fn vec : Nat) : s.Steady (t.signal fn vec) := by
  unfold State.signal
  split
  · exact h.send _
  · refine h.onHub ?_
    constructor <;> intro _ <;> rfl

theorem State.Steady.managementEvent : s.Steady t.managementEvent := h.signal 0 1

theorem State.Steady.netlow : s.Steady t.netlow := by
  unfold State.netlow
  split
  · exact h
  · dsimp only
    split
    · refine State.Steady.managementEvent (h.onHub ?_)
      constructor <;> intro _ <;> rfl
    · refine h.onHub ?_
      constructor <;> intro _ <;> rfl

theorem State.Steady.setRole (p : Nat × Nat) (f : CellUnit → CellUnit) : s.Steady (t.setRole p f) :=
  State.Steady.netlow (h.onCellUnit _ _ _)

theorem State.Steady.host (p : Nat × Nat) (ch : Nat) : s.Steady (t.host p ch) := h.setRole p _
theorem State.Steady.toKiln (p : Nat × Nat) (scope : Nat) : s.Steady (t.toKiln p scope) := h.setRole p _
theorem State.Steady.toPool (p : Nat × Nat) : s.Steady (t.toPool p) := h.setRole p _

theorem State.Steady.record (r : RepairRecord) : s.Steady (t.record r) := by
  refine h.onHub ?_
  constructor <;> intro _ <;> rfl

theorem State.Steady.retire (p : Nat × Nat) : s.Steady (t.retire p) :=
  ((h.setRole p _).onDie _ _).record _

theorem State.Steady.catchEntry (kind cause : Nat) (c : Chan) (old new : Option (Nat × Nat))
    (ctime block detail delay lag : Nat) :
    s.Steady (t.catchEntry kind cause c old new ctime block detail delay lag) := by
  refine State.Steady.managementEvent (h.onHub ?_)
  constructor <;> intro _ <;> rfl

theorem State.Steady.lockupPin : s.Steady t.lockupPin := by
  unfold State.lockupPin
  refine h.onHub ?_
  constructor <;> intro _ <;> rfl

/-! ### Queues and responses -/

theorem State.Steady.onQueue (q : QueueId) (f : Queue → Queue) : s.Steady (t.onQueue q f) := by
  unfold State.onQueue
  cases q with
  | vf ch n => exact h.onChan _ _
  | mcq => exact h.onHub (by constructor <;> intro _ <;> rfl)
  | mrq => exact h.onHub (by constructor <;> intro _ <;> rfl)

theorem State.Steady.queueMessage (q : QueueId) : s.Steady (t.queueMessage q) := by
  unfold State.queueMessage
  exact (h.signal _ _).onQueue _ _

theorem State.Steady.advanced (q : QueueId) (i : Nat) : s.Steady (t.advanced q i) := by
  unfold State.advanced
  dsimp only
  repeat' split
  all_goals first
    | exact h
    | exact h.send _
    | exact h.onQueue _ _
    | exact (h.send _).onQueue _ _
    | exact h.queueMessage _
    | exact (h.send _).queueMessage _

theorem State.Steady.queueError (q : QueueId) (code : Nat) : s.Steady (t.queueError q code) := by
  have h1 := h.onQueue q fun x => { x.disarmed with errc := code }
  unfold State.queueError
  dsimp only
  repeat' split
  all_goals first
    | exact h1
    | exact h1.queueMessage _
    | exact h1.onChan _ _
    | exact (h1.queueMessage _).onChan _ _

theorem State.Steady.ctlWrite (q : QueueId) (v : Word) : s.Steady (t.ctlWrite q v) := by
  have h1 := h.onQueue q fun x =>
    { x with wbEn := v.getLsbD 30, ie := v.getLsbD 29, vec := bitsOf v.toNat 17 16
             holdoff := v.toNat % 65536 }
  unfold State.ctlWrite
  dsimp only
  repeat' split
  all_goals first
    | exact h1
    | exact h1.onQueue _ _
    | exact h1.queueError _ _

theorem State.Steady.inDoorbell (q : QueueId) (v : Nat) : s.Steady (t.inDoorbell q v) := by
  unfold State.inDoorbell
  dsimp only
  repeat' split
  all_goals first
    | exact h
    | exact (h.onHub (by constructor <;> intro _ <;> rfl)).onQueue _ _
    | exact h.queueError _ _

theorem State.Steady.outDoorbell (q : QueueId) (v : Nat) : s.Steady (t.outDoorbell q v) := by
  unfold State.outDoorbell
  dsimp only
  repeat' split
  all_goals first
    | exact h
    | exact h.onQueue _ _
    | exact h.queueError _ _

theorem State.Steady.consume (q : QueueId) (n : Nat) : s.Steady (t.consume q n) := (h.onQueue q _).advanced _ _

theorem State.Steady.flushMrq (n : Nat) : s.Steady (State.flushMrq n t) := by
  induction n generalizing t with
  | zero => exact h
  | succ n ih =>
    unfold State.flushMrq
    split
    · exact h
    · dsimp only
      split
      · exact h
      · refine ih (State.Steady.advanced ((h.send _).onHub ?_) _ _)
        constructor <;> intro _ <;> rfl

theorem State.Steady.flushResponses : s.Steady t.flushResponses := h.flushMrq _

theorem State.Steady.respond (op status tag ch d16 d32 : Nat) : s.Steady (t.respond op status tag ch d16 d32) := by
  refine State.Steady.flushResponses (h.onHub ?_)
  constructor <;> intro _ <;> rfl

theorem State.Steady.respondTo (tag : Option Nat) (op status ch : Nat) : s.Steady (t.respondTo tag op status ch) := by
  cases tag with
  | none => exact h
  | some k => exact h.respond op status k ch 0 0

theorem State.Steady.takeCommand : s.Steady t.takeCommand := h.consume _ _

theorem State.Steady.answer (op tag buf len ch : Nat) (bytes : List Byte) :
    s.Steady (t.answer op tag buf len ch bytes) := by
  unfold State.answer
  dsimp only
  split
  · exact h.respond _ _ _ _ _ _
  · exact (h.send _).respond _ _ _ _ _ _

/-! ### The safety net -/

theorem State.Steady.netBegins (ch : Nat) (cause : NetCause) : s.Steady (t.netBegins ch cause) := by
  unfold State.netBegins
  dsimp only
  split
  · exact h
  · exact (h.onChan _ _).catchEntry _ _ _ _ _ _ _ _ _ _

theorem State.Steady.logAt (ch time kind : Nat) (payload : List Byte) : s.Steady (t.logAt ch time kind payload) := by
  unfold State.logAt
  dsimp only
  repeat' split
  · exact h
  · exact h.setChan _
  · exact (h.setChan _).netBegins _ _

theorem State.Steady.log (ch kind : Nat) (payload : List Byte) : s.Steady (t.log ch kind payload) := h.logAt _ _ _ _

theorem State.Steady.logNet (ch : Nat) : s.Steady (t.logNet ch) := by
  unfold State.logNet
  dsimp only
  split
  · exact h
  · exact h.log _ _ _

theorem State.Steady.netEnded (ch : Nat) (cause : NetCause) : s.Steady (t.netEnded ch cause) := by
  unfold State.netEnded
  dsimp only
  split
  · exact h
  · exact ((h.onChan _ _).catchEntry _ _ _ _ _ _ _ _ _ _).logNet _

theorem State.Steady.snapshot (ch : Nat) : s.Steady (t.snapshot ch) := by
  unfold State.snapshot
  refine (h.setChan _).onHub ?_
  constructor <;> intro _ <;> rfl

theorem State.Steady.beginDrain (ch : Nat) : s.Steady (t.beginDrain ch) := by
  unfold State.beginDrain
  exact ((h.onChan _ _).respondTo _ _ _ _).onChan _ _

theorem State.Steady.eraseKeys (ch : Nat) : s.Steady (t.eraseKeys ch) := by
  refine h.onHub ?_
  constructor <;> intro _ <;> rfl

theorem State.Steady.enterSafe (ch cause : Nat) (old : Option (Nat × Nat)) (time block detail : Nat) :
    s.Steady (t.enterSafe ch cause old time block detail) :=
  ((((h.eraseKeys ch).onChan _ _).catchEntry _ _ _ _ _ _ _ _ _ _).managementEvent).lockupPin

theorem State.Steady.catch_ (ch cause block detail : Nat) (lost : Bool) :
    s.Steady (t.catch_ ch cause block detail lost) := by
  unfold State.catch_
  dsimp only
  repeat' split
  all_goals first
    | exact h
    | exact ((h.setChan _).toKiln _ _).enterSafe _ _ _ _ _ _
    | exact (((h.setChan _).host _ _).toKiln _ _).onChan _ _

theorem State.Steady.castRestart (ch cause block detail : Nat) : s.Steady (t.castRestart ch cause block detail) := by
  unfold State.castRestart
  dsimp only
  repeat' split
  · exact h
  · exact (((h.host _ _).toKiln _ _).onChan _ _).catchEntry _ _ _ _ _ _ _ _ _ _
  all_goals exact (((h.toKiln _ _).onChan _ _).catchEntry _ _ _ _ _ _ _ _ _ _).respondTo _ _ _ _

theorem State.Steady.hardwareFault (ch cause block detail : Nat) (lost : Bool) :
    s.Steady (t.hardwareFault ch cause block detail lost) := by
  unfold State.hardwareFault
  dsimp only
  repeat' split
  all_goals first
    | exact h
    | exact (h.onChan _ _).catchEntry _ _ _ _ _ _ _ _ _ _
    | exact h.castRestart _ _ _ _
    | exact (h.beginDrain _).catchEntry _ _ _ _ _ _ _ _ _ _
    | exact h.catch_ _ _ _ _ _

/-! ### An event of a cell -/

theorem State.Steady.retireLayers (ch l : Nat) : s.Steady (t.retireLayers ch l) := by
  unfold State.retireLayers
  dsimp only
  split
  · exact h
  · exact (h.onQueue _ _).consume _ _

theorem State.Steady.layerSettles (ch l : Nat) (busy : Bool) : s.Steady (t.layerSettles ch l busy) := by
  unfold State.layerSettles
  split
  · exact h.retireLayers _ _
  · exact (h.onQueue _ _).retireLayers _ _

theorem State.Steady.layerTaken (ch l : Nat) (refused : Bool) : s.Steady (t.layerTaken ch l refused) :=
  (h.onQueue _ _).layerSettles _ _ _

theorem State.Steady.hears (heard : Option Nat) (fade : Nat) : s.Steady (t.hears heard fade) := by
  refine h.onHub ?_
  constructor <;> intro _ <;> rfl

theorem State.Steady.playFrame (l r : Int) : s.Steady (t.playFrame l r) := by
  refine (h.send _).onHub ?_
  constructor <;> intro _ <;> rfl

theorem State.Steady.serviceFrame (ch : Nat) (l r : Int) : s.Steady (t.serviceFrame ch l r) := by
  unfold State.serviceFrame
  dsimp only
  repeat' split
  · exact (h.playFrame _ _).hears _ _
  · exact (h.playFrame _ _).hears _ _
  · exact (h.playFrame _ _).hears _ _
  · exact ((h.playFrame _ _).hears _ _).onChan _ _
  · exact h

theorem State.Steady.lockedUp (ch : Nat) (r : LockupInfo) : s.Steady (t.lockedUp ch r) :=
  ((h.onChan _ _).managementEvent).lockupPin

theorem State.Steady.napChange (ch : Nat) (b : Bool) : s.Steady (t.napChange ch b) := h.onChan _ _

theorem State.Steady.flushOne (ch : Nat) (e : Emit) : s.Steady (t.flushOne ch e) := by
  unfold State.flushOne
  cases e with
  | lockup r => exact h.lockedUp ch r
  | notify code detail time => exact h.onChan _ _
  | logRecord kind payload => exact h.log ch kind payload
  | logAt time kind payload => exact h.logAt ch time kind payload
  | layerTaken l tag refused => exact h.layerTaken ch l refused
  | record st blocks bytes => exact h.onChan _ _
  | audio k stamp w24 bytes => exact h.onChan _ _
  | nap begins => exact h.napChange ch begins
  | service l r => exact h.serviceFrame ch l r

theorem State.Steady.showPads (ch : Nat) : s.Steady (t.showPads ch) := by
  unfold State.showPads
  dsimp only
  repeat' split
  · exact h.setChan _
  · exact h
  · exact h

theorem State.Steady.foldl {α : Type} {f : State → α → State}
    (k : ∀ (u : State) (x : α), s.Steady u → s.Steady (f u x)) (l : List α) : s.Steady (l.foldl f t) := by
  induction l generalizing t with
  | nil => exact h
  | cons x l ih => exact ih (k t x h)

theorem State.Steady.flush (ch : Nat) : s.Steady (t.flush ch) := by
  unfold State.flush
  split
  · exact h
  · exact ((h.onChan _ _).foldl (fun _ e k => k.flushOne ch e) _).showPads _

/-- An event of a cell leaves the commands waiting, the start-up phase, the link and the keys alone. -/
theorem State.Steady.cellEvent (ch : Nat) (f : Cell → Cell) : s.Steady (t.cellEvent ch f) := by
  unfold State.cellEvent
  split
  · exact h
  · split
    · exact h
    · exact (h.setChan _).flush _

end

/-! ### What an event of one channel's cell leaves of the others -/

theorem State.Beside.same (ch : Nat) (s : State) : State.Beside ch s s := ⟨rfl, fun _ _ => rfl⟩

section
variable {s t : State} {ch : Nat} (h : State.Beside ch s t)
include h

theorem State.Beside.onHub (f : Hub → Hub) : State.Beside ch s (t.onHub f) := ⟨h.dies, h.others⟩

theorem State.Beside.setChan (c : Chan) (e : c.n = ch) : State.Beside ch s (t.setChan c) :=
  ⟨h.dies, fun m k => (State.setChan_chan_other t c m (by rw [e]; exact k)).trans (h.others m k)⟩

theorem State.Beside.onChan (g : Chan → Chan) : State.Beside ch s (t.onChan ch g) := h.setChan _ rfl

theorem State.Beside.send (x : Sent) : State.Beside ch s (t.send x) := h.onHub _

theorem State.Beside.signal (fn vec : Nat) : State.Beside ch s (t.signal fn vec) := by
  unfold State.signal
  split
  · exact h.send _
  · exact h.onHub _

theorem State.Beside.catchEntry (kind cause : Nat) (c : Chan) (old new : Option (Nat × Nat))
    (ctime block detail delay lag : Nat) :
    State.Beside ch s (t.catchEntry kind cause c old new ctime block detail delay lag) := (h.onHub _).signal 0 1

theorem State.Beside.onQueue (q : Nat) (f : Queue → Queue) : State.Beside ch s (t.onQueue (.vf ch q) f) := by
  unfold State.onQueue
  exact h.onChan _

theorem State.Beside.queueMessage (q : Nat) : State.Beside ch s (t.queueMessage (.vf ch q)) := by
  unfold State.queueMessage
  exact (h.signal _ _).onQueue _ _

theorem State.Beside.advanced (q i : Nat) : State.Beside ch s (t.advanced (.vf ch q) i) := by
  unfold State.advanced
  dsimp only
  repeat' split
  all_goals first
    | exact h
    | exact h.send _
    | exact h.onQueue _ _
    | exact (h.send _).onQueue _ _
    | exact h.queueMessage _
    | exact (h.send _).queueMessage _

theorem State.Beside.consume (q n : Nat) : State.Beside ch s (t.consume (.vf ch q) n) := by
  unfold State.consume
  exact (h.onQueue q _).advanced _ _

theorem State.Beside.netBegins (cause : NetCause) : State.Beside ch s (t.netBegins ch cause) := by
  unfold State.netBegins
  dsimp only
  split
  · exact h
  · exact (h.onChan _).catchEntry _ _ _ _ _ _ _ _ _ _

theorem State.Beside.retireLayers (l : Nat) : State.Beside ch s (t.retireLayers ch l) := by
  unfold State.retireLayers
  dsimp only
  split
  · exact h
  · exact (h.onQueue _ _).consume _ _

theorem State.Beside.layerSettles (l : Nat) (busy : Bool) : State.Beside ch s (t.layerSettles ch l busy) := by
  unfold State.layerSettles
  split
  · exact h.retireLayers _
  · exact (h.onQueue _ _).retireLayers _

theorem State.Beside.layerTaken (l : Nat) (refused : Bool) : State.Beside ch s (t.layerTaken ch l refused) := by
  unfold State.layerTaken
  exact (h.onQueue _ _).layerSettles _ _

theorem State.Beside.hears (heard : Option Nat) (fade : Nat) : State.Beside ch s (t.hears heard fade) := h.onHub _

theorem State.Beside.playFrame (l r : Int) : State.Beside ch s (t.playFrame l r) := (h.send _).onHub _

theorem State.Beside.serviceFrame (l r : Int) : State.Beside ch s (t.serviceFrame ch l r) := by
  unfold State.serviceFrame
  dsimp only
  repeat' split
  · exact (h.playFrame _ _).hears _ _
  · exact (h.playFrame _ _).hears _ _
  · exact (h.playFrame _ _).hears _ _
  · exact ((h.playFrame _ _).hears _ _).onChan _
  · exact h

theorem State.Beside.lockedUp (r : LockupInfo) : State.Beside ch s (t.lockedUp ch r) := by
  unfold State.lockedUp State.lockupPin
  exact (State.Beside.signal (h.onChan _) 0 1).onHub _

theorem State.Beside.napChange (b : Bool) : State.Beside ch s (t.napChange ch b) := by
  unfold State.napChange
  exact h.onChan _

theorem State.Beside.foldl {α : Type} {f : State → α → State}
    (k : ∀ (u : State) (x : α), State.Beside ch s u → State.Beside ch s (f u x)) (l : List α) :
    State.Beside ch s (l.foldl f t) := by
  induction l generalizing t with
  | nil => exact h
  | cons x l ih => exact ih (k t x h)

theorem State.Beside.logAt (time kind : Nat) (payload : List Byte) :
    State.Beside ch s (t.logAt ch time kind payload) := by
  unfold State.logAt
  dsimp only
  repeat' split
  · exact h
  · refine h.setChan _ ?_
    unfold Chan.mayForce
    split <;> exact t.chan_n ch
  · refine State.Beside.netBegins (h.setChan _ ?_) _
    exact t.chan_n ch

theorem State.Beside.log (kind : Nat) (payload : List Byte) : State.Beside ch s (t.log ch kind payload) :=
  h.logAt _ _ _

theorem State.Beside.flushOne (e : Emit) : State.Beside ch s (t.flushOne ch e) := by
  unfold State.flushOne
  cases e with
  | lockup r => exact h.lockedUp r
  | notify code detail time => exact h.onChan _
  | logRecord kind payload => exact h.log kind payload
  | logAt time kind payload => exact h.logAt time kind payload
  | layerTaken l tag refused => exact h.layerTaken l refused
  | record st blocks bytes => exact h.onChan _
  | audio k stamp w24 bytes => exact h.onChan _
  | nap begins => exact h.napChange begins
  | service l r => exact h.serviceFrame l r

theorem State.Beside.showPads : State.Beside ch s (t.showPads ch) := by
  unfold State.showPads
  dsimp only
  repeat' split
  · exact h.setChan _ (t.chan_n ch)
  · exact h
  · exact h

theorem State.Beside.flush : State.Beside ch s (t.flush ch) := by
  unfold State.flush
  split
  · exact h
  · exact ((h.onChan _).foldl (fun _ e k => k.flushOne e) _).showPads

/-- An event of a channel's cell leaves every other channel alone. -/
theorem State.Beside.cellEvent (f : Cell → Cell) : State.Beside ch s (t.cellEvent ch f) := by
  unfold State.cellEvent
  split
  · exact h
  · split
    · exact h
    · refine State.Beside.flush (h.setChan _ ?_)
      exact t.chan_n ch

end

end Sys2Proof.Machine
end

