-- ==== Sys2Proof/Machine/Views.lean ====
section
/-! DEFINITION. What the state shows that no command reads: the registers behind the BARs, and the switched power
domains (R9, R373, R379, R395, R398, R402, R452, R473, R497). -/

namespace Sys2Proof.Machine

/-! ### Switched power domains (R9, R473) -/

/-- The switch of a cell is closed: while it hosts a channel, and while the kiln tests it. -/
def State.cellSwitch (s : State) (d n : Nat) : Bool :=
  let u := (s.die d).cell n
  s.populated d && decide (n < 88) && s.hub.pwrgd && (u.hosts || (u.role == .testing && u.inTest))

/-- The switch of GPIO bank b of die d is closed: from the casting phase on, while its rail is powered. -/
def State.bankSwitch (s : State) (d b : Nat) : Bool :=
  s.populated d && decide (b < 2) && s.hub.pwrgd && (s.die d).banks.getD b 0 != 0

/-- The hub's ten switched domains, in the order of R473; 6 is that of the service outputs. -/
def Hub.switch (h : Hub) (i : Nat) : Bool :=
  decide (i < 10) && h.pwrgd && (i != 6 || h.panel.selected.isSome || h.hubTests.contains (5, true))

/-- The number of switched domains of a part: one per cell, two per channel die, and ten on the hub (R9). -/
def partDomains (part : Nat) : Nat := 88 * partDies part + 2 * partDies part + 10

/-- The ball, row and column, of pin p of channel die d (R497). -/
def ballOf (d p : Nat) : Nat × Nat :=
  if d ≤ 4 then (53 + p / 12, 5 + 12 * (d - 1) + p % 12) else (12 - p / 12, 5 + 12 * (d - 5) + p % 12)

/-! ### What the BARs show (R373, R379, R395, R398, R402) -/

/-- A queue register at offset `o` (R379). -/
def Queue.word (x : Queue) (o : Nat) : Nat :=
  match o with
  | 0x00 => x.base % 0x100000000
  | 0x04 => x.base / 0x100000000
  | 0x08 => x.log2
  | 0x0C => x.wb % 0x100000000
  | 0x10 => x.wb / 0x100000000
  | 0x14 => x.arm.toNat * 2 ^ 31 + x.wbEn.toNat * 2 ^ 30 + x.ie.toNat * 2 ^ 29 + x.vec * 2 ^ 16 + x.holdoff
  | 0x18 => x.prod
  | 0x1C => x.cons
  | 0x20 => x.errc
  | 0x24 => x.skipped
  | 0x28 => x.dropped
  | _ => 0

/-- The pending bits of the 32 vectors from `first` on of a function (R374). -/
def Hub.pendingBits (h : Hub) (fn first : Nat) : Nat :=
  (List.range 32).foldl (fun w v => w + (h.pba.contains (fn, first + v)).toNat * 2 ^ v) 0

/-- Entry i of the ring of kiln records, 0 while it is unused (R452). -/
def Hub.kilnSlot (h : Hub) (i : Nat) : List Byte :=
  ((h.kilnLog.find? fun k => (k.seq - 1) % 64 == i).elim (List.replicate 32 0#8) KilnRecord.bytes)

/-- The dword at an offset of PF0 BAR0 (R398). -/
def State.pf0Word (s : State) (off : Nat) : Nat :=
  let h := s.hub
  if off = 0 then h.bootStatus.toNat
  else if 0x200 ≤ off ∧ off < 0x288 then (s.health ((off - 0x200) / 4)).toNat
  else if 0x100 ≤ off ∧ off < 0x140 then h.mcq.word (off - 0x100)
  else if 0x140 ≤ off ∧ off < 0x180 then h.mrq.word (off - 0x140)
  else if 0x400 ≤ off ∧ off < 0xC00 then leNat (((h.kilnSlot ((off - 0x400) / 32)).drop (off % 32)).take 4)
  else if 0x1000 ≤ off ∧ off < 0x1400 then h.msix.rdN (off - 0x1000) 4
  else if off = 0x1800 then h.pendingBits 0 0
  else if off = 0x1804 then h.pendingBits 0 32
  else 0

/-- The byte at an offset of PF0 BAR2, the channel table (R402). -/
def State.bar2Byte (s : State) (off : Nat) : Byte := (s.channelTable (off / 0x40)).getD (off % 0x40) 0#8

/-- The dword at an offset of BAR0 of the VF of channel `ch` (R379, R395). -/
def State.vfWord (s : State) (ch off : Nat) : Nat :=
  let c := s.chan ch
  match off with
  | 0x00 => c.view.code
  | 0x04 => c.vf.epochLatch
  | 0x08 => c.vf.cmdEpoch
  | 0x10 => c.vf.stale.toNat * 2 + c.vf.done.toNat
  | 0x14 => c.vf.staleCount
  | _ =>
    if 0x2000 ≤ off ∧ off < 0x2400 then (s.queue (.vf ch ((off - 0x2000) / 0x40))).word (off % 0x40)
    else if 0x3000 ≤ off ∧ off < 0x3040 then c.vf.msix.rdN (off - 0x3000) 4
    else if off = 0x3800 then s.hub.pendingBits (ch + 1) 0
    else 0

end Sys2Proof.Machine
end

