-- ==== Sys2Proof/Tests/Slice0.lean ====
section
/-! SUPPORT. Tests of the model: ill-formed commands that WellFormed refuses, single steps on small states with the results that the
manual states, and a witness for the hypotheses of every statement. -/

namespace Sys2Proof.Tests

open Sys2Proof.Machine

/-! ### Small states -/

/-- A mould with empty contents and both clocks at 100 MHz (R477). -/
def demoMould : Mould :=
  { index := 0, name := [], memory := [], decodeTable := [], microcode := [], paceTable := [], ssp := 0x8000#16
    usp := 0x7000#16, coreFreq := 0x40000000, ioFreq := 0x40000000, regs := [], pioValues := [], pioDirs := []
    palette := [], tables := [], nodes := [], outs := [] }

/-- A card of channel `ch` on die 1 that owns pin 0 as CP0. -/
def demoCard (ch auto : Nat) : Card :=
  { channel := ch, mould := 0, auto := auto, pins := 0 :: List.replicate 15 0xFFFF, die := 1, locks := 0#16
    stops := List.replicate 16 1, lockupPin := none, keys := [], share := 8, interval := 4, identityAt := 0
    identity := [] }

def demoDevice : Device :=
  { levels := [2, 2, 0, 1, 0, 0, 0, 3], thresholds := List.replicate 7 2, masked := [], svcChannel := none, panelW := 64
    panelH := 64, laneRate := 80, teEn := false, wakeMs := 120 }

def demoImage : Image := { device := demoDevice, moulds := [demoMould], cards := [demoCard 0 1, demoCard 5 0] }

/-- A cell whose I/O page holds `io`. -/
def demoCell (io : Bytes) : Cell :=
  { core := { castCore demoMould [] with pc := 0x100#16 }
    mem := [], tickMem := [], io := io, eff := io, holds := [], latched := [], beam := castBeam
    seq := { run := false, pc := 0, ready := 0, word := none, posLine := 0, posDot := 0, reachable := true
             count := 0 }
    sprites := { latch := [], target := none, due := none, rows := [], group := [] }
    picture := castPicture demoMould false
    timers := (List.range 4).map (castTimer io)
    intc := { pend := 0#48, request := 0#48, active := 0#48, holds := [] }
    nap := { napping := false, pins := 0#16, timers := 0#4, evq := false, line := false }
    audio := castAudio demoMould io false
    blitter :=
      { phase := .idle, cmd := [], pc := 0, pattern := [], pos := 0
        clips := List.replicate 4 { x0 := 0, y0 := 0, xEnd := 1, yEnd := 1 } }
    dma := List.replicate 4 castStream
    pio := { engines := (List.range 4).map (castEngine demoMould), flags := 0#8, before := 0#8, sets := 0#8 }
    pins := castPins (demoCard 0 1)
    crypto := castCrypto
    slots := List.replicate 8 none
    evf := [], lines := List.replicate 4 { rx := [], tx := [], txAt := [] }, breakpoints := [], coreFreq := 0x40000000
    ioFreq := 0x40000000, runs := true, dry := false, outq := [], free := 0 }

/-- A part that is READY with the image loaded and one entry in its management command queue, with the channels given. -/
def demoHub (chans : List Chan) : State :=
  { State.reset with
    hub := { State.reset.hub with
      phase := 6, ready := true, linkUp := true, linkWidth := 16, image := some demoImage
      mcq := { Queue.blank with arm := true, log2 := 4, prod := 1 } }
    chans := chans }

/-- Channel 0 RUNNING on cell 0 of die 1, which is `c`. -/
def demoChan (c : Cell) : Chan :=
  { Chan.blank 0 with
    state := .running, view := .running, epoch := 1, viewEpoch := 1, share := 8, interval := 4, place := some (1, 0), cell := some c
    checkpoint := some c }

/-- The part with channel 0 RUNNING on `c`, and that cell marked as hosting it. -/
def demoPart (f : Chan → Chan) (c : Cell) : State :=
  (demoHub [f (demoChan c)]).onCellUnit 1 0 fun u => { u with role := .hosting 0, tested := true }

def demo (c : Cell) : State := demoPart id c

/-- What a test looks at in the next state of a command. -/
def after (i : Instr) (s : State) (f : State → Bool) : Bool :=
  match exec i s with
  | .next t => f t
  | _ => false

/-- What a test looks at in the cell of channel 0 after a command. -/
def cellAfter (i : Instr) (c : Cell) (f : Cell → Bool) : Bool :=
  after i (demo c) fun t => (t.chan 0).cell.elim false f

/-! ### WellFormed refuses what is out of range -/

def demoResult : TestResult :=
  { outcome := .pass, memory := 0, bit := 0, address := 0, shape := 0, spare := 0, chain := 0, sigDiff := 0
    duration := 0 }

/-- A slot that is not read. -/
def noReading : SlotReading := { payload := none }

theorem wellFormed_accepts : wellFormed (.timerWrap 559 3) = true := by decide
theorem illFormed_okCh : wellFormed (.timerWrap 560 3) = false := by decide
theorem illFormed_ok2 : wellFormed (.waveAdvance 0 2) = false := by decide
theorem illFormed_ok4 : wellFormed (.timerWrap 0 4) = false := by decide
theorem illFormed_ok8 : wellFormed (.cast 0 0 0 256) = false := by decide
theorem illFormed_ok16 : wellFormed (.imageBegin 0x10000) = false := by decide
theorem illFormed_ok32 : wellFormed (.wake 0 ⟨0x100000000, 0⟩) = false := by decide
theorem illFormed_ok64 : wellFormed (.readHealth 0 0x10000000000000000 0) = false := by decide
theorem illFormed_okCp : wellFormed (.pinLevelIrq 0 16) = false := by decide
theorem illFormed_okWord : wellFormed (.programStoreWrite 0 40 0) = false := by decide
theorem illFormed_okSrc : wellFormed (.moderationHoldEnd 0 48 true) = false := by decide
theorem illFormed_okLine : wellFormed (.layerUnderrun 0 1 1024) = false := by decide
theorem illFormed_okDot : wellFormed (.spriteSpriteCollision 0 0 2048) = false := by decide
theorem illFormed_okBand : wellFormed (.bandClose 0 96) = false := by decide
theorem illFormed_okDie : wellFormed (.residueMismatch 8 0 false) = false := by decide
theorem illFormed_okDie_zero : wellFormed (.residueMismatch 0 0 false) = false := by decide
theorem illFormed_okCell : wellFormed (.residueMismatch 1 88 false) = false := by decide
theorem illFormed_okSensor : wellFormed (.tamperAlarm 8 0) = false := by decide
theorem illFormed_okMask : wellFormed (.tamperAlarm 5 128) = false := by decide
theorem illFormed_okBlock : wellFormed (.lockstepMismatch 1 0 8 false) = false := by decide
theorem illFormed_okMemory : wellFormed (.uncorrectableError 1 0 16 0 false) = false := by decide
theorem illFormed_okMargin : wellFormed (.agingMarginLow 1 0 256 0) = false := by decide
theorem illFormed_okKey : wellFormed (.ideKm 0 0 0 []) = false := by decide
theorem illFormed_okStream : wellFormed (.ideKm 0 5 0 (List.replicate 32 0)) = false := by decide
theorem illFormed_okAddrs : wellFormed (.dbgBreak 0 0 0 [0, 0, 0, 0, 0]) = false := by decide
theorem illFormed_okCode : wellFormed (.readByte 256) = false := by decide
theorem illFormed_okQueue : wellFormed (.queueArm (.vf 0 16) 0) = false := by decide
theorem illFormed_okTarget : wellFormed (.readDoesNotComplete 0 (.entry 8)) = false := by decide
theorem illFormed_okUnit : wellFormed (.kilnDailyTest (.hub 9)) = false := by decide
theorem illFormed_okWrite : wellFormed (.registerWrite (.io 0 0xF000 0)) = false := by decide
theorem illFormed_okWrite_pf0 : wellFormed (.registerWrite (.pf0 2 0)) = false := by decide
theorem illFormed_okResult : wellFormed (.kilnTestComplete (.cell 1 0) { demoResult with shape := 256 }) = false := by decide
theorem illFormed_okResults : wellFormed (.selfTestPhase none [(0, 0, demoResult)]) = false := by decide
theorem illFormed_okMould :
    wellFormed (.imageReadPhase true { payload := some { demoImage with moulds := [{ demoMould with memory := [(1, 0)] }] } } noReading) =
      false := by
  decide
theorem illFormed_okReading :
    wellFormed (.imageCommit 0 { payload := some { demoImage with moulds := [{ demoMould with regs := [(2, 1), (1, 1)] }] } }) =
      false := by
  decide
theorem illFormed_okBanks : wellFormed (.castingPhase [[3, 0]]) = false := by decide
theorem illFormed_okReserved : wellFormed (.reservedOpcode 0 0x00 ⟨0, 0, 0⟩) = false := by decide
theorem illFormed_okPiece : wellFormed (.imageWrite 0 0 (List.replicate 0x100001 0)) = false := by
  have h : okPiece (List.replicate 0x100001 0) = false := by
    unfold okPiece
    rw [List.length_replicate]
    decide
  show (ok16 0 && ok32 0 && okPiece (List.replicate 0x100001 0)) = false
  rw [h]
  rfl

/-! ### Results that the manual states -/

/-- R93: 80h + 80h is 00h with carry, overflow and zero. -/
theorem test_add_wraps : aluOp .add 0x80#8 0x80#8 false =
    { val := 0#8, flags := { h := some false, n := some false, v := some true, c := some true, z := some true } } := by
  decide

/-- R93: 00h − 01h borrows, and its half borrows too (R506). -/
theorem test_sub_borrows : aluOp .sub 0x00#8 0x01#8 false =
    { val := 0xFF#8, flags := { h := some true, n := some true, v := some false, c := some true, z := some false } } := by
  decide

/-- R96, the manual's example: 0855h / 0Ah leaves D5h and 03h. -/
theorem test_div_example : (divOp false 0x0855#16 0x0A#8).val = 0x03D5#16 := by decide

/-- R94: a divisor of 0 leaves FFh and the dividend's low byte. -/
theorem test_div_by_zero : (divOp false 0x0855#16 0x00#8).val = 0x55FF#16 := by decide

/-- R504, the manual's example: LD L1:L0,(L1:L0)+ with L1:L0 = 2400h ends holding the loaded value. -/
theorem test_load_overlap : cellAfter (.ldw 0 6 { mode := 3, b2 := 0x60, b3 := 0 })
    { demoCell [] with
      core := { (demoCell []).core with p := [(5, 0x24)] }
      mem := [(0x2400, 0x34), (0x2401, 0x12)] }
    (fun c => c.core.pair 12 == 0x1234#16) = true := by decide

/-- R82, the manual's example: ST −(G1:G0),G0 with G1:G0 = 3000h stores the old 00h at 2FFFh and leaves 2FFFh. -/
theorem test_store_overlap : cellAfter (.st 0 { mode := 4, b2 := 0, b3 := 0 } 0)
    { demoCell [] with core := { (demoCell []).core with g := [(1, 0x30)] }, mem := [(0x2FFF, 0x55)] }
    (fun c => c.mem.rd 0x2FFF == 0#8 && c.core.pair 0 == 0x2FFF#16) = true := by decide

/-- R121: TRAP 0 enters through vector 128, with the address after it on the frame. -/
theorem test_trap : cellAfter (.trap 0 0) { demoCell [] with mem := [(0x7FF00, 0x34), (0x7FF01, 0x12)] }
    (fun c => c.core.pc == 0x1234#16 && c.core.ssp == 0x7FFC#16 && c.mem.rd 0x3FFD == 0x02#8 && c.mem.rd 0x3FFE == 0x01#8) =
      true := by decide

/-- R79: RTE in user mode is a privilege exception, through vector 2. -/
theorem test_privilege : cellAfter (.rte 0)
    { demoCell [] with
      core := { (demoCell []).core with status := 0x80#8 }, mem := [(0x7FE04, 0x00), (0x7FE05, 0x20)] }
    (fun c => c.core.pc == 0x2000#16 && c.core.excInfo == 2#8) = true := by decide

/-- R228: the check value of CRC-32C. -/
theorem test_crc32c :
    crc32c [0x31, 0x32, 0x33, 0x34, 0x35, 0x36, 0x37, 0x38, 0x39] = 0xE3069283#32 := by decide +kernel

/-- R238: the check value of the reflected ECMA-182 CRC-64. -/
theorem test_crc64 :
    crc64 [0x31, 0x32, 0x33, 0x34, 0x35, 0x36, 0x37, 0x38, 0x39] = 0x995DC9BBDF1939FA#64 := by decide +kernel

/-- R220, the manual's example: column 0 of a 640-wide source shown 288 wide has n = 0 and phase 19. -/
theorem test_scaler_phase : scaleAt 640 288 0 = (0, 19) := by decide

/-- R298, the manual's example: eight ticks into a ramp from 4000h to 0 the gain is 3000h. -/
theorem test_node_ramp :
    ({ gain := 0, mute := false, target := 0, from_ := 0x4000, k := 8, move := none } : Node).ramped = 0x3000 := by decide

/-- The picture of block 348 in the manual's example of a keystroke on channel 217. -/
def glyphBlock : List Word :=
  let ink : Word := 0x3FFB0000
  List.replicate 201 0 ++ List.replicate 6 ink ++ List.replicate 31 0 ++ [ink] ++ List.replicate 17 0

/-- The palette-run payload of that block. -/
def glyphPayload : List Byte :=
  [1, 0, 0, 0, 0, 0, 0, 0xFB, 0x3F] ++ List.replicate 12 0x0F ++ [0x08, 0x15, 0x0F, 0x0E, 0x10, 0x0F, 0x00]

/-- R250, the manual's example: block 348 in palette-run coding. -/
theorem test_palette_run : paletteRun glyphBlock = glyphPayload := by decide +kernel

/-- R261, the manual's example: the sherd of block 348 on a panel of 800 by 480. -/
theorem test_panel_packets :
    let s : State := { demo (demoCell []) with
      hub := { (demo (demoCell [])).hub with
        image := some { demoImage with device := { demoDevice with panelW := 800, panelH := 480 } } } }
    let header : List Byte := [0x00, 0x40, 0x11, 0x14, 0x40, 0x9C, 0, 0, 0x70, 0x51, 0x50, 0x5A, 0x03, 0x00, 0x1C, 0x00]
    (s.sherdPackets (640, 364) (header ++ glyphPayload)).take 2 =
      [[0x2A, 0x01, 0x50, 0x01, 0x6F], [0x2B, 0x00, 0xC2, 0x00, 0xC9]] := by decide +kernel

/-- R269: ROP 6h is the exclusive or. -/
theorem test_rop_xor : ropBits 0x6 8 0xF0 0xCC = 0x3C := by decide

/-- R353: the timer wraps at its reload and sets STAT.WRAP. -/
theorem test_timer_wraps : cellAfter (.timerWrap 0 0)
    ((demoCell []).setTimer 0 { castTimer [] 0 with count := 7, cur := [(4, 7)] })
    (fun c => (c.timer 0).count == 0 && c.io.bit 0xE21D 0) = true := by decide

/-- R337: GPIO_TGL toggles the pins written as 1. -/
theorem test_gpio_toggle : cellAfter (.gpioTgl 0 false 0x3C) (demoCell [(0xE300, 0x0F)])
    (fun c => c.io.rd 0xE300 == 0x33#8) = true := by decide

/-- R384: a read of EVF_DATA takes the oldest entry. -/
theorem test_evf_read : cellAfter (.evfDataRead 0) { demoCell [] with evf := [[1, 2, 3, 4, 5, 6, 7, 8], [9]] }
    (fun c => c.evf == [[9]]) = true := by decide

/-- R463: DIN holds 32 bytes, and a further write is dropped. -/
theorem test_crypto_din_full : cellAfter (.crDin 0 1)
    { demoCell [] with crypto := { castCrypto with din := List.replicate 32 0 } }
    (fun c => c.crypto.din.length == 32 && c.io.bit 0xED24 2) = true := by decide

/-- R407, R492: while SMBALERT# is asserted the part answers with its address. -/
theorem test_smbus_address : after .alertResponseAddress
    { demo (demoCell []) with hub := { (demo (demoCell [])).hub with netlowN := false } }
    (fun t => t.hub.sent.getLast? == some (.smbus [0x2A])) = true := by decide

/-- R34: until READY a configuration request is completed with Retry Status. -/
theorem test_retry_status : after (.configurationRequest)
    { State.reset with hub := { State.reset.hub with phase := 2, linkUp := true } }
    (fun t => t.hub.sent == [.config false 0]) = true := by decide

/-- R49: a CAST with a stale epoch answers EPOCH_STALE and counts it. -/
theorem test_cast_stale : after (.cast 0 9 7 0) (demo (demoCell []))
    (fun t => (t.chan 0).stale == 1 && (t.chan 0).epoch == 1) = true := by decide

/-- The table gives no row any bits, so no word spells a command. -/
theorem test_no_word_spells_a_command : decodeTableWord 16 0 = none := by decide

/-! ### What the hypotheses of the statements are met by -/

namespace Core

def c0 := demoCell []
def cDze := demoCell [(0xE000, 1#8)]
def cSlot : Cell := { c0 with core := { c0.core with slot := some { target := 0x3000, jumpPc := 0xFD, kind := .ret }, wres := 3, cwp := 5 } }
def cLoop : Cell := { c0 with core := { c0.core with status := 0xE0, lend := 0x100, lstart := 0xF0, lcnt := 5 } }
def cLoop1 : Cell := { c0 with core := { c0.core with status := 0xE0, lend := 0x100, lstart := 0xF0, lcnt := 1 } }
def cW : Cell := { c0 with core := { c0.core with wres := 5, cwp := 5, wsaved := 3 } }
def cMem : Cell := { c0 with mem := [(0, 0x77), (1, 0x88), (0x1234, 0x5A), (0x2400, 0x34), (0x2401, 0x12)], core := { c0.core with g := [(5, 0x24)] } }
def cU2 : Cell := { c0 with core := { c0.core with decodeTable := [(0, 0x00), (1, 0xB0)], microcode := Bytes.wrN (Bytes.wrN [] 0 4 (5 * 0x40000 + 4 * 0x2000 + 9 * 0x100)) 4 4 0x70000000, g := [(4, 0x22), (9, 0x24)] } }
def cU1 : Cell := { cU2 with core := { cU2.core with decodeTable := [(0, 0x00), (1, 0x90)] } }

theorem witness_ByteAndPairOperationsCompute :
    ((demo c0).runsOn 0 c0 ∧ regOf5 1#5 = some 1 ∧ c0.core.byteSrc (.imm 0x12#8) = some 0x12#8 ∧
     c0.plain (.alu .add 1#5 (.imm 0x12#8)) ∧ c0.plain (.alu .adc 1#5 (.imm 0x12#8)) ∧ c0.plain (.alu .sub 1#5 (.imm 0x12#8)) ∧
     c0.plain (.alu .sbc 1#5 (.imm 0x12#8)) ∧ c0.plain (.alu .and 1#5 (.imm 0x12#8)) ∧ c0.plain (.alu .or 1#5 (.imm 0x12#8)) ∧
     c0.plain (.alu .xor 1#5 (.imm 0x12#8)) ∧ c0.plain (.alu .cmp 1#5 (.imm 0x12#8)) ∧ pairOf5 0xB#5 = some 22 ∧
     c0.core.pairSrc (.imm 0x1234#16) = some 0x1234#16 ∧ c0.plain (.aluw .add 0xB#5 (.imm 0x1234#16)) ∧
     c0.plain (.aluw .adc 0xB#5 (.imm 0x1234#16)) ∧ c0.plain (.aluw .sub 0xB#5 (.imm 0x1234#16)) ∧
     c0.plain (.aluw .sbc 0xB#5 (.imm 0x1234#16)) ∧ c0.plain (.aluw .and 0xB#5 (.imm 0x1234#16)) ∧
     c0.plain (.aluw .or 0xB#5 (.imm 0x1234#16)) ∧ c0.plain (.aluw .xor 0xB#5 (.imm 0x1234#16)) ∧
     c0.plain (.aluw .cmp 0xB#5 (.imm 0x1234#16)) ∧ pairOf5 0#5 = some 0 ∧ c0.core.pairSrc (.pair 2#8) = some 0#16 ∧
     c0.plain (.aluw .add 0#5 (.pair 2#8))) :=
  ⟨⟨rfl, rfl, rfl⟩, rfl, rfl, (by unfold Cell.plain Cell.reaches; decide), (by unfold Cell.plain Cell.reaches; decide),
     (by unfold Cell.plain Cell.reaches; decide), (by unfold Cell.plain Cell.reaches; decide),
     (by unfold Cell.plain Cell.reaches; decide), (by unfold Cell.plain Cell.reaches; decide),
     (by unfold Cell.plain Cell.reaches; decide), (by unfold Cell.plain Cell.reaches; decide), rfl, rfl,
     (by unfold Cell.plain Cell.reaches; decide), (by unfold Cell.plain Cell.reaches; decide),
     (by unfold Cell.plain Cell.reaches; decide), (by unfold Cell.plain Cell.reaches; decide),
     (by unfold Cell.plain Cell.reaches; decide), (by unfold Cell.plain Cell.reaches; decide),
     (by unfold Cell.plain Cell.reaches; decide), (by unfold Cell.plain Cell.reaches; decide), rfl, rfl,
     (by unfold Cell.plain Cell.reaches; decide)⟩

theorem witness_UnaryOperationsAndShiftsCompute :
    ((demo c0).runsOn 0 c0 ∧ regOf5 0x13#5 = some 19 ∧ pairOf5 4#5 = some 8 ∧ c0.plain (.un .inc 0x13#5) ∧
     c0.plain (.un .tst 0x13#5) ∧ c0.plain (.un .swapn 0x13#5) ∧ c0.plain (.unw .clr 4#5) ∧ c0.plain (.unw .tst 4#5) ∧
     c0.plain (.unw .zex 4#5) ∧ c0.core.byteSrc (.imm 9#8) = some 9#8 ∧ c0.plain (.sh .shl 0x13#5 (.imm 9#8)) ∧
     c0.plain (.sh .rcr 0x13#5 (.imm 9#8)) ∧ c0.plain (.shw .rcr 4#5 (.imm 9#8)) ∧ (∀ op : UnOp, c0.plain (.un op 19)) ∧
     (∀ op : UnwOp, c0.plain (.unw op 4)) ∧ (∀ op : ShOp, c0.plain (.sh op 19 (.imm 9))) ∧
     (∀ op : ShOp, c0.plain (.shw op 4 (.imm 9)))) :=
  ⟨⟨rfl, rfl, rfl⟩, rfl, rfl, (by unfold Cell.plain Cell.reaches; decide), (by unfold Cell.plain Cell.reaches; decide),
     (by unfold Cell.plain Cell.reaches; decide), (by unfold Cell.plain Cell.reaches; decide),
     (by unfold Cell.plain Cell.reaches; decide), (by unfold Cell.plain Cell.reaches; decide), rfl,
     (by unfold Cell.plain Cell.reaches; decide), (by unfold Cell.plain Cell.reaches; decide),
     (by unfold Cell.plain Cell.reaches; decide), (by intro op; cases op <;> (unfold Cell.plain Cell.reaches; decide)),
     (by intro op; cases op <;> (unfold Cell.plain Cell.reaches; decide)),
     (by intro op; cases op <;> (unfold Cell.plain Cell.reaches; decide)),
     (by intro op; cases op <;> (unfold Cell.plain Cell.reaches; decide))⟩

theorem witness_MultiplyAndDivide :
    ((demo c0).runsOn 0 c0 ∧ pairOf5 4#5 = some 8 ∧ regOf 6#8 = some 6 ∧ c0.plain (.mul false 4#5 6#8) ∧
     c0.plain (.mul true 4#5 6#8) ∧ c0.plain (.div false 4#5 6#8) ∧
     (¬(c0.core.reg 6 = 0#8 ∧ BitVec.getLsbD (c0.io.rd 0xE000) 0 = true)) ∧ c0.plain (.div true 4#5 6#8)) ∧
    ((demo cDze).runsOn 0 cDze ∧ pairOf5 4#5 = some 8 ∧ regOf 6#8 = some 6 ∧ cDze.plain (.div false 4#5 6#8) ∧
     (cDze.core.reg 6 = 0#8 ∧ BitVec.getLsbD (cDze.io.rd 0xE000) 0 = true) ∧ cDze.plain (.div true 4#5 6#8)) ∧
    (0x77#8 ≠ 0#8 ∧ (0x1234#16).toNat / (0x77#8).toNat ≤ 255) ∧
    (2#8 ≠ 0#8 ∧ 255 < (0x1234#16).toNat / (2#8).toNat) ∧
    (0x81#8 ≠ 0#8 ∧
     (¬((-128 : Int) ≤ (0x8000#16).toInt.tdiv (0x81#8).toInt ∧ (0x8000#16).toInt.tdiv (0x81#8).toInt ≤ (127 : Int))) ∧
     ((-128 : Int) ≤ (0xC234#16).toInt.tdiv (0x81#8).toInt ∧ (0xC234#16).toInt.tdiv (0x81#8).toInt ≤ (127 : Int))) :=
  ⟨⟨⟨rfl, rfl, rfl⟩, rfl, rfl, (by unfold Cell.plain Cell.reaches; decide), (by unfold Cell.plain Cell.reaches; decide),
     (by unfold Cell.plain Cell.reaches; decide), (by decide), (by unfold Cell.plain Cell.reaches; decide)⟩,
    ⟨⟨rfl, rfl, rfl⟩, rfl, rfl, (by unfold Cell.plain Cell.reaches; decide), (by decide),
     (by unfold Cell.plain Cell.reaches; decide)⟩,
    ⟨(by decide), (by decide)⟩,
    ⟨(by decide), (by decide)⟩,
    ⟨(by decide), (by decide), (by decide)⟩⟩

theorem witness_BitFieldsAndPermutation :
    ((demo c0).runsOn 0 c0 ∧
     bitField 0x84#8 7#8 0x34#8 = some { wide := false, rd := 4, rs := 7, pos := 3, width := 5 : BitField } ∧
     { wide := false, rd := 4, rs := 7, pos := 3, width := 5 : BitField }.wide = false ∧ c0.plain (.bfx 0x84#8 7#8 0x34#8) ∧
     bitField 0x44#8 6#8 0x78#8 = some { wide := true, rd := 8, rs := 12, pos := 7, width := 9 : BitField } ∧
     { wide := true, rd := 8, rs := 12, pos := 7, width := 9 : BitField }.wide = true ∧ c0.plain (.bfx 0x44#8 6#8 0x78#8) ∧
     bitField 4#8 6#8 0x34#8 = some { wide := false, rd := 4, rs := 6, pos := 3, width := 5 : BitField } ∧
     { wide := false, rd := 4, rs := 6, pos := 3, width := 5 : BitField }.wide = false ∧ c0.plain (.bfi 4#8 6#8 0x34#8) ∧
     c0.plain (.bfi 0x44#8 6#8 0x78#8) ∧ regOf5 4#5 = some 4 ∧ regOf 6#8 = some 6 ∧
     c0.plain (.clz (BitVec.setWidth 8 4#5) 6#8) ∧ pairOf 6#8 = some 12 ∧
     c0.plain (.clz (BitVec.ofNat 8 32 ||| BitVec.setWidth 8 4#5) 6#8) ∧ quadFields 0x51#8 = some (20, 4) ∧
     c0.plain (.bpermI 0x51#8 0x1B#8) ∧ regOf 3#8 = some 3 ∧ c0.plain (.bpermR 0x51#8 3#8)) :=
  ⟨⟨rfl, rfl, rfl⟩, rfl, rfl, (by unfold Cell.plain Cell.reaches; decide), rfl, rfl,
     (by unfold Cell.plain Cell.reaches; decide), rfl, rfl, (by unfold Cell.plain Cell.reaches; decide),
     (by unfold Cell.plain Cell.reaches; decide), rfl, rfl, (by unfold Cell.plain Cell.reaches; decide), rfl,
     (by unfold Cell.plain Cell.reaches; decide), rfl, (by unfold Cell.plain Cell.reaches; decide), rfl,
     (by unfold Cell.plain Cell.reaches; decide)⟩

theorem witness_MovesModesAndSpecialRegisters :
    ((demo c0).runsOn 0 c0 ∧ regOf 3#8 = some 3 ∧ c0.core.byteSrc (.imm 7#8) = some 7#8 ∧ c0.plain (.mov 3#8 (.imm 7#8)) ∧
     pairOf 2#8 = some 4 ∧ pairOf 4#8 = some 8 ∧ c0.plain (.movw 2#8 (.pair 4#8)) ∧ c0.plain (.movw 2#8 (.imm 0x1234#16)) ∧
     regOf 2#8 = some 2 ∧ regOf 0x13#8 = some 19 ∧ c0.plain (.xch 2#8 0x13#8) ∧ pairOf5 2#5 = some 4 ∧
     c0.core.ea { mode := 3#3, b2 := 0x20#8, b3 := 0#8 : MemOp } 1 (c0.core.pc + BitVec.ofNat 16
        { mode := 3#3, b2 := 0x20#8, b3 := 0#8 : MemOp }.len) = some { addr := 0#16, base := some (4, 1#16) : Ea } ∧
     c0.plain (.lea 2#5 { mode := 3#3, b2 := 0x20#8, b3 := 0#8 : MemOp }) ∧ specialField 5#8 0#8 = some 5 ∧
     specialWide (BitVec.toNat 0#8) = false ∧ c0.plain (.mfs 5#8 0#8) ∧ specialField 4#8 4#8 = some 8 ∧
     specialWide (BitVec.toNat 4#8) = true ∧ c0.plain (.mfs 4#8 4#8) ∧ c0.plain .nop ∧ c0.plain .wait ∧ c0.plain .setm ∧
     c0.plain .clrm ∧ c0.plain .usr ∧ c0.plain (.mts 0#8 5#8) ∧ specialField 5#8 2#8 = some 5 ∧
     specialWide (BitVec.toNat 2#8) = false ∧ c0.plain (.mts 2#8 5#8) ∧ specialField 5#8 9#8 = some 5 ∧
     specialWide (BitVec.toNat 9#8) = false ∧ c0.plain (.mts 9#8 5#8) ∧
     (c0.begun.core.setSpecial (BitVec.toNat 4#8) (c0.begun.core.pair 8)).lend ≠ c0.core.pc ∧ c0.plain (.mts 4#8 4#8) ∧
     specialField 4#8 6#8 = some 8 ∧ specialWide (BitVec.toNat 6#8) = true ∧
     (c0.begun.core.setSpecial (BitVec.toNat 6#8) (c0.begun.core.pair 8)).lend ≠ c0.core.pc ∧ c0.plain (.mts 6#8 4#8) ∧
     specialField 4#8 7#8 = some 8 ∧ specialWide (BitVec.toNat 7#8) = true ∧
     (c0.begun.core.setSpecial (BitVec.toNat 7#8) (c0.begun.core.pair 8)).lend ≠ c0.core.pc ∧ c0.plain (.mts 7#8 4#8)) :=
  ⟨⟨rfl, rfl, rfl⟩, rfl, rfl, (by unfold Cell.plain Cell.reaches; decide), rfl, rfl,
     (by unfold Cell.plain Cell.reaches; decide), (by unfold Cell.plain Cell.reaches; decide), rfl, rfl,
     (by unfold Cell.plain Cell.reaches; decide), rfl, rfl, (by unfold Cell.plain Cell.reaches; decide), rfl, rfl,
     (by unfold Cell.plain Cell.reaches; decide), rfl, rfl, (by unfold Cell.plain Cell.reaches; decide),
     (by unfold Cell.plain Cell.reaches; decide), (by unfold Cell.plain Cell.reaches; decide),
     (by unfold Cell.plain Cell.reaches; decide), (by unfold Cell.plain Cell.reaches; decide),
     (by unfold Cell.plain Cell.reaches; decide), (by unfold Cell.plain Cell.reaches; decide), rfl, rfl,
     (by unfold Cell.plain Cell.reaches; decide), rfl, rfl, (by unfold Cell.plain Cell.reaches; decide), (by decide),
     (by unfold Cell.plain Cell.reaches; decide), rfl, rfl, (by decide), (by unfold Cell.plain Cell.reaches; decide), rfl,
     rfl, (by decide), (by unfold Cell.plain Cell.reaches; decide)⟩

theorem witness_LoadsAndStores :
    ((demo c0).runsOn 0 c0 ∧ regOf5 3#5 = some 3 ∧
     c0.begun.core.ea { mode := 6#3, b2 := 0x34#8, b3 := 0x12#8 : MemOp } 1 (c0.core.pc + BitVec.ofNat 16
        { mode := 6#3, b2 := 0x34#8, b3 := 0x12#8 : MemOp }.len) = some { addr := 0x1234#16, base := none : Ea } ∧
     c0.refusal .read { addr := 0x1234#16, base := none : Ea }.addr = none ∧
     c0.plain (.ld 3#5 { mode := 6#3, b2 := 0x34#8, b3 := 0x12#8 : MemOp }) ∧
     (c0.begun.load { addr := 0x1234#16, base := none : Ea }.addr).snd.core.lend ≠ c0.core.pc ∧
     c0.refusal .write { addr := 0x1234#16, base := none : Ea }.addr = none ∧
     c0.plain (.st { mode := 6#3, b2 := 0x34#8, b3 := 0x12#8 : MemOp } 3#5) ∧
     (c0.begun.store { addr := 0x1234#16, base := none : Ea }.addr (c0.begun.core.reg 3)).core.lend ≠ c0.core.pc ∧
     pairOf5 4#5 = some 8 ∧
     c0.begun.core.ea { mode := 3#3, b2 := 0x20#8, b3 := 0#8 : MemOp } 2 (c0.core.pc + BitVec.ofNat 16
        { mode := 3#3, b2 := 0x20#8, b3 := 0#8 : MemOp }.len) = some { addr := 0#16, base := some (4, 2#16) : Ea } ∧
     c0.refusalN .read { addr := 0#16, base := some (4, 2#16) : Ea }.addr 2 = none ∧
     c0.plain (.ldw 4#5 { mode := 3#3, b2 := 0x20#8, b3 := 0#8 : MemOp }) ∧
     (c0.begun.loadPair { addr := 0#16, base := some (4, 2#16) : Ea }.addr).snd.core.lend ≠ c0.core.pc ∧
     c0.begun.core.ea { mode := 4#3, b2 := 0x40#8, b3 := 0#8 : MemOp } 2 (c0.core.pc + BitVec.ofNat 16
        { mode := 4#3, b2 := 0x40#8, b3 := 0#8 : MemOp }.len) = some
        { addr := 0xFFFE#16, base := some (8, 0xFFFE#16) : Ea } ∧
     c0.refusalN .write { addr := 0xFFFE#16, base := some (8, 0xFFFE#16) : Ea }.addr 2 = none ∧
     c0.plain (.stw { mode := 4#3, b2 := 0x40#8, b3 := 0#8 : MemOp } 4#5) ∧
     (c0.begun.storePair { addr := 0xFFFE#16, base := some (8, 0xFFFE#16) : Ea }.addr (c0.begun.core.pair 8)).core.lend
        ≠ c0.core.pc ∧
     regOf 4#8 = some 4 ∧ c0.refusal .write (c0.begun.core.sp - 1#16) = none ∧ c0.plain (.push 4#8) ∧
     (c0.begun.store (c0.begun.core.sp - 1#16) (c0.begun.core.reg 4)).core.lend ≠ c0.core.pc ∧
     c0.refusal .read c0.begun.core.sp = none ∧ c0.plain (.pop 4#8) ∧
     (c0.begun.load c0.begun.core.sp).snd.core.lend ≠ c0.core.pc ∧ pairOf 4#8 = some 8 ∧
     c0.refusalN .write (c0.begun.core.sp - 2#16) 2 = none ∧ c0.plain (.pushw 4#8) ∧
     (c0.begun.storePair (c0.begun.core.sp - 2#16) (c0.begun.core.pair 8)).core.lend ≠ c0.core.pc ∧
     c0.refusalN .read c0.begun.core.sp 2 = none ∧ c0.plain (.popw 4#8) ∧
     (c0.begun.loadPair c0.begun.core.sp).snd.core.lend ≠ c0.core.pc) :=
  ⟨⟨rfl, rfl, rfl⟩, rfl, rfl, rfl, (by unfold Cell.plain Cell.reaches; decide), (by decide), rfl,
     (by unfold Cell.plain Cell.reaches; decide), (by decide), rfl, rfl, rfl, (by unfold Cell.plain Cell.reaches; decide),
     (by decide), rfl, rfl, (by unfold Cell.plain Cell.reaches; decide), (by decide), rfl, rfl,
     (by unfold Cell.plain Cell.reaches; decide), (by decide), rfl, (by unfold Cell.plain Cell.reaches; decide), (by decide),
     rfl, rfl, (by unfold Cell.plain Cell.reaches; decide), (by decide), rfl, (by unfold Cell.plain Cell.reaches; decide),
     (by decide)⟩

theorem witness_JumpsBranchesAndLoops :
    ((demo c0).runsOn 0 c0 ∧ c0.plain (.jmp (JumpDst.rel 0xFF00#16)) ∧ pairOf 4#8 = some 8 ∧
     c0.plain (.jmp (JumpDst.pair 4#8)) ∧ c0.plain (.jmp (JumpDst.abs 0x1234#16)) ∧ c0.begun.core.wres < 18 ∧
     c0.plain (.call (JumpDst.rel 0x1234#16)) ∧ c0.plain (.call (JumpDst.pair 4#8)) ∧
     c0.plain (.call (JumpDst.abs 0x1234#16)) ∧ c0.plain (.bcc 0#4 0x80#8) ∧
     [true, false, c0.begun.core.flagZ, !c0.begun.core.flagZ, c0.begun.core.flagC, !c0.begun.core.flagC,
        c0.begun.core.flagN, !c0.begun.core.flagN, c0.begun.core.flagV, !c0.begun.core.flagV, !c0.begun.core.flagC &&
        !c0.begun.core.flagZ, c0.begun.core.flagC || c0.begun.core.flagZ, c0.begun.core.flagN == c0.begun.core.flagV,
        c0.begun.core.flagN != c0.begun.core.flagV, !c0.begun.core.flagZ && c0.begun.core.flagN == c0.begun.core.flagV,
        c0.begun.core.flagZ || c0.begun.core.flagN != c0.begun.core.flagV].getD (BitVec.toNat 0#4) false = true ∧
     c0.plain (.bcc 1#4 0x80#8) ∧
     [true, false, c0.begun.core.flagZ, !c0.begun.core.flagZ, c0.begun.core.flagC, !c0.begun.core.flagC,
        c0.begun.core.flagN, !c0.begun.core.flagN, c0.begun.core.flagV, !c0.begun.core.flagV, !c0.begun.core.flagC &&
        !c0.begun.core.flagZ, c0.begun.core.flagC || c0.begun.core.flagZ, c0.begun.core.flagN == c0.begun.core.flagV,
        c0.begun.core.flagN != c0.begun.core.flagV, !c0.begun.core.flagZ && c0.begun.core.flagN == c0.begun.core.flagV,
        c0.begun.core.flagZ || c0.begun.core.flagN != c0.begun.core.flagV].getD (BitVec.toNat 1#4) false = false ∧
     c0.plain (.bccL 0x30#8 0x80#16) ∧
     [true, false, c0.begun.core.flagZ, !c0.begun.core.flagZ, c0.begun.core.flagC, !c0.begun.core.flagC,
        c0.begun.core.flagN, !c0.begun.core.flagN, c0.begun.core.flagV, !c0.begun.core.flagV, !c0.begun.core.flagC &&
        !c0.begun.core.flagZ, c0.begun.core.flagC || c0.begun.core.flagZ, c0.begun.core.flagN == c0.begun.core.flagV,
        c0.begun.core.flagN != c0.begun.core.flagV, !c0.begun.core.flagZ && c0.begun.core.flagN == c0.begun.core.flagV,
        c0.begun.core.flagZ || c0.begun.core.flagN != c0.begun.core.flagV].getD (BitVec.toNat 0x30#8 / 16) false = true ∧
     c0.plain (.bccL 0x20#8 0x80#16) ∧
     [true, false, c0.begun.core.flagZ, !c0.begun.core.flagZ, c0.begun.core.flagC, !c0.begun.core.flagC,
        c0.begun.core.flagN, !c0.begun.core.flagN, c0.begun.core.flagV, !c0.begun.core.flagV, !c0.begun.core.flagC &&
        !c0.begun.core.flagZ, c0.begun.core.flagC || c0.begun.core.flagZ, c0.begun.core.flagN == c0.begun.core.flagV,
        c0.begun.core.flagN != c0.begun.core.flagV, !c0.begun.core.flagZ && c0.begun.core.flagN == c0.begun.core.flagV,
        c0.begun.core.flagZ || c0.begun.core.flagN != c0.begun.core.flagV].getD (BitVec.toNat 0x20#8 / 16) false = false
        ∧
     c0.plain (.loop (LoopCount.imm 5#16) 4#8) ∧ c0.plain (.loop (LoopCount.pair 4#8) 8#8)) ∧
    ((demo cW).runsOn 0 cW ∧ 1 < cW.begun.core.wres ∧ cW.plain .ret) ∧
    ((demo cSlot).runsOn 0 cSlot ∧
     cSlot.core.slot = some { target := 0x3000#16, jumpPc := 0xFD#16, kind := JumpKind.ret : Slot } ∧ cSlot.executes = true ∧
     cSlot.paced = false ∧ (¬(cSlot.core.looping = true ∧ cSlot.core.pc = cSlot.begun.core.lend)) ∧
     cSlot.refusal .fetch cSlot.core.pc = none) ∧
    ((demo cLoop).runsOn 0 cLoop ∧ cLoop.executes = true ∧ cLoop.haltDue .nop = false ∧ cLoop.interruptDue = false ∧
     cLoop.paced = false ∧ cLoop.core.slot = none ∧ cLoop.refusal .fetch cLoop.core.pc = none ∧ cLoop.core.looping = true ∧
     cLoop.begun.core.lend = cLoop.core.pc ∧ cLoop.begun.core.lcnt ≠ 1#16) ∧
    ((demo cLoop1).runsOn 0 cLoop1 ∧ cLoop1.executes = true ∧ cLoop1.haltDue .nop = false ∧ cLoop1.interruptDue = false ∧
     cLoop1.paced = false ∧ cLoop1.core.slot = none ∧ cLoop1.refusal .fetch cLoop1.core.pc = none ∧
     cLoop1.core.looping = true ∧ cLoop1.begun.core.lend = cLoop1.core.pc ∧ cLoop1.begun.core.lcnt = 1#16) :=
  ⟨⟨⟨rfl, rfl, rfl⟩, (by unfold Cell.plain Cell.reaches; decide), rfl, (by unfold Cell.plain Cell.reaches; decide),
     (by unfold Cell.plain Cell.reaches; decide), (by decide), (by unfold Cell.plain Cell.reaches; decide),
     (by unfold Cell.plain Cell.reaches; decide), (by unfold Cell.plain Cell.reaches; decide),
     (by unfold Cell.plain Cell.reaches; decide), rfl, (by unfold Cell.plain Cell.reaches; decide), rfl,
     (by unfold Cell.plain Cell.reaches; decide), rfl, (by unfold Cell.plain Cell.reaches; decide), rfl,
     (by unfold Cell.plain Cell.reaches; decide), (by unfold Cell.plain Cell.reaches; decide)⟩,
    ⟨⟨rfl, rfl, rfl⟩, (by decide), (by unfold Cell.plain Cell.reaches; decide)⟩,
    ⟨⟨rfl, rfl, rfl⟩, rfl, rfl, rfl, (by decide), rfl⟩,
    ⟨⟨rfl, rfl, rfl⟩, rfl, rfl, rfl, rfl, rfl, rfl, rfl, rfl, (by decide)⟩,
    ⟨⟨rfl, rfl, rfl⟩, rfl, rfl, rfl, rfl, rfl, rfl, rfl, rfl, rfl⟩⟩

theorem witness_WindowSpillAndFill :
    ((demo cW).runsOn 0 cW ∧ cW.plain (.spillw 1#8) ∧ cW.refusalN .write (cW.begun.core.stackOf 1#8 - 0xC#16) 12 = none ∧
     (spillStores cW.begun (cW.begun.core.stackOf 1#8 - 0xC#16) cW.begun.core.baseIndex 12).core.lend ≠ cW.core.pc ∧
     cW.plain (.fillw 1#8) ∧ cW.refusalN .read (cW.begun.core.stackOf 1#8) 12 = none ∧
     (fillLoads cW.begun (cW.begun.core.stackOf 1#8) ((cW.begun.core.baseIndex + 228) % 240) 12).core.lend ≠ cW.core.pc ∧
     cW.plain (.spillw 0#8) ∧ cW.refusalN .write (cW.begun.core.stackOf 0#8 - 0xC#16) 12 = none ∧
     (spillStores cW.begun (cW.begun.core.stackOf 0#8 - 0xC#16) cW.begun.core.baseIndex 12).core.lend ≠ cW.core.pc ∧
     cW.plain (.fillw 0#8) ∧ cW.refusalN .read (cW.begun.core.stackOf 0#8) 12 = none ∧
     (fillLoads cW.begun (cW.begun.core.stackOf 0#8) ((cW.begun.core.baseIndex + 228) % 240) 12).core.lend ≠ cW.core.pc) :=
  ⟨⟨rfl, rfl, rfl⟩, (by unfold Cell.plain Cell.reaches; decide), rfl, (by decide),
     (by unfold Cell.plain Cell.reaches; decide), rfl, (by decide), (by unfold Cell.plain Cell.reaches; decide), rfl,
     (by decide), (by unfold Cell.plain Cell.reaches; decide), rfl, (by decide)⟩

theorem witness_MemoryFormsAndUopsComplete :
    ((demo cMem).runsOn 0 cMem ∧ regOf5 4#5 = some 4 ∧
     cMem.begun.core.ea { mode := 6#3, b2 := 0x34#8, b3 := 0x12#8 : MemOp } 1 (cMem.core.pc + BitVec.ofNat 16
        { mode := 6#3, b2 := 0x34#8, b3 := 0x12#8 : MemOp }.len) = some { addr := 0x1234#16, base := none : Ea } ∧
     cMem.place { addr := 0x1234#16, base := none : Ea }.addr = Place.mem 0x1234 ∧
     cMem.plain (.ld 4#5 { mode := 6#3, b2 := 0x34#8, b3 := 0x12#8 : MemOp }) ∧
     cMem.refusal .read { addr := 0x1234#16, base := none : Ea }.addr = none ∧
     cMem.plain (.st { mode := 6#3, b2 := 0x34#8, b3 := 0x12#8 : MemOp } 4#5) ∧
     cMem.refusal .write { addr := 0x1234#16, base := none : Ea }.addr = none ∧ pairOf5 4#5 = some 8 ∧
     cMem.begun.core.ea { mode := 3#3, b2 := 0x20#8, b3 := 0#8 : MemOp } 2 (cMem.core.pc + BitVec.ofNat 16
        { mode := 3#3, b2 := 0x20#8, b3 := 0#8 : MemOp }.len) = some
        { addr := 0x2400#16, base := some (4, 0x2402#16) : Ea } ∧
     cMem.place { addr := 0x2400#16, base := some (4, 0x2402#16) : Ea }.addr = Place.mem 0x2400 ∧
     cMem.place ({ addr := 0x2400#16, base := some (4, 0x2402#16) : Ea }.addr + 1#16) = Place.mem 0x2401 ∧
     cMem.plain (.ldw 4#5 { mode := 3#3, b2 := 0x20#8, b3 := 0#8 : MemOp }) ∧
     cMem.refusal .read { addr := 0x2400#16, base := some (4, 0x2402#16) : Ea }.addr = none ∧
     cMem.refusal .read ({ addr := 0x2400#16, base := some (4, 0x2402#16) : Ea }.addr + 1#16) = none ∧
     cMem.plain (.stw { mode := 3#3, b2 := 0x20#8, b3 := 0#8 : MemOp } 4#5) ∧
     cMem.refusal .write { addr := 0x2400#16, base := some (4, 0x2402#16) : Ea }.addr = none ∧
     cMem.refusal .write ({ addr := 0x2400#16, base := some (4, 0x2402#16) : Ea }.addr + 1#16) = none ∧ regOf 4#8 = some 4 ∧
     cMem.plain (.push 4#8) ∧ cMem.place (cMem.begun.core.sp - 1#16) = Place.mem 0x3FFF ∧
     cMem.refusal .write (cMem.begun.core.sp - 1#16) = none ∧ cMem.plain (.pop 4#8) ∧
     cMem.place cMem.begun.core.sp = Place.mem 0 ∧ cMem.refusal .read cMem.begun.core.sp = none ∧ pairOf 4#8 = some 8 ∧
     cMem.plain (.pushw 4#8) ∧ cMem.place (cMem.begun.core.sp - 2#16) = Place.mem 0x3FFE ∧
     cMem.refusal .write (cMem.begun.core.sp - 2#16) = none ∧ cMem.plain (.popw 4#8) ∧
     cMem.place (cMem.begun.core.sp + 1#16) = Place.mem 1 ∧ cMem.refusal .read (cMem.begun.core.sp + 1#16) = none) ∧
    ((demo cU2).runsOn 0 cU2 ∧ cU2.plain (.uop 0#5 1#8 2#8 3#8) ∧
     cU2.begun.core.microcode.rdN (4 * (BitVec.extractLsb' 0 10 (cU2.begun.core.decodeEntry (BitVec.toNat 0#5))).toNat)
        4 = 5 * 0x40000 + 4 * 0x2000 + 9 * 256 ∧
     cU2.begun.core.microcode.rdN (4 * (((BitVec.extractLsb' 0 10 (cU2.begun.core.decodeEntry (BitVec.toNat 0#5))).toNat
        + 1) % 0x400)) 4 = 0x70000000) ∧
    ((demo cU1).runsOn 0 cU1 ∧ cU1.plain (.uop 0#5 1#8 2#8 3#8) ∧
     cU1.begun.core.microcode.rdN (4 * (BitVec.extractLsb' 0 10 (cU1.begun.core.decodeEntry (BitVec.toNat 0#5))).toNat)
        4 = 5 * 0x40000 + 4 * 0x2000 + 9 * 256 ∧
     cU1.begun.core.microcode.rdN (4 * (((BitVec.extractLsb' 0 10 (cU1.begun.core.decodeEntry (BitVec.toNat 0#5))).toNat
        + 1) % 0x400)) 4 = 0x70000000) :=
  ⟨⟨⟨rfl, rfl, rfl⟩, rfl, rfl, rfl, (by unfold Cell.plain Cell.reaches; decide), rfl,
     (by unfold Cell.plain Cell.reaches; decide), rfl, rfl, rfl, rfl, rfl, (by unfold Cell.plain Cell.reaches; decide), rfl,
     rfl, (by unfold Cell.plain Cell.reaches; decide), rfl, rfl, rfl, (by unfold Cell.plain Cell.reaches; decide), rfl, rfl,
     (by unfold Cell.plain Cell.reaches; decide), rfl, rfl, rfl, (by unfold Cell.plain Cell.reaches; decide), rfl, rfl,
     (by unfold Cell.plain Cell.reaches; decide), rfl, rfl⟩,
    ⟨⟨rfl, rfl, rfl⟩, (by unfold Cell.plain Cell.reaches; decide), rfl, rfl⟩,
    ⟨⟨rfl, rfl, rfl⟩, (by unfold Cell.plain Cell.reaches; decide), rfl, rfl⟩⟩

end Core

namespace CoreMore

def c0 := demoCell []
def gset (c : Cell) (l : List (Nat × Byte)) : Cell := { c with core := { c.core with g := l } }
def cB : Cell := { gset c0 [(1, 0x10), (3, 0x20), (4, 3)] with mem := [(0x1000, 1), (0x1001, 2), (0x2000, 1), (0x2001, 9)] }
def bres (op : BlockOp) (b1 : Byte) (stop : Option Nat) (c : Cell) : Cell × Nat :=
  match blockRun op (b1.getLsbD 0) stop (c.core.pair 4).toNat 0 c.begun with
  | .ended c n => (c, n) | .stopped c n => (c, n) | .fault c _ n => (c, n)
def cLk : Cell := { c0 with core := { c0.core with wres := 19 } }
def cIo : Cell := { c0 with core := { c0.core with ssp := 0xE004 } }
def cR : Cell := { c0 with core := { c0.core with wres := 2, cwp := 1, ssp := 0x7FFC } }
def cU : Cell := { c0 with core := { c0.core with status := 0x80#8, usp := 0x7000#16 } }
def cW18 : Cell := { c0 with core := { c0.core with wres := 18, cwp := 17 } }
def cUop : Cell := { c0 with core := { c0.core with decodeTable := [(1, 0x90)], microcode := [(3, 0x70)] } }
def udone (c : Cell) (n : Nat) (b : Byte) (nx : Half) : Done := match runUop c.begun n b b b nx with | .done d => d | .fault c _ _ _ => { cell := c, next := 0, cycles := 0 }
def cInt (c : Cell) : Cell := { c with intc := { c.intc with pend := 1#48 <<< 43 }, io := [(0xE16B, 0x80)], core := { c.core with status := 0x40 } }
def cI := cInt c0
def cIw : Cell := { cI with core := { cI.core with waiting := true } }
def cIm : Cell := { cI with core := { cI.core with waiting := true, status := 0xC0 } }
def cH : Cell := { c0 with core := { c0.core with haltRequest := true } }
def cBp : Cell := { c0 with breakpoints := [0x100] }
def cP : Cell := demoCell [(0xE082, 3), (0xE083, 9)]
def cLck : Cell := demoCell [(0xE040, 0x80)]

theorem witness_BlockInstructionsStep :
    ((demo cB).runsOn 0 cB ∧ (bres BlockOp.mvb 0#8 none cB).fst.core.lend ≠ cB.core.pc ∧ cB.plain (.mvb 0#8) ∧
     blockRun BlockOp.mvb (BitVec.getLsbD 0#8 0) none (BitVec.toNat (cB.core.pair 4)) 0 cB.begun = BlockEnd.ended (bres
        BlockOp.mvb 0#8 none cB).fst (bres BlockOp.mvb 0#8 none cB).snd ∧
     (bres BlockOp.mvb 1#8 none cB).fst.core.lend ≠ cB.core.pc ∧ cB.plain (.mvb 1#8) ∧
     blockRun BlockOp.mvb (BitVec.getLsbD 1#8 0) none (BitVec.toNat (cB.core.pair 4)) 0 cB.begun = BlockEnd.ended (bres
        BlockOp.mvb 1#8 none cB).fst (bres BlockOp.mvb 1#8 none cB).snd ∧
     (bres BlockOp.cmb 0#8 none cB).fst.core.lend ≠ cB.core.pc ∧ cB.plain (.cmb 0#8) ∧
     blockRun BlockOp.cmb (BitVec.getLsbD 0#8 0) none (BitVec.toNat (cB.core.pair 4)) 0 cB.begun = BlockEnd.ended (bres
        BlockOp.cmb 0#8 none cB).fst (bres BlockOp.cmb 0#8 none cB).snd ∧
     (bres BlockOp.flb 0#8 none cB).fst.core.lend ≠ cB.core.pc ∧ cB.plain (.flb 0#8) ∧
     blockRun BlockOp.flb (BitVec.getLsbD 0#8 0) none (BitVec.toNat (cB.core.pair 4)) 0 cB.begun = BlockEnd.ended (bres
        BlockOp.flb 0#8 none cB).fst (bres BlockOp.flb 0#8 none cB).snd ∧
     (bres BlockOp.mvb 0#8 (some 1) cB).fst.core.lend ≠ cB.core.pc ∧
     blockRun BlockOp.mvb (BitVec.getLsbD 0#8 0) (some 1) (BitVec.toNat (cB.core.pair 4)) 0 cB.begun = BlockEnd.stopped
        (bres BlockOp.mvb 0#8 (some 1) cB).fst (bres BlockOp.mvb 0#8 (some 1) cB).snd ∧
     (bres BlockOp.cmb 0#8 (some 1) cB).fst.core.lend ≠ cB.core.pc ∧
     blockRun BlockOp.cmb (BitVec.getLsbD 0#8 0) (some 1) (BitVec.toNat (cB.core.pair 4)) 0 cB.begun = BlockEnd.stopped
        (bres BlockOp.cmb 0#8 (some 1) cB).fst (bres BlockOp.cmb 0#8 (some 1) cB).snd ∧
     (bres BlockOp.flb 0#8 (some 1) cB).fst.core.lend ≠ cB.core.pc ∧
     blockRun BlockOp.flb (BitVec.getLsbD 0#8 0) (some 1) (BitVec.toNat (cB.core.pair 4)) 0 cB.begun = BlockEnd.stopped
        (bres BlockOp.flb 0#8 (some 1) cB).fst (bres BlockOp.flb 0#8 (some 1) cB).snd) ∧
    (cB.core.g.wf = true) :=
  ⟨⟨⟨rfl, rfl, rfl⟩, (by decide), (by unfold Cell.plain Cell.reaches; decide), rfl, (by decide),
     (by unfold Cell.plain Cell.reaches; decide), rfl, (by decide), (by unfold Cell.plain Cell.reaches; decide), rfl,
     (by decide), (by unfold Cell.plain Cell.reaches; decide), rfl, (by decide), rfl, (by decide), rfl, (by decide), rfl⟩,
    rfl⟩

theorem witness_ExceptionsEnterAndReturn :
    (c0.core.wres < 19 ∧ c0.place (c0.core.ssp - 1#16) = Place.mem 0x3FFF ∧ c0.place (c0.core.ssp - 2#16) = Place.mem 0x3FFE ∧
     c0.place (c0.core.ssp - 3#16) = Place.mem 0x3FFD ∧ c0.place (c0.core.ssp - 4#16) = Place.mem 0x3FFC ∧
     c0.frameFault (c0.core.ssp - 1#16) = none ∧ c0.frameFault (c0.core.ssp - 2#16) = none ∧
     c0.frameFault (c0.core.ssp - 3#16) = none ∧ c0.frameFault (c0.core.ssp - 4#16) = none ∧
     ((((((c0.mem.wr 0x3FFF c0.core.status).wr 0x3FFE (BitVec.extractLsb' 8 8 0x1234#16)).wr 0x3FFD (BitVec.setWidth 8
        0x1234#16)).wr 0x3FFC 0#8).rd (0x7FE01 + 2 * 40) ++ ((((c0.mem.wr 0x3FFF c0.core.status).wr 0x3FFE
        (BitVec.extractLsb' 8 8 0x1234#16)).wr 0x3FFD (BitVec.setWidth 8 0x1234#16)).wr 0x3FFC 0#8).rd (0x7FE00 + 2 *
        40)).toNat < 0xE000 ∨ 0xF000 ≤ (((((c0.mem.wr 0x3FFF c0.core.status).wr 0x3FFE (BitVec.extractLsb' 8 8
        0x1234#16)).wr 0x3FFD (BitVec.setWidth 8 0x1234#16)).wr 0x3FFC 0#8).rd (0x7FE01 + 2 * 40) ++ ((((c0.mem.wr 0x3FFF
        c0.core.status).wr 0x3FFE (BitVec.extractLsb' 8 8 0x1234#16)).wr 0x3FFD (BitVec.setWidth 8 0x1234#16)).wr 0x3FFC
        0#8).rd (0x7FE00 + 2 * 40)).toNat)) ∧
    (19 ≤ cLk.core.wres) ∧
    (cIo.core.wres < 19 ∧ cIo.frameFault (cIo.core.ssp - 1#16) = some 2) ∧
    ((demo c0).runsOn 0 c0 ∧ c0.plain (.trap 0x7F#8)) ∧
    ((demo cR).runsOn 0 cR ∧ cR.plain .rte ∧ 1 < cR.begun.core.wres ∧ cR.refusalN .fetch (cR.begun.core.ssp + 1#16) 3 = none ∧
     cR.place (cR.begun.core.ssp + 1#16) = Place.mem 0x3FFD ∧ cR.place (cR.begun.core.ssp + 2#16) = Place.mem 0x3FFE ∧
     cR.place (cR.begun.core.ssp + 3#16) = Place.mem 0x3FFF) :=
  ⟨⟨(by decide), rfl, rfl, rfl, rfl, rfl, rfl, rfl, rfl, (by decide)⟩,
    (by decide),
    ⟨(by decide), rfl⟩,
    ⟨⟨rfl, rfl, rfl⟩, (by unfold Cell.plain Cell.reaches; decide)⟩,
    ⟨⟨rfl, rfl, rfl⟩, (by unfold Cell.plain Cell.reaches; decide), (by decide), rfl, rfl, rfl, rfl⟩⟩

theorem witness_FaultsChangeNothing :
    ((demo c0).runsOn 0 c0 ∧ c0.reaches (decodeVoleth 7#8 0#8 0#8 0#8) ∧
     c0.core.illegal (decodeVoleth 7#8 0#8 0#8 0#8) = true ∧ c0.reaches (decodeVoleth 0xFF#8 0#8 0#8 0#8) ∧
     c0.core.illegal (decodeVoleth 0xFF#8 0#8 0#8 0#8) = true ∧ c0.reaches (decodeVoleth 0x2D#8 0xF0#8 0#8 0#8) ∧
     c0.core.illegal (decodeVoleth 0x2D#8 0xF0#8 0#8 0#8) = true ∧ c0.reaches (.mvb 2#8) ∧ c0.core.illegal (.mvb 2#8) = true ∧
     c0.reaches (.clz 0x80#8 0#8) ∧ c0.core.illegal (.clz 0x80#8 0#8) = true ∧ c0.core.wres ≤ 1 ∧ c0.plain .ret) ∧
    ((demo cU).runsOn 0 cU ∧ cU.core.supervisor = false ∧ cU.reaches .setm ∧ cU.reaches .clrm ∧ cU.reaches .usr ∧
     cU.reaches .wait ∧ cU.reaches .rte ∧ BitVec.toNat 1#8 < 2 ∧ cU.reaches (.spillw 1#8) ∧ cU.reaches (.fillw 1#8)) ∧
    ((demo cW18).runsOn 0 cW18 ∧ 18 ≤ cW18.core.wres ∧ cW18.plain (.call (JumpDst.abs 0x10#16))) :=
  ⟨⟨⟨rfl, rfl, rfl⟩, (by unfold Cell.reaches; decide), rfl, (by unfold Cell.reaches; decide), rfl,
     (by unfold Cell.reaches; decide), rfl, (by unfold Cell.reaches; decide), rfl, (by unfold Cell.reaches; decide), rfl,
     (by decide), (by unfold Cell.plain Cell.reaches; decide)⟩,
    ⟨⟨rfl, rfl, rfl⟩, rfl, (by unfold Cell.reaches; decide), (by unfold Cell.reaches; decide),
     (by unfold Cell.reaches; decide), (by unfold Cell.reaches; decide), (by unfold Cell.reaches; decide), (by decide),
     (by unfold Cell.reaches; decide), (by unfold Cell.reaches; decide)⟩,
    ⟨⟨rfl, rfl, rfl⟩, (by decide), (by unfold Cell.plain Cell.reaches; decide)⟩⟩

theorem witness_CustomerOpcodesRun :
    ((demo cUop).runsOn 0 cUop ∧ cUop.plain (.uop 0#5 0#8 0#8 0#8) ∧
     runUop cUop.begun (BitVec.toNat 0#5) 0#8 0#8 0#8 (cUop.core.pc + BitVec.ofNat 16 ((BitVec.extractLsb' 12 2
        (cUop.begun.core.decodeEntry (BitVec.toNat 0#5))).toNat + 1)) = Ran.done (udone cUop 0 0#8 0x102#16) ∧
     (udone cUop 0 0#8 0x102#16).trap = none ∧ (udone cUop 0 0#8 0x102#16).cell.core.lend ≠ cUop.core.pc ∧
     cUop.begun.core.microcode.rdN (4 * (BitVec.extractLsb' 0 10 (cUop.begun.core.decodeEntry (BitVec.toNat
        0#5))).toNat) 4 = 0x70000000) :=
  ⟨⟨rfl, rfl, rfl⟩, (by unfold Cell.plain Cell.reaches; decide), rfl, rfl, (by decide), rfl⟩

theorem witness_CoreEvents :
    ((demo cI).runsOn 0 cI ∧ cI.core.wres < 19 ∧ cI.paced = false ∧ cI.executes = true ∧ cI.core.haltRequest = false ∧
     cI.core.masked = false ∧ cI.core.slot = none ∧ cI.core.shadow = false ∧ cI.deliverable false = some 43) ∧
    ((demo cIw).runsOn 0 cIw ∧ cIw.core.wres < 19 ∧ cIw.paced = false ∧ cIw.coreOn = true ∧ cIw.core.waiting = true ∧
     cIw.core.lockup = false ∧ cIw.core.debugHalt = false ∧ cIw.core.haltRequest = false ∧ cIw.deliverable true = some 43 ∧
     cIw.core.masked = false) ∧
    ((demo cIm).runsOn 0 cIm ∧ cIm.core.wres < 19 ∧ cIm.paced = false ∧ cIm.coreOn = true ∧ cIm.core.waiting = true ∧
     cIm.core.lockup = false ∧ cIm.core.debugHalt = false ∧ cIm.core.haltRequest = false ∧ cIm.deliverable true = some 43 ∧
     cIm.core.masked = true) ∧
    ((demo cH).runsOn 0 cH ∧ cH.coreOn = true ∧ cH.core.haltRequest = true ∧ cH.core.slot = none ∧ cH.core.shadow = false ∧
     cH.core.lockup = false) ∧
    ((demo cBp).runsOn 0 cBp ∧ cBp.executes = true ∧ cBp.core.slot = none ∧ cBp.core.shadow = false ∧
     cBp.interruptDue = false ∧ cBp.core.resumeAt ≠ some cBp.core.pc) :=
  ⟨⟨⟨rfl, rfl, rfl⟩, (by decide), rfl, rfl, rfl, rfl, rfl, rfl, rfl⟩,
    ⟨⟨rfl, rfl, rfl⟩, (by decide), rfl, rfl, rfl, rfl, rfl, rfl, rfl, rfl⟩,
    ⟨⟨rfl, rfl, rfl⟩, (by decide), rfl, rfl, rfl, rfl, rfl, rfl, rfl, rfl⟩,
    ⟨⟨rfl, rfl, rfl⟩, rfl, rfl, rfl, rfl, rfl⟩,
    ⟨⟨rfl, rfl, rfl⟩, rfl, rfl, rfl, rfl, (by decide)⟩⟩

theorem witness_TablesAndPaceAreWritten :
    ((demo c0).runsOn 0 c0 ∧ c0.io.bit 0xE040 7 = false) ∧
    ((demo cP).runsOn 0 cP ∧ cP.io.bit 0xE040 7 = false ∧ 9#8 ≠ 0#8 ∧ BitVec.toNat 9#8 ≤ BitVec.toNat (cP.io.rd 0xE083) ∧
     cP.io.rd 0xE082 ≠ 0#8 ∧ BitVec.toNat (cP.io.rd 0xE082) ≤ BitVec.toNat 9#8 ∧ cP.io.bit 0xE080 0 = false ∧
     BitVec.getLsbD 9#8 0 = true) ∧
    ((demo cLck).runsOn 0 cLck ∧ cLck.io.bit 0xE040 7 = true) :=
  ⟨⟨⟨rfl, rfl, rfl⟩, rfl⟩,
    ⟨⟨rfl, rfl, rfl⟩, rfl, (by decide), (by decide), (by decide), (by decide), rfl, rfl⟩,
    ⟨⟨rfl, rfl, rfl⟩, rfl⟩⟩

end CoreMore

namespace Time

def tcur (n : Nat) (l : List (Nat × Byte)) (f : Timer → Timer) (io : Bytes) : Cell := let c := demoCell io; c.setTimer n (f { c.timer n with cur := l })
def cT := tcur 3 [(4, 5)] (fun t => { t with count := 2 }) [(0xE264, 9)]
def cTw := tcur 3 [(4, 5)] (fun t => { t with count := 5 }) [(0xE264, 9), (0xE27B, 0x54), (0xE27C, 1)]
def cTr := tcur 3 [(4, 5)] (fun t => { t with count := 5, resync := true }) [(0xE264, 9)]
def cTd : Cell := let c := tcur 3 [(4, 5), (0xC, 1), (0xF, 1)] (fun t => { t with count := 2, from_ := 3 }) [(0xE264, 9)]; { c with beam := { c.beam with ctime := 40 } }
def cTe : Cell := tcur 3 [(4, 5), (0xC, 3), (0xF, 1)] (fun t => { t with count := 5, events := 4 }) [(0xE264, 9)]
def cTz : Cell := tcur 3 [(4, 5), (0xC, 4)] (fun t => { t with count := 5, events := 0 }) [(0xE264, 9)]
def cTm (m : Byte) := tcur 0 [(4, 5)] (fun t => { t with count := 5, freshA := true, freshB := true }) [(0xE210, 5), (0xE214, 5), (0xE21A, m), (0xE21B, 0xA8)]
def cTm2 (m : Byte) := tcur 0 [(4, 5)] (fun t => { t with count := 5, freshA := true, freshB := true }) [(0xE210, 5), (0xE214, 6), (0xE21A, m), (0xE21B, 0xA8)]
def cTc := tcur 0 [(4, 5)] (fun t => { t with count := 0x12345, capA := 2 }) [(0xE218, 0x88)]
def cTc0 := tcur 0 [(4, 5)] (fun t => { t with count := 0x12345, capA := 0 }) [(0xE218, 0x88)]
def cTp := tcur 0 [(4, 5)] (fun t => { t with count := 0x12345, pendA := some 4, capA := 1 }) [(0xE218, 0x88)]
def atc (c : Cell) (n : Nat) : Cell := (c.atCount n).getD c
def cE : Cell := { demoCell [(0xE18E+0x10, 3), (0xE19B, 3)] with intc := { pend := 0, request := 0, active := 1 <<< 47, holds := [⟨43, 2, 0⟩, ⟨44, 1, 0⟩] } }
def cN (f : Cell → Cell) : Cell := f { demoCell [(0xE16F, 0xC0), (0xE1E0, 0x80), (0xE31E, 1), (0xE31F, 0x80)] with core := { (demoCell []).core with waiting := true }, beam := { castBeam with frame := 4, boundary := true } }
def nN : Nap := { napping := true, pins := 0x8000, timers := 0, evq := false, line := false }
def given1 := demo (cN fun c => { c with blitter := { c.blitter with phase := .run } })
def given2 := cN fun c => { c with blitter := { c.blitter with phase := .run } }
def given3 := demo (cN fun c => { c with dma := c.dma.map fun d => { d with phase := .moving } })
def given4 := cN fun c => { c with dma := c.dma.map fun d => { d with phase := .moving } }
def given5 := demo (cN fun c => { c with nap := nN })
def given6 := cN fun c => { c with nap := nN }

set_option maxRecDepth 8000 in
theorem witness_TimersCountAndCompare :
    ((demo cT).runsOn 0 cT ∧ 3 < (atc cT 3).timers.length ∧ (atc cT 3).io.wf = true ∧ cT.atCount 3 = some (atc cT 3) ∧
     (cT.timer 3).count = ((atc cT 3).timer 3).count ∧ (cT.timer 3).reload = ((atc cT 3).timer 3).reload ∧
     ((atc cT 3).timer 3).count ≠ ((atc cT 3).timer 3).reload) ∧
    ((demo cTd).runsOn 0 cTd ∧ 3 < (atc cTd 3).timers.length ∧ (atc cTd 3).io.wf = true ∧ cTd.atCount 3 = some (atc cTd 3) ∧
     (cTd.timer 3).count = ((atc cTd 3).timer 3).count ∧ (cTd.timer 3).reload = ((atc cTd 3).timer 3).reload ∧
     ((atc cTd 3).timer 3).count ≠ ((atc cTd 3).timer 3).reload ∧ 3 < cTd.timers.length ∧ cTd.io.wf = true ∧
     (cTd.timer 3).src = 1 ∧ (cTd.timer 3).from_ + max 1 (ceilDiv ((cTd.timer 3).q - (cTd.timer 3).acc) 256) ≤ cTd.beam.ctime) ∧
    ((demo cTw).runsOn 0 cTw ∧ 3 < (atc cTw 3).timers.length ∧ (atc cTw 3).io.wf = true ∧ cTw.atCount 3 = some (atc cTw 3) ∧
     (cTw.timer 3).count = ((atc cTw 3).timer 3).count ∧ (cTw.timer 3).reload = ((atc cTw 3).timer 3).reload ∧
     ((atc cTw 3).timer 3).count = ((atc cTw 3).timer 3).reload) ∧
    ((demo cTe).runsOn 0 cTe ∧ 3 < (atc cTe 3).timers.length ∧ (atc cTe 3).io.wf = true ∧ cTe.atCount 3 = some (atc cTe 3) ∧
     (cTe.timer 3).count = ((atc cTe 3).timer 3).count ∧ (cTe.timer 3).reload = ((atc cTe 3).timer 3).reload ∧
     ((atc cTe 3).timer 3).count = ((atc cTe 3).timer 3).reload ∧ 3 < cTe.timers.length ∧ cTe.io.wf = true ∧
     3 ≤ (cTe.timer 3).src ∧ (cTe.timer 3).counts 3 = true ∧
     max 1 (ceilDiv ((cTe.timer 3).q - (cTe.timer 3).acc) 256) ≤ (cTe.timer 3).events) ∧
    ((demo cTr).runsOn 0 cTr ∧ 3 < cTr.timers.length ∧ cTr.io.wf = true ∧ ((cTr.timer 3).src = 0 ∨ (cTr.timer 3).src = 2) ∧
     (cTr.timer 3).resync = true) ∧
    ((demo cTz).runsOn 0 cTz ∧ 3 < cTz.timers.length ∧ cTz.io.wf = true ∧ 3 ≤ (cTz.timer 3).src ∧
     (cTz.timer 3).events < max 1 (ceilDiv ((cTz.timer 3).q - (cTz.timer 3).acc) 256) ∧ cTz.atCount 3 = none) ∧
    ((demo (cTm 4#8)).runsOn 0 (cTm 4#8) ∧ 0 < (cTm 4#8).timers.length ∧ (cTm 4#8).io.wf = true ∧
     BitVec.getLsbD ((cTm 4#8).io.rd (tAddr 0 24)) 7 = false ∧ ((cTm 4#8).timer 0).freshA = true ∧
     (cTm 4#8).io.rdN (tAddr 0 16) 4 = ((cTm 4#8).timer 0).count) ∧
    ((demo (cTm 1#8)).runsOn 0 (cTm 1#8) ∧ 0 < (cTm 1#8).timers.length ∧ (cTm 1#8).io.wf = true ∧
     BitVec.getLsbD ((cTm 1#8).io.rd (tAddr 0 24)) 7 = false ∧ ((cTm 1#8).timer 0).freshA = true ∧
     (cTm 1#8).io.rdN (tAddr 0 16) 4 = ((cTm 1#8).timer 0).count) ∧
    ((demo (cTm2 2#8)).runsOn 0 (cTm2 2#8) ∧ 0 < (cTm2 2#8).timers.length ∧ (cTm2 2#8).io.wf = true ∧
     BitVec.getLsbD ((cTm2 2#8).io.rd (tAddr 0 24)) 7 = false ∧ ((cTm2 2#8).timer 0).freshA = true ∧
     (cTm2 2#8).io.rdN (tAddr 0 16) 4 = ((cTm2 2#8).timer 0).count) ∧
    ((demo (cTm 3#8)).runsOn 0 (cTm 3#8) ∧ 0 < (cTm 3#8).timers.length ∧ (cTm 3#8).io.wf = true ∧
     BitVec.getLsbD ((cTm 3#8).io.rd (tAddr 0 24)) 7 = false ∧ ((cTm 3#8).timer 0).freshA = true ∧
     (cTm 3#8).io.rdN (tAddr 0 16) 4 = ((cTm 3#8).timer 0).count) ∧
    ((demo (cTm 2#8)).runsOn 0 (cTm 2#8) ∧ 0 < (cTm 2#8).timers.length ∧ (cTm 2#8).io.wf = true ∧
     BitVec.getLsbD ((cTm 2#8).io.rd (tAddr 0 24)) 3 = false ∧ ((cTm 2#8).timer 0).freshB = true ∧
     (cTm 2#8).io.rdN (tAddr 0 20) 4 = ((cTm 2#8).timer 0).count) ∧
    ((demo cTc).runsOn 0 cTc ∧ 0 < cTc.timers.length ∧ cTc.io.wf = true ∧ BitVec.getLsbD (cTc.io.rd (tAddr 0 24)) 7 = true ∧
     0 < (cTc.timer 0).capA ∧ (cTc.timer 0).pendA = none ∧ (cTc.timer 0).count < 0x100000000) ∧
    ((demo cTc0).runsOn 0 cTc0 ∧ 0 < cTc0.timers.length ∧ cTc0.io.wf = true ∧ (cTc0.timer 0).capA = 0) ∧
    ((demo cTp).runsOn 0 cTp ∧ 0 < cTp.timers.length ∧ cTp.io.wf = true ∧ BitVec.getLsbD (cTp.io.rd (tAddr 0 24)) 7 = true ∧
     0 < (cTp.timer 0).capA ∧ (cTp.timer 0).pendA = some 4 ∧ (cTp.timer 0).pendB = none) :=
  ⟨⟨⟨rfl, rfl, rfl⟩, (by decide), rfl, rfl, rfl, rfl, (by decide)⟩,
    ⟨⟨rfl, rfl, rfl⟩, (by decide), rfl, rfl, rfl, rfl, (by decide), (by decide), rfl, rfl, (by decide)⟩,
    ⟨⟨rfl, rfl, rfl⟩, (by decide), rfl, rfl, rfl, rfl, rfl⟩,
    ⟨⟨rfl, rfl, rfl⟩, (by decide), rfl, rfl, rfl, rfl, rfl, (by decide), rfl, (by decide), rfl, (by decide)⟩,
    ⟨⟨rfl, rfl, rfl⟩, (by decide), rfl, (by decide), rfl⟩,
    ⟨⟨rfl, rfl, rfl⟩, (by decide), rfl, (by decide), (by decide), rfl⟩,
    ⟨⟨rfl, rfl, rfl⟩, (by decide), rfl, rfl, rfl, rfl⟩,
    ⟨⟨rfl, rfl, rfl⟩, (by decide), rfl, rfl, rfl, rfl⟩,
    ⟨⟨rfl, rfl, rfl⟩, (by decide), rfl, rfl, rfl, rfl⟩,
    ⟨⟨rfl, rfl, rfl⟩, (by decide), rfl, rfl, rfl, rfl⟩,
    ⟨⟨rfl, rfl, rfl⟩, (by decide), rfl, rfl, rfl, rfl⟩,
    ⟨⟨rfl, rfl, rfl⟩, (by decide), rfl, rfl, (by decide), rfl, (by decide)⟩,
    ⟨⟨rfl, rfl, rfl⟩, (by decide), rfl, rfl⟩,
    ⟨⟨rfl, rfl, rfl⟩, (by decide), rfl, rfl, (by decide), rfl, rfl⟩⟩

theorem witness_InterruptCommands :
    ((demo cE).runsOn 0 cE ∧ BitVec.toNat 0x2F#8 < 48 ∧ cE.intc.active.getLsbD (BitVec.toNat 0x2F#8) = true ∧
     (48 ≤ BitVec.toNat 0x30#8 ∨ cE.intc.active.getLsbD (BitVec.toNat 0x30#8) = false) ∧
     (48 ≤ BitVec.toNat 3#8 ∨ cE.intc.active.getLsbD (BitVec.toNat 3#8) = false) ∧ 2 ≤ BitVec.toNat (cE.io.rd (0xE170 + 43)) ∧
     isLevelSource 43 = false ∧ cE.intc.pend.getLsbD 43 = false) :=
  ⟨⟨rfl, rfl, rfl⟩, (by decide), rfl, (by decide), (by decide), (by decide), rfl, rfl⟩

theorem witness_NapAndWake :
    ((demo (cN id)).runsOn 0 (cN id) ∧ (cN id).io.bit 0xE1E0 7 = true ∧ (cN id).core.waiting = true ∧
     (cN id).beam.boundary = true ∧ (cN id).beam.entered = false ∧ (cN id).blitter.busy = false ∧
     (((cN id).dma.any fun x => x.busy) = false) ∧ (cN id).nap.napping = false) ∧
    (given1.runsOn 0 given2 ∧ given2.io.bit 0xE1E0 7 = true ∧ given2.core.waiting = true ∧ given2.beam.boundary = true ∧
     given2.beam.entered = false ∧
     (given2.blitter.busy = true ∧ 193 = 193 ∨ given2.blitter.busy = false ∧ (given2.dma.any fun x => x.busy) = true ∧ 193 = 194)) ∧
    (given3.runsOn 0 given4 ∧ given4.io.bit 0xE1E0 7 = true ∧ given4.core.waiting = true ∧ given4.beam.boundary = true ∧
     given4.beam.entered = false ∧
     (given4.blitter.busy = true ∧ 194 = 193 ∨ given4.blitter.busy = false ∧ (given4.dma.any fun x => x.busy) = true ∧ 194 = 194)) ∧
    (given5.runsOn 0 given6 ∧ given6.nap.napping = true ∧ given6.pins.owned.getLsbD 15 = false ∧ given6.pins.owned.getLsbD 0 = true ∧
     (given6.io.rdN 0xE31E 2).testBit 0 = true ∧ (given6.io.rdN 0xE320 2).testBit 0 = !true ∧ given6.napCause = some (1, 15)) :=
  ⟨⟨⟨rfl, rfl, rfl⟩, rfl, rfl, rfl, rfl, rfl, rfl, rfl⟩,
    ⟨⟨rfl, rfl, rfl⟩, rfl, rfl, rfl, rfl, (by decide)⟩,
    ⟨⟨rfl, rfl, rfl⟩, rfl, rfl, rfl, rfl, (by decide)⟩,
    ⟨⟨rfl, rfl, rfl⟩, rfl, rfl, rfl, rfl, rfl, rfl⟩⟩

end Time

namespace Beams

def tm (vt va cut com : Nat) (extra : List (Nat × Byte)) : Bytes :=
  let l : List (Nat × Nat) := [(0xE734, 128), (0xE736, 32), (0xE738, 40), (0xE73A, 48), (0xE73C, vt), (0xE73E, va), (0xE740, va+1), (0xE742, va+2), (0xE744, cut), (0xE746, com)]
  let b : Bytes := l.foldl (fun m p => m.wrN p.1 2 p.2) []
  extra.foldl (fun m p => m.wr p.1 p.2) b
def cv (io eff : Bytes) (f : Beam → Beam) : Cell := { demoCell io with eff := eff, beam := f castBeam }
def at_ (l d t : Nat) (b : Beam) : Beam := { b with line := l, dot := d, ctime := t, entered := true }
def T0 := tm 32 16 20 22 []
def cF := cv [] T0 (at_ 31 126 (128*32-2))
def run (o : Option Cell) : Cell := o.getD (demoCell [])
def cFe := run (Cell.passUntil Cell.atFrameEnd cF.dotsLeft cF)
def cV := cv [] T0 (at_ 15 127 0)
def cBl := cv [] (tm 32 16 20 22 [(0xE7C0, 2)]) (fun b => { b with blinkCount := 2, boundary := true })
def cBn := cv [] (tm 32 16 20 22 [(0xE7C0, 2)]) (fun b => { b with blinkCount := 2, boundary := false })
def cBc := cv [(0xE70C, 0x05), (0xE70E, 0x03), (0xE70F, 0x80)] T0 (at_ 3 3 100)
def cBe := cv [(0xE708, 0x05), (0xE70B, 0x84)] T0 (at_ 3 127 100)
def cBe2 := cv [(0xE708, 0x05), (0xE70B, 0x84)] T0 (at_ 3 4 100)
def cBn2 := cv [] T0 (at_ 3 7 100)
def cBo := cv [(0xE708, 0x05), (0xE70B, 0x84)] T0 (fun b => { at_ 3 7 100 b with bcAccepted := [100, 0], bcOld := [0x80030007, 0] })
def cC (l d : Nat) (cs : List Nat) (io : Bytes) := cv io T0 (fun b => { at_ l d 100 b with commits := cs })
def cLt : Cell := cC 22 62 [] []
def cLtPlaced : Cell := { cLt with beam := { cLt.beam with commits := [1] } }
def cLm : Cell := cC 19 127 [1] [(0xE701,4)]
def cLmMerged : Cell := { cLm with io := cLm.io.wrN 0xE702 2 1 }
def cWr : Cell := { cC 31 127 [] [] with beam := { (cC 31 127 [] []).beam with frame := 0xFFFFFFFF } }
def cEn : Cell := { cC 24 3 [] [] with beam := { (cC 24 3 [] []).beam with endFrame := true } }
def shGood : Bytes :=
  (tm 400 16 20 22 [(0xE900, 0x88), (0xE901, 0x46), (0xE946, 8), (0xE948, 1), (0xE94C, 4), (0xE9A6, 1), (0xE9A8, 1), (0xE9C6, 1), (0xE9C8, 1), (0xEA02, 1), (0xEB01, 4)]).wrN 0xE730 4 (5 * 4294967296 / 100)
def c3 (commits : List Nat) (io : Bytes) := cv io T0 (fun b => { at_ 19 127 100 b with commits := commits })
def c3' (commits : List Nat) (io : Bytes) := run ((c3 commits io).runTo 20 0)
def cTr := cv [] T0 (fun b => { at_ 21 127 100 b with snap := some shGood })
def cIn := cv [] T0 (fun b => { at_ 22 60 100 b with snap := some shGood, installAt := some 104 })
def sq (w : Nat) (f : Sequencer → Sequencer) : Cell := { cv [] T0 (fun b => { at_ 3 5 100 b with frame := 0x45 }) with
  mem := Bytes.wrN [] 0x1000 4 w, tickMem := Bytes.wrN [] 0x1000 4 w, eff := T0.wrN 0xE760 3 0x1000, seq := f { run := true, pc := 0, ready := 100, word := none, posLine := 0, posDot := 0, reachable := true, count := 3 } }
def sqe (c : Cell) : Cell × Word := c.seqEntry.getD (c, 0)
def given1 := cC 19 126 [] []
def given2 := cC 31 127 [] []
def given3 := cC 19 126 [0] []
def given4 := cC 22 63 [] []
def given5 := cC 22 63 [1] []
def given6 := c3 [0] shGood
def given7 := c3' [0] shGood
def given8 := c3 [0] []
def given9 := c3' [0] []
def given10 := c3 [] []
def given11 := c3' [] []

theorem witness_FrameAndBeamEvents :
    ((demo cF).runsOn 0 cF ∧ Cell.passUntil Cell.atFrameEnd cF.dotsLeft cF = some cFe ∧ cFe.beamRuns = true ∧
     cFe.beam.frame = cF.beam.frame ∧ cF.io.wf = true ∧ cFe.io.wf = true) ∧
    ((demo cV).runsOn 0 cV ∧ cV.runTo cV.vActive 0 = some (run (cV.runTo 16 0)) ∧
     (run (cV.runTo 16 0)).beam.done.contains 2 = false) ∧
    ((demo cBn).runsOn 0 cBn ∧ cBn.beam.boundary = false) ∧
    ((demo cBl).runsOn 0 cBl ∧ cBl.beam.boundary = true ∧ cBl.beam.entered = false ∧ cBl.eff.rd 0xE7C0 ≠ 0#8 ∧
     BitVec.toNat (cBl.eff.rd 0xE7C0) ≤ cBl.beam.blinkCount) ∧
    ((demo cBc).runsOn 0 cBc ∧ cBc.beam.bcAccepted.getD 1 0 < cBc.beam.ctime ∧
     (cBc.io.rdN (0xE708 + 4 * 1) 4).testBit 31 = true ∧
     ((cBc.io.rdN (0xE708 + 4 * 1) 4).testBit 26 = true → cBc.beam.dot ≠ bitsOf (cBc.io.rdN (0xE708 + 4 * 1) 4) 10 0) ∧
     bitsOf (cBc.io.rdN (0xE708 + 4 * 1) 4) 10 0 < cBc.hTotal ∧
     (if (cBc.io.rdN (0xE708 + 4 * 1) 4).testBit 26 = true then if cBc.beam.dot < bitsOf (cBc.io.rdN (0xE708 + 4 * 1) 4)
        10 0 then cBc.beam.line else cBc.beam.line + 1 else bitsOf (cBc.io.rdN (0xE708 + 4 * 1) 4) 25 16) < cBc.vTotal ∧
     cBc.runTo (if (cBc.io.rdN (0xE708 + 4 * 1) 4).testBit 26 = true then if cBc.beam.dot < bitsOf (cBc.io.rdN (0xE708 +
        4 * 1) 4) 10 0 then cBc.beam.line else cBc.beam.line + 1 else bitsOf (cBc.io.rdN (0xE708 + 4 * 1) 4) 25 16)
        (bitsOf (cBc.io.rdN (0xE708 + 4 * 1) 4) 10 0) = some (run (cBc.runTo 3 5)) ∧
     cBc.beam.bcAccepted.getD 1 0 < (run (cBc.runTo 3 5)).beam.ctime ∧ (run (cBc.runTo 3 5)).beam.done.contains 1 = false) ∧
    ((demo cBe).runsOn 0 cBe ∧ cBe.beam.bcAccepted.getD 0 0 < cBe.beam.ctime ∧
     (cBe.io.rdN (0xE708 + 4 * 0) 4).testBit 31 = true ∧
     ((cBe.io.rdN (0xE708 + 4 * 0) 4).testBit 26 = true → cBe.beam.dot ≠ bitsOf (cBe.io.rdN (0xE708 + 4 * 0) 4) 10 0) ∧
     bitsOf (cBe.io.rdN (0xE708 + 4 * 0) 4) 10 0 < cBe.hTotal ∧
     (if (cBe.io.rdN (0xE708 + 4 * 0) 4).testBit 26 = true then if cBe.beam.dot < bitsOf (cBe.io.rdN (0xE708 + 4 * 0) 4)
        10 0 then cBe.beam.line else cBe.beam.line + 1 else bitsOf (cBe.io.rdN (0xE708 + 4 * 0) 4) 25 16) < cBe.vTotal ∧
     cBe.runTo (if (cBe.io.rdN (0xE708 + 4 * 0) 4).testBit 26 = true then if cBe.beam.dot < bitsOf (cBe.io.rdN (0xE708 +
        4 * 0) 4) 10 0 then cBe.beam.line else cBe.beam.line + 1 else bitsOf (cBe.io.rdN (0xE708 + 4 * 0) 4) 25 16)
        (bitsOf (cBe.io.rdN (0xE708 + 4 * 0) 4) 10 0) = some (run (cBe.runTo 4 5)) ∧
     cBe.beam.bcAccepted.getD 0 0 < (run (cBe.runTo 4 5)).beam.ctime ∧ (run (cBe.runTo 4 5)).beam.done.contains 0 = false) ∧
    ((demo cBe2).runsOn 0 cBe2 ∧ cBe2.beam.bcAccepted.getD 0 0 < cBe2.beam.ctime ∧
     (cBe2.io.rdN (0xE708 + 4 * 0) 4).testBit 31 = true ∧
     ((cBe2.io.rdN (0xE708 + 4 * 0) 4).testBit 26 = true → cBe2.beam.dot ≠ bitsOf (cBe2.io.rdN (0xE708 + 4 * 0) 4) 10 0) ∧
     bitsOf (cBe2.io.rdN (0xE708 + 4 * 0) 4) 10 0 < cBe2.hTotal ∧
     (if (cBe2.io.rdN (0xE708 + 4 * 0) 4).testBit 26 = true then if cBe2.beam.dot < bitsOf (cBe2.io.rdN (0xE708 + 4 * 0)
        4) 10 0 then cBe2.beam.line else cBe2.beam.line + 1 else bitsOf (cBe2.io.rdN (0xE708 + 4 * 0) 4) 25 16) <
        cBe2.vTotal ∧
     cBe2.runTo (if (cBe2.io.rdN (0xE708 + 4 * 0) 4).testBit 26 = true then if cBe2.beam.dot < bitsOf (cBe2.io.rdN
        (0xE708 + 4 * 0) 4) 10 0 then cBe2.beam.line else cBe2.beam.line + 1 else bitsOf (cBe2.io.rdN (0xE708 + 4 * 0) 4)
        25 16) (bitsOf (cBe2.io.rdN (0xE708 + 4 * 0) 4) 10 0) = some (run (cBe2.runTo 3 5)) ∧
     cBe2.beam.bcAccepted.getD 0 0 < (run (cBe2.runTo 3 5)).beam.ctime ∧ (run (cBe2.runTo 3 5)).beam.done.contains 0 = false) ∧
    ((demo cBo).runsOn 0 cBo ∧ cBo.beam.ctime ≤ cBo.beam.bcAccepted.getD 0 0 ∧
     cBo.compareHere (cBo.beam.bcOld.getD 0 0) = true ∧ cBo.beam.done.contains 0 = false) ∧
    ((demo cBn2).runsOn 0 cBn2 ∧ cBn2.beam.bcAccepted.getD 0 0 < cBn2.beam.ctime ∧
     (cBn2.io.rdN (0xE708 + 4 * 0) 4).testBit 31 = false) :=
  ⟨⟨⟨rfl, rfl, rfl⟩, rfl, rfl, rfl, rfl, rfl⟩,
    ⟨⟨rfl, rfl, rfl⟩, rfl, rfl⟩,
    ⟨⟨rfl, rfl, rfl⟩, rfl⟩,
    ⟨⟨rfl, rfl, rfl⟩, rfl, rfl, (by decide), (by decide)⟩,
    ⟨⟨rfl, rfl, rfl⟩, (by decide), rfl, (by decide), (by decide), (by decide), rfl, (by decide), rfl⟩,
    ⟨⟨rfl, rfl, rfl⟩, (by decide), rfl, (by decide), (by decide), (by decide), rfl, (by decide), rfl⟩,
    ⟨⟨rfl, rfl, rfl⟩, (by decide), rfl, (by decide), (by decide), (by decide), rfl, (by decide), rfl⟩,
    ⟨⟨rfl, rfl, rfl⟩, (by decide), rfl, rfl⟩,
    ⟨⟨rfl, rfl, rfl⟩, (by decide), rfl⟩⟩

theorem witness_CommitsCutsAndTransfers :
    ((demo given1).runsOn 0 given1 ∧
     (¬(given1.beam.endFrame = true ∧ given1.beam.installAt = none ∧ given1.atFrameEnd = false) ∧ given1.nextPos.fst < given1.cutLine) ∧
     ¬(if given1.atFrameEnd = true then (given1.beam.frame + 1) % 0x100000000 else given1.beam.frame) ∈ given1.beam.commits) ∧
    ((demo given2).runsOn 0 given2 ∧
     (¬(given2.beam.endFrame = true ∧ given2.beam.installAt = none ∧ given2.atFrameEnd = false) ∧ given2.nextPos.fst < given2.cutLine) ∧
     ¬(if given2.atFrameEnd = true then (given2.beam.frame + 1) % 0x100000000 else given2.beam.frame) ∈ given2.beam.commits) ∧
    ((demo cWr).runsOn 0 cWr ∧
     (¬(cWr.beam.endFrame = true ∧ cWr.beam.installAt = none ∧ cWr.atFrameEnd = false) ∧ cWr.nextPos.fst < cWr.cutLine) ∧
     ¬(if cWr.atFrameEnd = true then (cWr.beam.frame + 1) % 0x100000000 else cWr.beam.frame) ∈ cWr.beam.commits) ∧
    ((demo given3).runsOn 0 given3 ∧
     (¬(given3.beam.endFrame = true ∧ given3.beam.installAt = none ∧ given3.atFrameEnd = false) ∧ given3.nextPos.fst < given3.cutLine) ∧
     (if given3.atFrameEnd = true then (given3.beam.frame + 1) % 0x100000000 else given3.beam.frame) ∈ given3.beam.commits) ∧
    ((demo given4).runsOn 0 given4 ∧
     (¬(¬(given4.beam.endFrame = true ∧ given4.beam.installAt = none ∧ given4.atFrameEnd = false) ∧ given4.nextPos.fst <
        given4.cutLine)) ∧
     (¬(¬(given4.beam.endFrame = true ∧ given4.beam.installAt = none ∧ given4.atFrameEnd = false) ∧ given4.cutLine ≤
        given4.nextPos.fst ∧ (given4.nextPos.fst < given4.commitLine ∨ given4.nextPos.fst = given4.commitLine ∧ given4.nextPos.snd ≤
        63))) ∧
     ¬((if given4.atFrameEnd = true then (given4.beam.frame + 1) % 0x100000000 else given4.beam.frame) + 1) % 0x100000000 ∈
        given4.beam.commits) ∧
    ((demo cEn).runsOn 0 cEn ∧
     (¬(¬(cEn.beam.endFrame = true ∧ cEn.beam.installAt = none ∧ cEn.atFrameEnd = false) ∧ cEn.nextPos.fst < cEn.cutLine)) ∧
     (¬(¬(cEn.beam.endFrame = true ∧ cEn.beam.installAt = none ∧ cEn.atFrameEnd = false) ∧ cEn.cutLine ≤ cEn.nextPos.fst
        ∧ (cEn.nextPos.fst < cEn.commitLine ∨ cEn.nextPos.fst = cEn.commitLine ∧ cEn.nextPos.snd ≤ 63))) ∧
     ¬((if cEn.atFrameEnd = true then (cEn.beam.frame + 1) % 0x100000000 else cEn.beam.frame) + 1) % 0x100000000 ∈
        cEn.beam.commits) ∧
    ((demo given5).runsOn 0 given5 ∧
     (¬(¬(given5.beam.endFrame = true ∧ given5.beam.installAt = none ∧ given5.atFrameEnd = false) ∧ given5.nextPos.fst <
        given5.cutLine)) ∧
     (¬(¬(given5.beam.endFrame = true ∧ given5.beam.installAt = none ∧ given5.atFrameEnd = false) ∧ given5.cutLine ≤
        given5.nextPos.fst ∧ (given5.nextPos.fst < given5.commitLine ∨ given5.nextPos.fst = given5.commitLine ∧ given5.nextPos.snd ≤
        63))) ∧
     ((if given5.atFrameEnd = true then (given5.beam.frame + 1) % 0x100000000 else given5.beam.frame) + 1) % 0x100000000 ∈
        given5.beam.commits) ∧
    ((demo cLt).runsOn 0 cLt ∧
     (¬(cLt.beam.endFrame = true ∧ cLt.beam.installAt = none ∧ cLt.atFrameEnd = false) ∧ cLt.cutLine ≤ cLt.nextPos.fst ∧
        (cLt.nextPos.fst < cLt.commitLine ∨ cLt.nextPos.fst = cLt.commitLine ∧ cLt.nextPos.snd ≤ 63)) ∧
     (¬((if cLt.atFrameEnd = true then (cLt.beam.frame + 1) % 0x100000000 else cLt.beam.frame) + 1) % 0x100000000 ∈
        cLt.beam.commits ∧ cLtPlaced =
        { cLt with beam := { cLt.beam with commits := cLt.beam.commits ++ [((if cLt.atFrameEnd = true then (cLt.beam.frame + 1) % 0x100000000 else cLt.beam.frame) + 1) % 0x100000000] : Beam } : Cell }
        ∨ ((if cLt.atFrameEnd = true then (cLt.beam.frame + 1) % 0x100000000 else cLt.beam.frame) + 1) % 0x100000000 ∈
        cLt.beam.commits ∧ cLtPlaced =
        { cLt with io := cLt.io.wrN 0xE702 2 (min 0xFFFF (cLt.io.rdN 0xE702 2 + 1)) : Cell }) ∧
     cLt.io.bit 0xE701 2 = false) ∧
    ((demo cLm).runsOn 0 cLm ∧
     (¬(cLm.beam.endFrame = true ∧ cLm.beam.installAt = none ∧ cLm.atFrameEnd = false) ∧ cLm.cutLine ≤ cLm.nextPos.fst ∧
        (cLm.nextPos.fst < cLm.commitLine ∨ cLm.nextPos.fst = cLm.commitLine ∧ cLm.nextPos.snd ≤ 63)) ∧
     (¬((if cLm.atFrameEnd = true then (cLm.beam.frame + 1) % 0x100000000 else cLm.beam.frame) + 1) % 0x100000000 ∈
        cLm.beam.commits ∧ cLmMerged =
        { cLm with beam := { cLm.beam with commits := cLm.beam.commits ++ [((if cLm.atFrameEnd = true then (cLm.beam.frame + 1) % 0x100000000 else cLm.beam.frame) + 1) % 0x100000000] : Beam } : Cell }
        ∨ ((if cLm.atFrameEnd = true then (cLm.beam.frame + 1) % 0x100000000 else cLm.beam.frame) + 1) % 0x100000000 ∈
        cLm.beam.commits ∧ cLmMerged =
        { cLm with io := cLm.io.wrN 0xE702 2 (min 0xFFFF (cLm.io.rdN 0xE702 2 + 1)) : Cell }) ∧
     cLm.io.bit 0xE701 2 = true) ∧
    ((demo given6).runsOn 0 given6 ∧ given6.runTo given6.cutLine 0 = some given7 ∧ given7.beam.done.contains 3 = false ∧
     given7.io.wf = true ∧ (¬Cell.isAt given6.cutLine 0 given6 = true ∨ ¬given6.beam.done.contains 3 = true) ∧
     given7.cutLine = given6.cutLine) ∧
    ((demo given8).runsOn 0 given8 ∧ given8.runTo given8.cutLine 0 = some given9 ∧ given9.beam.done.contains 3 = false ∧
     given9.io.wf = true ∧ (¬Cell.isAt given8.cutLine 0 given8 = true ∨ ¬given8.beam.done.contains 3 = true) ∧
     given9.cutLine = given8.cutLine) ∧
    ((demo given10).runsOn 0 given10 ∧ given10.runTo given10.cutLine 0 = some given11 ∧ given11.beam.done.contains 3 = false ∧
     given11.io.wf = true ∧ (¬Cell.isAt given10.cutLine 0 given10 = true ∨ ¬given10.beam.done.contains 3 = true) ∧
     given11.cutLine = given10.cutLine) ∧
    ((demo cTr).runsOn 0 cTr ∧ cTr.beam.snap = some shGood ∧ (run (cTr.runTo 22 0)).eff.wf = true ∧
     (run (cTr.runTo 22 0)).io.wf = true ∧ cTr.runTo cTr.commitLine 0 = some (run (cTr.runTo 22 0)) ∧
     (run (cTr.runTo 22 0)).beam.done.contains 4 = false) ∧
    ((demo cIn).runsOn 0 cIn ∧ cIn.beam.snap = some shGood ∧ (run (cIn.runToTime 104)).eff.wf = true ∧
     (run (cIn.runToTime 104)).io.wf = true ∧ cIn.beam.installAt = some 104 ∧
     cIn.runToTime 104 = some (run (cIn.runToTime 104)) ∧ (run (cIn.runToTime 104)).beam.done.contains 5 = false) :=
  ⟨⟨⟨rfl, rfl, rfl⟩, (by decide), (by decide)⟩,
    ⟨⟨rfl, rfl, rfl⟩, (by decide), (by decide)⟩,
    ⟨⟨rfl, rfl, rfl⟩, (by decide), (by decide)⟩,
    ⟨⟨rfl, rfl, rfl⟩, (by decide), (by decide)⟩,
    ⟨⟨rfl, rfl, rfl⟩, (by decide), (by decide), (by decide)⟩,
    ⟨⟨rfl, rfl, rfl⟩, (by decide), (by decide), (by decide)⟩,
    ⟨⟨rfl, rfl, rfl⟩, (by decide), (by decide), (by decide)⟩,
    ⟨⟨rfl, rfl, rfl⟩, (by decide), (by decide), rfl⟩,
    ⟨⟨rfl, rfl, rfl⟩, (by decide), (by decide), rfl⟩,
    ⟨⟨rfl, rfl, rfl⟩, rfl, rfl, rfl, (by decide), rfl⟩,
    ⟨⟨rfl, rfl, rfl⟩, rfl, rfl, rfl, (by decide), rfl⟩,
    ⟨⟨rfl, rfl, rfl⟩, rfl, rfl, rfl, (by decide), rfl⟩,
    ⟨⟨rfl, rfl, rfl⟩, rfl, rfl, rfl, rfl, rfl⟩,
    ⟨⟨rfl, rfl, rfl⟩, rfl, rfl, rfl, rfl, rfl, rfl⟩⟩

theorem witness_SequencerEntriesRun :
    ((demo (sq 0x80000000 id)).runsOn 0 (sq 0x80000000 id) ∧
     (sq 0x80000000 id).seqEntry = some ((sqe (sq 0x80000000 id)).fst, 0x80000000#32) ∧
     ((sqe (sq 0x80000000 id)).fst.seq.count ≤ 0x400 ∧ seqEntryOk 0x80000000#32 = true) ∧ (0x80000000#32).toNat / 2 ^ 29 = 4 ∧
     (sq 0x30014 id).seq.run = true ∧ (sq 0x30014 id).seq.word = none ∧
     (sq 0x30014 id).seq.ready ≤ (sq 0x30014 id).beam.ctime ∧ (sq 0x30014 id).latchEntry.seq.word = some 0x30014#32 ∧
     (sq 0x3FF0014 id).seq.run = true ∧ (sq 0x3FF0014 id).seq.word = none ∧
     (sq 0x3FF0014 id).seq.ready ≤ (sq 0x3FF0014 id).beam.ctime ∧ (sq 0x3FF0014 id).latchEntry.seq.word = some 0x3FF0014#32) ∧
    ((demo (sq 0x600003FF id)).runsOn 0 (sq 0x600003FF id) ∧
     (sq 0x600003FF id).seqEntry = some ((sqe (sq 0x600003FF id)).fst, 0x600003FF#32) ∧
     ((sqe (sq 0x600003FF id)).fst.seq.count ≤ 0x400 ∧ seqEntryOk 0x600003FF#32 = true) ∧ (0x600003FF#32).toNat / 2 ^ 29 = 3) ∧
    ((demo (sq 0x40010F05 id)).runsOn 0 (sq 0x40010F05 id) ∧
     (sq 0x40010F05 id).seqEntry = some ((sqe (sq 0x40010F05 id)).fst, 0x40010F05#32) ∧
     ((sqe (sq 0x40010F05 id)).fst.seq.count ≤ 0x400 ∧ seqEntryOk 0x40010F05#32 = true) ∧ (0x40010F05#32).toNat / 2 ^ 29 = 2) ∧
    ((demo (sq 0x4000FF05 id)).runsOn 0 (sq 0x4000FF05 id) ∧
     (sq 0x4000FF05 id).seqEntry = some ((sqe (sq 0x4000FF05 id)).fst, 0x4000FF05#32) ∧
     ((sqe (sq 0x4000FF05 id)).fst.seq.count ≤ 0x400 ∧ seqEntryOk 0x4000FF05#32 = true) ∧ (0x4000FF05#32).toNat / 2 ^ 29 = 2) ∧
    ((demo (sq 0x20830012 id)).runsOn 0 (sq 0x20830012 id) ∧
     (sq 0x20830012 id).seqEntry = some ((sqe (sq 0x20830012 id)).fst, 0x20830012#32) ∧
     ((sqe (sq 0x20830012 id)).fst.seq.count ≤ 0x400 ∧ seqEntryOk 0x20830012#32 = true) ∧ (0x20830012#32).toNat / 2 ^ 29 = 1 ∧
     (0x20830012#32).toNat.testBit 27 = false) ∧
    ((demo (sq 0x28841234 id)).runsOn 0 (sq 0x28841234 id) ∧
     (sq 0x28841234 id).seqEntry = some ((sqe (sq 0x28841234 id)).fst, 0x28841234#32) ∧
     ((sqe (sq 0x28841234 id)).fst.seq.count ≤ 0x400 ∧ seqEntryOk 0x28841234#32 = true) ∧ (0x28841234#32).toNat / 2 ^ 29 = 1 ∧
     (0x28841234#32).toNat.testBit 27 = true) ∧
    (((demo (sq 0x10030005 fun q =>
        { q with ready := 99, word := some 0x10030005#32, reachable := false : Sequencer })).runsOn 0 (sq 0x10030005 fun
        q => { q with ready := 99, word := some 0x10030005#32, reachable := false : Sequencer })) ∧
     ((sq 0x10030005 fun q =>
        { q with ready := 99, word := some 0x10030005#32, reachable := false : Sequencer }).seqEntry = some ((sqe (sq
        0x10030005 fun q => { q with ready := 99, word := some 0x10030005#32, reachable := false : Sequencer })).fst,
        0x10030005#32)) ∧
     ((sqe (sq 0x10030005 fun q =>
        { q with ready := 99, word := some 0x10030005#32, reachable := false : Sequencer })).fst.seq.count ≤ 0x400 ∧
        seqEntryOk 0x10030005#32 = true) ∧
     (0x10030005#32).toNat / 2 ^ 29 = 0 ∧
     ((sqe (sq 0x10030005 fun q =>
        { q with ready := 99, word := some 0x10030005#32, reachable := false : Sequencer })).fst.seq.reachable = false)) ∧
    ((demo (sq 0x10030005 id)).runsOn 0 (sq 0x10030005 id) ∧
     (sq 0x10030005 id).seqEntry = some ((sqe (sq 0x10030005 id)).fst, 0x10030005#32) ∧
     ((sqe (sq 0x10030005 id)).fst.seq.count ≤ 0x400 ∧ seqEntryOk 0x10030005#32 = true) ∧ (0x10030005#32).toNat / 2 ^ 29 = 0 ∧
     (sqe (sq 0x10030005 id)).fst.seq.reachable = true ∧
     bitsOf (0x10030005#32).toNat 25 16 = (sqe (sq 0x10030005 id)).fst.seq.posLine ∧
     bitsOf (0x10030005#32).toNat 10 0 = (sqe (sq 0x10030005 id)).fst.seq.posDot ∧ (sqe (sq 0x10030005 id)).fst.io.wf = true) ∧
    ((demo (sq 0x30004 id)).runsOn 0 (sq 0x30004 id) ∧
     (sq 0x30004 id).seqEntry = some ((sqe (sq 0x30004 id)).fst, 0x30004#32) ∧
     ((sqe (sq 0x30004 id)).fst.seq.count ≤ 0x400 ∧ seqEntryOk 0x30004#32 = true) ∧ (0x30004#32).toNat / 2 ^ 29 = 0 ∧
     (sqe (sq 0x30004 id)).fst.seq.reachable = true ∧
     (bitsOf (0x30004#32).toNat 25 16 < (sqe (sq 0x30004 id)).fst.seq.posLine ∨ bitsOf (0x30004#32).toNat 25 16 = (sqe
        (sq 0x30004 id)).fst.seq.posLine ∧ bitsOf (0x30004#32).toNat 10 0 < (sqe (sq 0x30004 id)).fst.seq.posDot)) ∧
    ((demo (sq 0x30014 id)).runsOn 0 (sq 0x30014 id) ∧
     (sq 0x30014 id).seqEntry = some ((sqe (sq 0x30014 id)).fst, 0x30014#32) ∧
     ((sqe (sq 0x30014 id)).fst.seq.count ≤ 0x400 ∧ seqEntryOk 0x30014#32 = true) ∧ (0x30014#32).toNat / 2 ^ 29 = 0 ∧
     (sqe (sq 0x30014 id)).fst.seq.reachable = true ∧
     ((sqe (sq 0x30014 id)).fst.seq.posLine < bitsOf (0x30014#32).toNat 25 16 ∨ bitsOf (0x30014#32).toNat 25 16 = (sqe
        (sq 0x30014 id)).fst.seq.posLine ∧ (sqe (sq 0x30014 id)).fst.seq.posDot < bitsOf (0x30014#32).toNat 10 0) ∧
     ((sqe (sq 0x30014 id)).fst.beam.line < bitsOf (0x30014#32).toNat 25 16 ∨ (sqe (sq 0x30014 id)).fst.beam.line =
        bitsOf (0x30014#32).toNat 25 16 ∧ (sqe (sq 0x30014 id)).fst.beam.dot ≤ bitsOf (0x30014#32).toNat 10 0) ∧
     (sqe (sq 0x30014 id)).fst.runTo (bitsOf (0x30014#32).toNat 25 16) (bitsOf (0x30014#32).toNat 10 0) = some (run
        ((sqe (sq 0x30014 id)).fst.runTo 3 20))) ∧
    (((demo (sq 0x80000000 fun q => { q with count := 0x400 : Sequencer })).runsOn 0 (sq 0x80000000 fun q =>
        { q with count := 0x400 : Sequencer })) ∧
     ((sq 0x80000000 fun q => { q with count := 0x400 : Sequencer }).seqEntry = some ((sqe (sq 0x80000000 fun q =>
        { q with count := 0x400 : Sequencer })).fst, 0x80000000#32)) ∧
     (0x400 < (sqe (sq 0x80000000 fun q => { q with count := 0x400 : Sequencer })).fst.seq.count) ∧
     ((0x80000000#32).toNat / 2 ^ 29 = 4 ∨ 4 < (0x80000000#32).toNat / 2 ^ 29)) ∧
    (((demo (sq 0x20830012 fun q => { q with count := 0x400 : Sequencer })).runsOn 0 (sq 0x20830012 fun q =>
        { q with count := 0x400 : Sequencer })) ∧
     ((sq 0x20830012 fun q => { q with count := 0x400 : Sequencer }).seqEntry = some ((sqe (sq 0x20830012 fun q =>
        { q with count := 0x400 : Sequencer })).fst, 0x20830012#32)) ∧
     (0x400 < (sqe (sq 0x20830012 fun q => { q with count := 0x400 : Sequencer })).fst.seq.count) ∧
     ((0x20830012#32).toNat / 2 ^ 29 = 1 ∨ 4 < (0x20830012#32).toNat / 2 ^ 29)) ∧
    ((demo (sq 0x8030014 id)).runsOn 0 (sq 0x8030014 id) ∧
     (sq 0x8030014 id).seqEntry = some ((sqe (sq 0x8030014 id)).fst, 0x8030014#32) ∧
     (sqe (sq 0x8030014 id)).fst.seq.count ≤ 0x400 ∧ seqEntryOk 0x8030014#32 = false ∧
     ((0x8030014#32).toNat / 2 ^ 29 = 0 ∨ 4 < (0x8030014#32).toNat / 2 ^ 29)) ∧
    ((demo (sq 0xA8030014 id)).runsOn 0 (sq 0xA8030014 id) ∧
     (sq 0xA8030014 id).seqEntry = some ((sqe (sq 0xA8030014 id)).fst, 0xA8030014#32) ∧
     (sqe (sq 0xA8030014 id)).fst.seq.count ≤ 0x400 ∧ seqEntryOk 0xA8030014#32 = false ∧
     ((0xA8030014#32).toNat / 2 ^ 29 = 1 ∨ 4 < (0xA8030014#32).toNat / 2 ^ 29)) :=
  ⟨⟨⟨rfl, rfl, rfl⟩, rfl, (by decide), rfl, rfl, rfl, (by decide), rfl, rfl, rfl, (by decide), rfl⟩,
    ⟨⟨rfl, rfl, rfl⟩, rfl, (by decide), rfl⟩,
    ⟨⟨rfl, rfl, rfl⟩, rfl, (by decide), rfl⟩,
    ⟨⟨rfl, rfl, rfl⟩, rfl, (by decide), rfl⟩,
    ⟨⟨rfl, rfl, rfl⟩, rfl, (by decide), rfl, rfl⟩,
    ⟨⟨rfl, rfl, rfl⟩, rfl, (by decide), rfl, rfl⟩,
    ⟨⟨rfl, rfl, rfl⟩, rfl, (by decide), rfl, rfl⟩,
    ⟨⟨rfl, rfl, rfl⟩, rfl, (by decide), rfl, rfl, rfl, rfl, rfl⟩,
    ⟨⟨rfl, rfl, rfl⟩, rfl, (by decide), rfl, rfl, (by decide)⟩,
    ⟨⟨rfl, rfl, rfl⟩, rfl, (by decide), rfl, rfl, (by decide), (by decide), rfl⟩,
    ⟨⟨rfl, rfl, rfl⟩, rfl, (by decide), (by decide)⟩,
    ⟨⟨rfl, rfl, rfl⟩, rfl, (by decide), (by decide)⟩,
    ⟨⟨rfl, rfl, rfl⟩, rfl, (by decide), rfl, (by decide)⟩,
    ⟨⟨rfl, rfl, rfl⟩, rfl, (by decide), rfl, (by decide)⟩⟩

end Beams

namespace Pictures

def tm (vt va cut com : Nat) (extra : List (Nat × Byte)) : Bytes :=
  let l : List (Nat × Nat) := [(0xE734, 128), (0xE736, 32), (0xE738, 40), (0xE73A, 48), (0xE73C, vt), (0xE73E, va), (0xE740, va+1), (0xE742, va+2), (0xE744, cut), (0xE746, com)]
  let b : Bytes := l.foldl (fun m p => m.wrN p.1 2 p.2) []
  extra.foldl (fun m p => m.wr p.1 p.2) b
def cv (io eff : Bytes) (f : Beam → Beam) : Cell := { demoCell io with eff := eff, beam := f castBeam }
def at_ (l d t : Nat) (b : Beam) : Beam := { b with line := l, dot := d, ctime := t, entered := true }
def run (o : Option Cell) : Cell := o.getD (demoCell [])
def lat : Bytes := (List.range 40).foldl (fun m i => m.wrN (8*i) 2 0x8000) []
def cS : Cell := { cv [] (tm 32 16 20 22 [(0xE7D0, 0x80)]) (at_ 3 63 700) with sprites := { latch := lat, target := some 5, due := none, rows := [], group := [] } }
def lat2 : Bytes := (List.range 20).foldl (fun m i => (m.wrN (8*i) 2 0x8000).wr (8*i+4) 0xE2) []
def cS2 : Cell := { cv [] (tm 32 16 20 22 [(0xE7D0, 0x80)]) (at_ 3 63 700) with sprites := { latch := lat2, target := some 5, due := none, rows := [], group := [] } }
def cS3 : Cell := { cv [] (tm 32 16 20 22 [(0xE7D0, 0x80)]) (at_ 3 63 700) with sprites := { latch := lat.take 20, target := some 5, due := none, rows := [], group := [] } }
def cCo : Cell := { cv [] (tm 32 16 20 22 [(0xE7D0, 1)]) (at_ 3 7 700) with sprites := { latch := [], target := none, due := none, rows := [], group := List.replicate 8 { sprites := [(7, 1), (9, 1)], plane := true } } }
def cCo2 : Cell := { cCo with io := [(0xE7D8, 12)] }
def ly : Layer := { accepted := none, next := none, effect := some { base0 := 0, base1 := 0, pitch := 32, sw := 8, sh := 8, format := 0, xfer := 0, prim := 0, range := 0, tag := 4 }, lines := [], missing := [] }
def cL : Cell := let c := cv [] (tm 32 16 20 22 [(0xE9C0, 0x80), (0xE9C8, 8)]) (at_ 2 127 500); { c with picture := { c.picture with layers := [ly, ly] } }
def dl (a b : Word) (y : Nat) : DotLine := { y := y, dots := List.replicate 32 { main := a, guarded := b, video := false } }
def cG (a b : Word) : Cell := let c := cv [] (tm 32 16 20 22 [(0xEA80, 3), (0xEA81, 1), (0xEA8A, 1), (0xEA8B, 1), (0xEA8E, 1), (0xEA8F, 1)]) (at_ 15 39 500); { c with picture := { c.picture with lines := (List.range 8).reverse.map fun i => dl a b (8 + i) } }
def cBd : Cell := let c := cv [] (tm 32 16 20 22 [(0xEA02, 1), (0xEA00, 0x80)]) (at_ 15 47 500); { c with picture := { c.picture with lines := (List.range 8).reverse.map fun i => dl 5 5 (8 + i) } }
def cFe : Cell := cv [] (tm 32 16 20 22 []) (at_ 31 127 4095)
def cPal : Cell := { cBd with io := Bytes.wrN [(0xE960, 0xFF), (0xE964, 0x11)] 0xE962 2 0xBEEF, holds := (Bytes.wr [] 0x1D2C8 0x77).wr 0x1D2C9 1 }
def cTb (sel : Byte) : Cell := { cBd with io := Bytes.wr [(0xE972, 0xFF), (0xE973, 0x01)] 0xE970 sel, holds := (Bytes.wr [] 0x1D2E8 0x77).wr 0x1D2E9 1 }

def cG0 : Cell := cv [] (tm 32 16 20 22 []) (at_ 15 39 500)

theorem no_regions (x : Nat) : (run (cG0.runTo 15 40)).regionsOf 1 x = 0#8 := rfl

theorem witness_SpritesAreSearched :
    ((demo cS).runsOn 0 cS ∧ 64 < cS.hTotal ∧ cS.sprites.due = none ∧ (run (cS.runTo 3 64)).sprites.due = none ∧
     (3 = if cS.beam.dot < 64 ∨ cS.beam.dot = 64 ∧ ¬cS.beam.done.contains 7 = true then cS.beam.line else cS.beam.line + 1) ∧
     cS.runTo 3 64 = some (run (cS.runTo 3 64)) ∧ (run (cS.runTo 3 64)).beam.done.contains 7 = false ∧
     (run (cS.runTo 3 64)).sprites.target = some 5) ∧
    ((demo cS2).runsOn 0 cS2 ∧ 64 < cS2.hTotal ∧ cS2.sprites.due = none ∧ (run (cS2.runTo 3 64)).sprites.due = none ∧
     (3 = if cS2.beam.dot < 64 ∨ cS2.beam.dot = 64 ∧ ¬cS2.beam.done.contains 7 = true then cS2.beam.line else
        cS2.beam.line + 1) ∧
     cS2.runTo 3 64 = some (run (cS2.runTo 3 64)) ∧ (run (cS2.runTo 3 64)).beam.done.contains 7 = false ∧
     (run (cS2.runTo 3 64)).sprites.target = some 5) ∧
    ((demo cS3).runsOn 0 cS3 ∧ 64 < cS3.hTotal ∧ cS3.sprites.due = none ∧ (run (cS3.runTo 3 64)).sprites.due = none ∧
     (3 = if cS3.beam.dot < 64 ∨ cS3.beam.dot = 64 ∧ ¬cS3.beam.done.contains 7 = true then cS3.beam.line else
        cS3.beam.line + 1) ∧
     cS3.runTo 3 64 = some (run (cS3.runTo 3 64)) ∧ (run (cS3.runTo 3 64)).beam.done.contains 7 = false ∧
     (run (cS3.runTo 3 64)).sprites.target = some 5) ∧
    ((demo cCo).runsOn 0 cCo ∧ cCo.runTo 3 7 = some cCo ∧ 3 < cCo.vActive ∧ 7 < cCo.hActive ∧ cCo.enterTick.io.wf = true ∧
     2 ≤ (cCo.enterTick.sprites.group.getD (7 % 8) { sprites := [], plane := false : DotHits }).sprites.length ∧
     (cCo.enterTick.sprites.group.getD (7 % 8) { sprites := [], plane := false : DotHits }).plane = true ∧
     (cCo.enterTick.sprites.group.getD (7 % 8) { sprites := [], plane := false : DotHits }).sprites ≠ []) ∧
    ((demo cCo2).runsOn 0 cCo2 ∧ cCo2.runTo 3 7 = some cCo2 ∧ 3 < cCo2.vActive ∧ 7 < cCo2.hActive ∧
     cCo2.enterTick.io.wf = true ∧
     2 ≤ (cCo2.enterTick.sprites.group.getD (7 % 8) { sprites := [], plane := false : DotHits }).sprites.length ∧
     (cCo2.enterTick.sprites.group.getD (7 % 8) { sprites := [], plane := false : DotHits }).plane = true ∧
     (cCo2.enterTick.sprites.group.getD (7 % 8) { sprites := [], plane := false : DotHits }).sprites ≠ []) :=
  ⟨⟨⟨rfl, rfl, rfl⟩, (by decide), rfl, rfl, rfl, rfl, rfl, rfl⟩,
    ⟨⟨rfl, rfl, rfl⟩, (by decide), rfl, rfl, rfl, rfl, rfl, rfl⟩,
    ⟨⟨rfl, rfl, rfl⟩, (by decide), rfl, rfl, rfl, rfl, rfl, rfl⟩,
    ⟨⟨rfl, rfl, rfl⟩, rfl, (by decide), (by decide), rfl, (by decide), rfl, (by decide)⟩,
    ⟨⟨rfl, rfl, rfl⟩, rfl, (by decide), (by decide), rfl, (by decide), rfl, (by decide)⟩⟩

set_option maxRecDepth 8000 in
theorem witness_LayersGuardsAndBands :
    ((demo cL).runsOn 0 cL ∧ cL.runTo 3 0 = some (run (cL.runTo 3 0)) ∧
     (run (cL.runTo 3 0)).beam.done.contains (12 + 1) = false ∧ 3 < (run (cL.runTo 3 0)).vActive ∧
     (run (cL.runTo 3 0)).dry = false ∧ (run (cL.runTo 3 0)).io.wf = true ∧ (run (cL.runTo 3 0)).missingLines 1 3 ≠ [] ∧
     (run (cL.runTo 3 0)).beam.done.contains (12 + 0) = false ∧ (run (cL.runTo 3 0)).missingLines 0 3 = []) ∧
    ((demo (cG 1#32 2#32)).runsOn 0 (cG 1#32 2#32) ∧ 1 < (cG 1#32 2#32).bandCount ∧ (cG 1#32 2#32).dry = false ∧
     (cG 1#32 2#32).runTo ((cG 1#32 2#32).lastLine 1) ((cG 1#32 2#32).hActive + 8) = some (run ((cG 1#32 2#32).runTo 15 40)) ∧
     (run ((cG 1#32 2#32).runTo 15 40)).beam.done.contains 8 = false ∧ 0 < (run ((cG 1#32 2#32).runTo 15 40)).blockCols ∧
     (run ((cG 1#32 2#32).runTo 15 40)).regionsOf 1 0 ≠ 0#8 ∧
     (crc32c (pixelBytes (List.map (fun x => x.main) (blockDots ((run ((cG 1#32 2#32).runTo 15 40)).bandLines 1) 0))) ≠
        crc32c (pixelBytes (List.map (fun x => x.guarded) (blockDots ((run ((cG 1#32 2#32).runTo 15 40)).bandLines 1)
        0))))) ∧
    ((demo cBd).runsOn 0 cBd ∧ 1 < cBd.bandCount ∧ cBd.hActive + 16 < cBd.hTotal ∧
     cBd.runTo (cBd.lastLine 1) (cBd.hActive + 16) = some (run (cBd.runTo 15 48)) ∧
     (run (cBd.runTo 15 48)).beam.done.contains 9 = false ∧ (run (cBd.runTo 15 48)).picture.held = false ∧
     (run (cBd.runTo 15 48)).picture.firstBand ≤ 1 ∧ cBd.atFrameEnd = false) ∧
    ((demo cFe).runsOn 0 cFe ∧ cFe.atFrameEnd = true) ∧
    ((demo cG0).runsOn 0 cG0 ∧ 1 < cG0.bandCount ∧ cG0.dry = false ∧
     cG0.runTo (cG0.lastLine 1) (cG0.hActive + 8) = some (run (cG0.runTo 15 40)) ∧
     (run (cG0.runTo 15 40)).beam.done.contains 8 = false ∧ (∀ x, (run (cG0.runTo 15 40)).regionsOf 1 x = 0#8)) :=
  ⟨⟨⟨rfl, rfl, rfl⟩, rfl, rfl, (by decide), rfl, rfl, (by decide), rfl, rfl⟩,
    ⟨⟨rfl, rfl, rfl⟩, (by decide), rfl, rfl, rfl, (by decide), (by decide), (by decide +kernel)⟩,
    ⟨⟨rfl, rfl, rfl⟩, (by decide), (by decide), rfl, rfl, rfl, (by decide), rfl⟩,
    ⟨⟨rfl, rfl, rfl⟩, rfl⟩,
    ⟨⟨rfl, rfl, rfl⟩, (by decide), rfl, rfl, rfl, no_regions⟩⟩

theorem witness_PaletteAndTableWrites :
    ((demo cPal).runsOn 0 cPal ∧ cPal.io.wf = true) ∧
    ((demo cBd).runsOn 0 cBd ∧ cBd.io.wf = true) ∧
    ((demo (cTb 8#8)).runsOn 0 (cTb 8#8) ∧ (cTb 8#8).io.wf = true ∧ tableSize (BitVec.toNat ((cTb 8#8).io.rd 0xE970)) ≠ 0) ∧
    ((demo (cTb 1#8)).runsOn 0 (cTb 1#8) ∧ (cTb 1#8).io.wf = true ∧ tableSize (BitVec.toNat ((cTb 1#8).io.rd 0xE970)) ≠ 0) ∧
    ((demo (cTb 0x12#8)).runsOn 0 (cTb 0x12#8) ∧ (cTb 0x12#8).io.wf = true ∧
     tableSize (BitVec.toNat ((cTb 0x12#8).io.rd 0xE970)) = 0) :=
  ⟨⟨⟨rfl, rfl, rfl⟩, rfl⟩,
    ⟨⟨rfl, rfl, rfl⟩, rfl⟩,
    ⟨⟨rfl, rfl, rfl⟩, rfl, (by decide)⟩,
    ⟨⟨rfl, rfl, rfl⟩, rfl, (by decide)⟩,
    ⟨⟨rfl, rfl, rfl⟩, rfl, rfl⟩⟩

end Pictures

namespace Blits

def c0 := demoCell []
def cmd (l : List (Nat × Byte)) : List Byte := (List.range 32).map fun i => (l.find? (·.1 = i)).elim 0 (·.2)
def ioOf (l : List Byte) (base : Nat) (b : Bytes) : Bytes := b.put base l
def draw (op : Byte) (flags : Byte) : List Byte := cmd [(0, op * 16 + 12), (1, flags), (2, 3), (5, 0x20), (13, 0x30), (8, 64), (10, 64), (0x14, 4), (0x16, 2), (0x10, 1), (0x1C, 0x77)]
def src : Bytes := Bytes.put [] 0x3000 ((List.range 16).map fun i => BitVec.ofNat 8 (i+1))
def cGo : Cell := { demoCell (ioOf (draw 1 0x80) 0xE600 []) with mem := src }
def cGoBad : Cell := demoCell (ioOf (draw 9 0x80) 0xE600 [])
def cGoList : Cell := demoCell (Bytes.wrN [(0xE640, 0x80)] 0xE644 3 0x1234)
def bl (c : Cell) (ph : BlitPhase) (l : List Byte) (pc : Nat) (pos : Nat) : Cell := { c with mem := src, blitter := { c.blitter with phase := ph, cmd := l, pc := pc, pos := pos, pattern := [1,2,3,4,5,6,7,8] } }
def lst : Cell := { bl (demoCell [(0xE640, 0x80)]) .fetch [] 0x4000 0 with mem := Bytes.put src 0x4000 (draw 2 0x20) }
def lstBad : Cell := { bl (demoCell [(0xE640, 0x80)]) .fetch [] 0x4000 0 with mem := Bytes.put src 0x4000 (draw 9 0x20) }
def lstW : Cell := { lst with dma := lst.dma.map fun d => { d with phase := .moving } }
def given1 := bl c0 .finished (draw 1 0x80) 0 0
def given2 := bl c0 .finished (draw 1 0) 0 0
def given3 := bl (demoCell [(0xE640, 0x80)]) .finished (draw 15 0x80) 0x20 0
def given4 := bl (demoCell [(0xE640, 0x80)]) .finished (draw 1 0x20) 0x20 0

theorem witness_BlitterCommands :
    ((demo cGo).runsOn 0 cGo ∧ cGo.blitter.phase = BlitPhase.idle ∧ cGo.io.bit 0xE640 7 = false ∧
     cGo.blitCheck (cGo.io.block 0xE600 32) = none) ∧
    ((demo cGoBad).runsOn 0 cGoBad ∧ cGoBad.blitter.phase = BlitPhase.idle ∧ cGoBad.io.bit 0xE640 7 = false ∧
     cGoBad.blitCheck (cGoBad.io.block 0xE600 32) = some 1) ∧
    ((demo cGoList).runsOn 0 cGoList ∧ cGoList.blitter.phase = BlitPhase.idle ∧ cGoList.io.bit 0xE640 7 = true) ∧
    ((demo lst).runsOn 0 lst ∧ lst.blitter.phase ≠ BlitPhase.idle ∧ lst.blitter.phase = BlitPhase.fetch ∧
     lst.portFree 4 = true ∧
     ({ lst with io := (lst.io.put 0xE600 (List.map (fun i => lst.mem.rd ((lst.blitter.pc + i) % 0x80000)) (List.range 32))).wrN 0xE648 3 (lst.blitter.pc / 32 * 32 % 0x80000) : Cell }.blitCheck
        (List.map (fun i => lst.mem.rd ((lst.blitter.pc + i) % 0x80000)) (List.range 32)) = none)) ∧
    ((demo lstBad).runsOn 0 lstBad ∧ lstBad.blitter.phase = BlitPhase.fetch ∧ lstBad.portFree 4 = true ∧
     ({ lstBad with io := (lstBad.io.put 0xE600 (List.map (fun i => lstBad.mem.rd ((lstBad.blitter.pc + i) % 0x80000)) (List.range 32))).wrN 0xE648 3 (lstBad.blitter.pc / 32 * 32 % 0x80000) : Cell }.blitCheck
        (List.map (fun i => lstBad.mem.rd ((lstBad.blitter.pc + i) % 0x80000)) (List.range 32)) = some 1)) ∧
    ((demo lstW).runsOn 0 lstW ∧ lstW.wantsPort 3 = true) ∧
    ((demo (bl c0 BlitPhase.run (draw 0#8 0#8) 0 2)).runsOn 0 (bl c0 BlitPhase.run (draw 0#8 0#8) 0 2) ∧
     (bl c0 BlitPhase.run (draw 0#8 0#8) 0 2).blitter.phase = BlitPhase.run ∧
     cmdOp (bl c0 BlitPhase.run (draw 0#8 0#8) 0 2).blitter.cmd = 0) ∧
    ((demo (bl c0 BlitPhase.run (draw 0xF#8 0#8) 0 2)).runsOn 0 (bl c0 BlitPhase.run (draw 0xF#8 0#8) 0 2) ∧
     (bl c0 BlitPhase.run (draw 0xF#8 0#8) 0 2).blitter.phase = BlitPhase.run ∧
     cmdOp (bl c0 BlitPhase.run (draw 0xF#8 0#8) 0 2).blitter.cmd = 15) ∧
    ((demo (bl c0 BlitPhase.run (draw 0xE#8 0#8) 0 2)).runsOn 0 (bl c0 BlitPhase.run (draw 0xE#8 0#8) 0 2) ∧
     (bl c0 BlitPhase.run (draw 0xE#8 0#8) 0 2).blitter.phase = BlitPhase.run ∧
     cmdOp (bl c0 BlitPhase.run (draw 0xE#8 0#8) 0 2).blitter.cmd = 14) ∧
    ((demo (bl c0 BlitPhase.run (draw 1#8 0#8) 0 2)).runsOn 0 (bl c0 BlitPhase.run (draw 1#8 0#8) 0 2) ∧
     (bl c0 BlitPhase.run (draw 1#8 0#8) 0 2).blitter.phase = BlitPhase.run ∧
     (bl c0 BlitPhase.run (draw 1#8 0#8) 0 2).portFree 4 = true ∧
     cmdOp (bl c0 BlitPhase.run (draw 1#8 0#8) 0 2).blitter.cmd = 1) ∧
    ((demo (bl c0 BlitPhase.run (draw 2#8 0#8) 0 2)).runsOn 0 (bl c0 BlitPhase.run (draw 2#8 0#8) 0 2) ∧
     (bl c0 BlitPhase.run (draw 2#8 0#8) 0 2).blitter.phase = BlitPhase.run ∧
     (bl c0 BlitPhase.run (draw 2#8 0#8) 0 2).portFree 4 = true ∧
     cmdOp (bl c0 BlitPhase.run (draw 2#8 0#8) 0 2).blitter.cmd = 2) ∧
    ((demo (bl c0 BlitPhase.run (draw 3#8 0#8) 0 2)).runsOn 0 (bl c0 BlitPhase.run (draw 3#8 0#8) 0 2) ∧
     (bl c0 BlitPhase.run (draw 3#8 0#8) 0 2).blitter.phase = BlitPhase.run ∧
     (bl c0 BlitPhase.run (draw 3#8 0#8) 0 2).portFree 4 = true ∧
     cmdOp (bl c0 BlitPhase.run (draw 3#8 0#8) 0 2).blitter.cmd = 3) ∧
    ((demo (bl c0 BlitPhase.run (draw 4#8 0#8) 0 2)).runsOn 0 (bl c0 BlitPhase.run (draw 4#8 0#8) 0 2) ∧
     (bl c0 BlitPhase.run (draw 4#8 0#8) 0 2).blitter.phase = BlitPhase.run ∧
     (bl c0 BlitPhase.run (draw 4#8 0#8) 0 2).portFree 4 = true ∧
     cmdOp (bl c0 BlitPhase.run (draw 4#8 0#8) 0 2).blitter.cmd = 4) ∧
    ((demo (bl c0 BlitPhase.run (draw 5#8 0#8) 0 2)).runsOn 0 (bl c0 BlitPhase.run (draw 5#8 0#8) 0 2) ∧
     (bl c0 BlitPhase.run (draw 5#8 0#8) 0 2).blitter.phase = BlitPhase.run ∧
     (bl c0 BlitPhase.run (draw 5#8 0#8) 0 2).portFree 4 = true ∧
     cmdOp (bl c0 BlitPhase.run (draw 5#8 0#8) 0 2).blitter.cmd = 5) ∧
    ((demo (bl c0 BlitPhase.run (draw 6#8 0#8) 0 2)).runsOn 0 (bl c0 BlitPhase.run (draw 6#8 0#8) 0 2) ∧
     (bl c0 BlitPhase.run (draw 6#8 0#8) 0 2).blitter.phase = BlitPhase.run ∧
     (bl c0 BlitPhase.run (draw 6#8 0#8) 0 2).portFree 4 = true ∧
     cmdOp (bl c0 BlitPhase.run (draw 6#8 0#8) 0 2).blitter.cmd = 6) ∧
    ((demo (bl c0 BlitPhase.run (draw 1#8 0#8) 0 0)).runsOn 0 (bl c0 BlitPhase.run (draw 1#8 0#8) 0 0) ∧
     (bl c0 BlitPhase.run (draw 1#8 0#8) 0 0).blitter.phase = BlitPhase.run ∧
     (bl c0 BlitPhase.run (draw 1#8 0#8) 0 0).portFree 4 = true ∧
     1 < (List.drop (bl c0 BlitPhase.run (draw 1#8 0#8) 0 0).blitter.pos ((drawOf (bl c0 BlitPhase.run (draw 1#8 0#8) 0
        0).blitter.cmd).units ((bl c0 BlitPhase.run (draw 1#8 0#8) 0 0).clipsOf (bl c0 BlitPhase.run (draw 1#8 0#8) 0
        0).blitter.cmd))).length ∧
     cmdOp (bl c0 BlitPhase.run (draw 1#8 0#8) 0 0).blitter.cmd = 1) ∧
    ((demo (bl c0 BlitPhase.run (draw 2#8 0#8) 0 0)).runsOn 0 (bl c0 BlitPhase.run (draw 2#8 0#8) 0 0) ∧
     (bl c0 BlitPhase.run (draw 2#8 0#8) 0 0).blitter.phase = BlitPhase.run ∧
     (bl c0 BlitPhase.run (draw 2#8 0#8) 0 0).portFree 4 = true ∧
     1 < (List.drop (bl c0 BlitPhase.run (draw 2#8 0#8) 0 0).blitter.pos ((drawOf (bl c0 BlitPhase.run (draw 2#8 0#8) 0
        0).blitter.cmd).units ((bl c0 BlitPhase.run (draw 2#8 0#8) 0 0).clipsOf (bl c0 BlitPhase.run (draw 2#8 0#8) 0
        0).blitter.cmd))).length ∧
     cmdOp (bl c0 BlitPhase.run (draw 2#8 0#8) 0 0).blitter.cmd = 2) ∧
    ((demo (bl c0 BlitPhase.run (draw 3#8 0#8) 0 0)).runsOn 0 (bl c0 BlitPhase.run (draw 3#8 0#8) 0 0) ∧
     (bl c0 BlitPhase.run (draw 3#8 0#8) 0 0).blitter.phase = BlitPhase.run ∧
     (bl c0 BlitPhase.run (draw 3#8 0#8) 0 0).portFree 4 = true ∧
     1 < (List.drop (bl c0 BlitPhase.run (draw 3#8 0#8) 0 0).blitter.pos ((drawOf (bl c0 BlitPhase.run (draw 3#8 0#8) 0
        0).blitter.cmd).units ((bl c0 BlitPhase.run (draw 3#8 0#8) 0 0).clipsOf (bl c0 BlitPhase.run (draw 3#8 0#8) 0
        0).blitter.cmd))).length ∧
     cmdOp (bl c0 BlitPhase.run (draw 3#8 0#8) 0 0).blitter.cmd = 3) ∧
    ((demo (bl c0 BlitPhase.run (draw 4#8 0#8) 0 0)).runsOn 0 (bl c0 BlitPhase.run (draw 4#8 0#8) 0 0) ∧
     (bl c0 BlitPhase.run (draw 4#8 0#8) 0 0).blitter.phase = BlitPhase.run ∧
     (bl c0 BlitPhase.run (draw 4#8 0#8) 0 0).portFree 4 = true ∧
     0 < (List.drop (bl c0 BlitPhase.run (draw 4#8 0#8) 0 0).blitter.pos ((drawOf (bl c0 BlitPhase.run (draw 4#8 0#8) 0
        0).blitter.cmd).units ((bl c0 BlitPhase.run (draw 4#8 0#8) 0 0).clipsOf (bl c0 BlitPhase.run (draw 4#8 0#8) 0
        0).blitter.cmd))).length ∧
     cmdOp (bl c0 BlitPhase.run (draw 4#8 0#8) 0 0).blitter.cmd = 4) ∧
    ((demo (bl c0 BlitPhase.run (draw 5#8 0#8) 0 0)).runsOn 0 (bl c0 BlitPhase.run (draw 5#8 0#8) 0 0) ∧
     (bl c0 BlitPhase.run (draw 5#8 0#8) 0 0).blitter.phase = BlitPhase.run ∧
     (bl c0 BlitPhase.run (draw 5#8 0#8) 0 0).portFree 4 = true ∧
     1 < (List.drop (bl c0 BlitPhase.run (draw 5#8 0#8) 0 0).blitter.pos ((drawOf (bl c0 BlitPhase.run (draw 5#8 0#8) 0
        0).blitter.cmd).units ((bl c0 BlitPhase.run (draw 5#8 0#8) 0 0).clipsOf (bl c0 BlitPhase.run (draw 5#8 0#8) 0
        0).blitter.cmd))).length ∧
     cmdOp (bl c0 BlitPhase.run (draw 5#8 0#8) 0 0).blitter.cmd = 5) ∧
    ((demo (bl c0 BlitPhase.run (draw 6#8 0#8) 0 0)).runsOn 0 (bl c0 BlitPhase.run (draw 6#8 0#8) 0 0) ∧
     (bl c0 BlitPhase.run (draw 6#8 0#8) 0 0).blitter.phase = BlitPhase.run ∧
     (bl c0 BlitPhase.run (draw 6#8 0#8) 0 0).portFree 4 = true ∧
     1 < (List.drop (bl c0 BlitPhase.run (draw 6#8 0#8) 0 0).blitter.pos ((drawOf (bl c0 BlitPhase.run (draw 6#8 0#8) 0
        0).blitter.cmd).units ((bl c0 BlitPhase.run (draw 6#8 0#8) 0 0).clipsOf (bl c0 BlitPhase.run (draw 6#8 0#8) 0
        0).blitter.cmd))).length ∧
     cmdOp (bl c0 BlitPhase.run (draw 6#8 0#8) 0 0).blitter.cmd = 6) ∧
    ((demo given1).runsOn 0 given1 ∧ given1.blitter.phase = BlitPhase.finished ∧
     ((cmdFlags given1.blitter.cmd).testBit 7 = true ∨ given1.io.bit 0xE640 7 = true ∧ (cmdFlags given1.blitter.cmd).testBit 5
        = true)) ∧
    ((demo given2).runsOn 0 given2 ∧ given2.blitter.phase = BlitPhase.finished ∧
     (¬((cmdFlags given2.blitter.cmd).testBit 7 = true ∨ given2.io.bit 0xE640 7 = true ∧ (cmdFlags given2.blitter.cmd).testBit
        5 = true))) ∧
    ((demo given3).runsOn 0 given3 ∧ given3.blitter.phase = BlitPhase.finished ∧
     ((cmdFlags given3.blitter.cmd).testBit 7 = true ∨ given3.io.bit 0xE640 7 = true ∧ (cmdFlags given3.blitter.cmd).testBit 5
        = true)) ∧
    ((demo given4).runsOn 0 given4 ∧ given4.blitter.phase = BlitPhase.finished ∧
     ((cmdFlags given4.blitter.cmd).testBit 7 = true ∨ given4.io.bit 0xE640 7 = true ∧ (cmdFlags given4.blitter.cmd).testBit 5
        = true)) :=
  ⟨⟨⟨rfl, rfl, rfl⟩, rfl, rfl, rfl⟩,
    ⟨⟨rfl, rfl, rfl⟩, rfl, rfl, rfl⟩,
    ⟨⟨rfl, rfl, rfl⟩, rfl, rfl⟩,
    ⟨⟨rfl, rfl, rfl⟩, (by decide), rfl, rfl, rfl⟩,
    ⟨⟨rfl, rfl, rfl⟩, rfl, rfl, rfl⟩,
    ⟨⟨rfl, rfl, rfl⟩, rfl⟩,
    ⟨⟨rfl, rfl, rfl⟩, rfl, rfl⟩,
    ⟨⟨rfl, rfl, rfl⟩, rfl, rfl⟩,
    ⟨⟨rfl, rfl, rfl⟩, rfl, rfl⟩,
    ⟨⟨rfl, rfl, rfl⟩, rfl, rfl, rfl⟩,
    ⟨⟨rfl, rfl, rfl⟩, rfl, rfl, rfl⟩,
    ⟨⟨rfl, rfl, rfl⟩, rfl, rfl, rfl⟩,
    ⟨⟨rfl, rfl, rfl⟩, rfl, rfl, rfl⟩,
    ⟨⟨rfl, rfl, rfl⟩, rfl, rfl, rfl⟩,
    ⟨⟨rfl, rfl, rfl⟩, rfl, rfl, rfl⟩,
    ⟨⟨rfl, rfl, rfl⟩, rfl, rfl, (by decide), rfl⟩,
    ⟨⟨rfl, rfl, rfl⟩, rfl, rfl, (by decide), rfl⟩,
    ⟨⟨rfl, rfl, rfl⟩, rfl, rfl, (by decide), rfl⟩,
    ⟨⟨rfl, rfl, rfl⟩, rfl, rfl, (by decide), rfl⟩,
    ⟨⟨rfl, rfl, rfl⟩, rfl, rfl, (by decide), rfl⟩,
    ⟨⟨rfl, rfl, rfl⟩, rfl, rfl, (by decide), rfl⟩,
    ⟨⟨rfl, rfl, rfl⟩, rfl, (by decide)⟩,
    ⟨⟨rfl, rfl, rfl⟩, rfl, (by decide)⟩,
    ⟨⟨rfl, rfl, rfl⟩, rfl, (by decide)⟩,
    ⟨⟨rfl, rfl, rfl⟩, rfl, (by decide)⟩⟩

end Blits

namespace Streams

def st (n : Nat) (io : Bytes) (mem : Bytes) (f : DmaStream → DmaStream) : Cell := let c := demoCell io; { c with mem := mem, dma := updateAt c.dma n f }
def src : Bytes := Bytes.put [] 0x3000 ((List.range 16).map fun i => BitVec.ofNat 8 (i+1))
def dsc (ctl : Byte) (last : Byte) (dhi : Byte) : List Byte := [0,0x30,0,0, 0,0x40,0,dhi, 6,0, ctl,0, 0,last, 0xAB,0xCD]
def io0 : Bytes := Bytes.wrN [(dAddr 3 0, 0x80)] (dAddr 3 2) 3 0x5000
def cFe (ctl : Byte) := st 3 io0 (Bytes.put src 0x5000 (dsc ctl 0x80 0)) fun x => { x with phase := .fetch }
def ioR (r : Byte) : Bytes := io0.wr (dAddr 3 1 ) 0 |>.wr (dAddr 3 0) (0x80 + r)
def x0 (ph : DmaPhase) (ctl last dhi : Byte) (x : DmaStream) : DmaStream := { x with phase := ph, desc := dsc ctl last dhi, src := 0x3000, dst := 0x4000 }
def cW (r : Byte) (req : Bool) := st 3 (ioR r) src fun x => { x0 .waiting 0x20 0 0 x with request := req }
def cM := st 3 (ioR 0) src (x0 .moving 0x20 0 0)
def cMp := st 3 (((ioR 0).wr 0xE540 2 |>.wr 0xE542 0xFF)) src (x0 .moving 0x20 0 0)
def up (c : Cell) := Cell.dmaPieces (c.dmaUnit 3 (c.stream 3)) (c.dmaUnit 3 (c.stream 3)) (c.stream 3) c
def cRec (io : Bytes) (f : DmaStream → DmaStream) := st 3 io src (fun x => f (x0 .record 0x80 0x80 0 x))
def ioRing : Bytes := ((io0.wr (dAddr 3 5) 2).wrN (dAddr 3 6) 3 0x7FFF8).wrN (dAddr 3 9) 2 3 |>.wrN (dAddr 3 0xB) 2 1
def ioFull : Bytes := ((io0.wr (dAddr 3 5) 2).wrN (dAddr 3 6) 3 0x7FFF8).wrN (dAddr 3 9) 2 3
def ioRingP : Bytes := ((io0.wr (dAddr 3 5) 2).wrN (dAddr 3 6) 3 0x7F000).wrN (dAddr 3 9) 2 3 |>.wrN (dAddr 3 0xB) 2 1
def cBk : Cell := { cM with dma := updateAt cM.dma 1 fun x => { x with phase := .fetch } }
def given1 := st 3 [] [] fun x => { x with phase := .drain }
def given2 := st 3 [] [] fun x => { x with phase := .drain, restart := true }

theorem witness_DmaStreamsRun :
    ((demo (cFe 0x20#8)).runsOn 0 (cFe 0x20#8) ∧ 3 < (cFe 0x20#8).dma.length ∧ ((cFe 0x20#8).stream 3).phase = DmaPhase.fetch ∧
     (cFe 0x20#8).portFree 3 = true ∧
     (descRuns (List.map (fun i => (cFe 0x20#8).mem.rd (((cFe 0x20#8).descPtr 3 + i) % 0x80000)) (List.range 16)) = true)) ∧
    ((demo (cFe 0x21#8)).runsOn 0 (cFe 0x21#8) ∧ 3 < (cFe 0x21#8).dma.length ∧ ((cFe 0x21#8).stream 3).phase = DmaPhase.fetch ∧
     (cFe 0x21#8).portFree 3 = true ∧
     (descRuns (List.map (fun i => (cFe 0x21#8).mem.rd (((cFe 0x21#8).descPtr 3 + i) % 0x80000)) (List.range 16)) = false)) ∧
    ((demo (cW 5#8 false)).runsOn 0 (cW 5#8 false) ∧ 3 < (cW 5#8 false).dma.length ∧
     ((cW 5#8 false).stream 3).phase = DmaPhase.waiting ∧ (cW 5#8 false).dmaLevel ((cW 5#8 false).dmaReq 3) = some true) ∧
    ((demo (cW 1#8 true)).runsOn 0 (cW 1#8 true) ∧ 3 < (cW 1#8 true).dma.length ∧
     ((cW 1#8 true).stream 3).phase = DmaPhase.waiting ∧ (cW 1#8 true).dmaLevel ((cW 1#8 true).dmaReq 3) = none ∧
     ((cW 1#8 true).stream 3).request = true ∧ (cW 1#8 true).io.bit (dAddr 3 0) 7 = true ∧
     ((cW 1#8 true).stream 3).phase ≠ DmaPhase.idle ∧ ((cW 1#8 true).stream 3).phase ≠ DmaPhase.drain ∧
     ((cW 1#8 true).stream 3).phase ≠ DmaPhase.moving) ∧
    ((demo cBk).runsOn 0 cBk ∧ 3 < cBk.dma.length ∧ cBk.wantsPort 1 = true) ∧
    ((demo cM).runsOn 0 cM ∧ 3 < cM.dma.length ∧ (cM.stream 3).phase = DmaPhase.moving ∧ cM.portFree 3 = true ∧
     Cell.dmaPieces (cM.dmaUnit 3 (cM.stream 3)) (cM.dmaUnit 3 (cM.stream 3)) (cM.stream 3) cM = ((up cM).fst, (up
        cM).snd.fst, none) ∧
     descSio (cM.stream 3).desc = false ∧ descDio (cM.stream 3).desc = false ∧
     ((cM.stream 3).src % 4 = 0 ∧ (cM.stream 3).dst % 4 = 0 ∧ (descCtl (cM.stream 3).desc).testBit 4 = false ∧ (descCtl
        (cM.stream 3).desc).testBit 3 = false ∧ 4 ≤ 6) ∧
     cM.bulkRefused (cM.stream 3).dst = false ∧
     (¬((cM.stream 3).src % 4 = 0 ∧ (cM.stream 3).dst % 4 = 0 ∧ (descCtl (cM.stream 3).desc).testBit 4 = false ∧
        (descCtl (cM.stream 3).desc).testBit 3 = false ∧ 4 ≤ 3)) ∧
     (cM.stream 3).phase ≠ DmaPhase.idle ∧ 2 ≤ BitVec.toNat 0xFFFFFA#24 % 16 ∧ BitVec.toNat 0xFFFFFA#24 % 16 ≤ 10 ∧
     (BitVec.toNat 0xFFFFFB#24 % 16 < 2 ∨ 10 < BitVec.toNat 0xFFFFFB#24 % 16) ∧ cM.io.bit (dAddr 3 0) 7 = true ∧
     Cell.dmaPieces (min (cM.dmaUnit 3 (cM.stream 3)) (Config.droppedPieces cM.free)) (cM.dmaUnit 3 (cM.stream 3))
        (cM.stream 3) { cM with io := cM.io.setBit (dAddr 3 0) 7 false : Cell } = ((Cell.dmaPieces (min (cM.dmaUnit 3
        (cM.stream 3)) (Config.droppedPieces cM.free)) (cM.dmaUnit 3 (cM.stream 3)) (cM.stream 3)
        ({ cM with io := cM.io.setBit (dAddr 3 0) 7 false : Cell })).fst, (Cell.dmaPieces (min (cM.dmaUnit 3 (cM.stream
        3)) (Config.droppedPieces cM.free)) (cM.dmaUnit 3 (cM.stream 3)) (cM.stream 3)
        ({ cM with io := cM.io.setBit (dAddr 3 0) 7 false : Cell })).snd.fst, (Cell.dmaPieces (min (cM.dmaUnit 3
        (cM.stream 3)) (Config.droppedPieces cM.free)) (cM.dmaUnit 3 (cM.stream 3)) (cM.stream 3)
        ({ cM with io := cM.io.setBit (dAddr 3 0) 7 false : Cell })).snd.snd)) ∧
    ((demo cMp).runsOn 0 cMp ∧ 3 < cMp.dma.length ∧ (cMp.stream 3).phase = DmaPhase.moving ∧ cMp.portFree 3 = true ∧
     Cell.dmaPieces (cMp.dmaUnit 3 (cMp.stream 3)) (cMp.dmaUnit 3 (cMp.stream 3)) (cMp.stream 3) cMp = ((up cMp).fst,
        (up cMp).snd.fst, some (2, true)) ∧
     descSio (cMp.stream 3).desc = false ∧ descDio (cMp.stream 3).desc = false ∧ cMp.bulkRefused (cMp.stream 3).dst = true) ∧
    ((demo (cRec ioFull id)).runsOn 0 (cRec ioFull id) ∧ 3 < (cRec ioFull id).dma.length ∧
     ((cRec ioFull id).stream 3).phase = DmaPhase.record ∧ (cRec ioFull id).portFree 3 = true ∧
     (cRec ioFull id).ringFull 3 = true) ∧
    ((demo (cRec ioRing id)).runsOn 0 (cRec ioRing id) ∧ 3 < (cRec ioRing id).dma.length ∧
     ((cRec ioRing id).stream 3).phase = DmaPhase.record ∧ (cRec ioRing id).portFree 3 = true ∧
     (cRec ioRing id).ringFull 3 = false ∧ (cRec ioRing id).io.wf = true ∧ (cRec ioRing id).mem.wf = true) ∧
    (((demo (cRec ioRing fun x => { x with cause := 2 : DmaStream })).runsOn 0 (cRec ioRing fun x =>
        { x with cause := 2 : DmaStream })) ∧
     (3 < (cRec ioRing fun x => { x with cause := 2 : DmaStream }).dma.length) ∧
     (((cRec ioRing fun x => { x with cause := 2 : DmaStream }).stream 3).phase = DmaPhase.record) ∧
     ((cRec ioRing fun x => { x with cause := 2 : DmaStream }).portFree 3 = true) ∧
     ((cRec ioRing fun x => { x with cause := 2 : DmaStream }).ringFull 3 = false) ∧
     ((cRec ioRing fun x => { x with cause := 2 : DmaStream }).io.wf = true) ∧
     ((cRec ioRing fun x => { x with cause := 2 : DmaStream }).mem.wf = true)) ∧
    ((demo (cRec ioRingP id)).runsOn 0 (cRec ioRingP id) ∧ 3 < (cRec ioRingP id).dma.length ∧
     ((cRec ioRingP id).stream 3).phase = DmaPhase.record ∧ (cRec ioRingP id).portFree 3 = true ∧
     (cRec ioRingP id).ringFull 3 = false ∧ (cRec ioRingP id).io.wf = true ∧ (cRec ioRingP id).mem.wf = true) ∧
    ((demo (demoCell [])).runsOn 0 (demoCell []) ∧ 3 < (demoCell []).dma.length ∧
     ((demoCell []).stream 3).phase = DmaPhase.idle ∧ (demoCell []).io.bit (dAddr 3 0) 7 = false) ∧
    ((demo (demoCell io0)).runsOn 0 (demoCell io0) ∧ 3 < (demoCell io0).dma.length ∧
     ((demoCell io0).stream 3).phase = DmaPhase.idle ∧ (demoCell io0).io.bit (dAddr 3 0) 7 = true) ∧
    ((demo given1).runsOn 0 given1 ∧ 3 < given1.dma.length ∧ (given1.stream 3).phase = DmaPhase.drain ∧ (given1.stream 3).restart = false) ∧
    ((demo given2).runsOn 0 given2 ∧ 3 < given2.dma.length ∧ (given2.stream 3).phase = DmaPhase.drain ∧ (given2.stream 3).restart = true) :=
  ⟨⟨⟨rfl, rfl, rfl⟩, (by decide), rfl, rfl, rfl⟩,
    ⟨⟨rfl, rfl, rfl⟩, (by decide), rfl, rfl, rfl⟩,
    ⟨⟨rfl, rfl, rfl⟩, (by decide), rfl, rfl⟩,
    ⟨⟨rfl, rfl, rfl⟩, (by decide), rfl, rfl, rfl, rfl, (by decide), (by decide), (by decide)⟩,
    ⟨⟨rfl, rfl, rfl⟩, (by decide), rfl⟩,
    ⟨⟨rfl, rfl, rfl⟩, (by decide), rfl, rfl, rfl, rfl, rfl, (by decide), rfl, (by decide), (by decide), (by decide),
     (by decide), (by decide), rfl, rfl⟩,
    ⟨⟨rfl, rfl, rfl⟩, (by decide), rfl, rfl, rfl, rfl, rfl, rfl⟩,
    ⟨⟨rfl, rfl, rfl⟩, (by decide), rfl, rfl, rfl⟩,
    ⟨⟨rfl, rfl, rfl⟩, (by decide), rfl, rfl, rfl, rfl, rfl⟩,
    ⟨⟨rfl, rfl, rfl⟩, (by decide), rfl, rfl, rfl, rfl, rfl⟩,
    ⟨⟨rfl, rfl, rfl⟩, (by decide), rfl, rfl, rfl, rfl, rfl⟩,
    ⟨⟨rfl, rfl, rfl⟩, (by decide), rfl, rfl⟩,
    ⟨⟨rfl, rfl, rfl⟩, (by decide), rfl, rfl⟩,
    ⟨⟨rfl, rfl, rfl⟩, (by decide), rfl, rfl⟩,
    ⟨⟨rfl, rfl, rfl⟩, (by decide), rfl, rfl⟩⟩

end Streams

namespace Voices

def ca (io eff : Bytes) (f : Audio → Audio) : Cell := let c := demoCell io; { c with eff := eff, audio := f c.audio }
def cTo := ca [] [(0xEB1C, 9), (0xEB1F, 0x80)] id
def tmg : Bytes := (Bytes.wrN [(0xEB01, 2)] 0xE734 2 128).wrN 0xE73C 2 32
def cCl2 := ca [(0xEB50, 0x44)] tmg fun a => { a with clickDirty := true }
def cCl2' := (Cell.passUntil (fun x => x.audio.chipTicks != cCl2.audio.chipTicks) 2048 cCl2).getD cCl2
def cP (cfg : Byte) (n : Nat) := ca [(0xEB58, cfg)] [] fun a => { a with pcmFifo := List.replicate n 0x55, pcmTrigger := 8, pcmSamples := [7] }
def tmv (l : Bytes) : Bytes := l.foldl (fun m p => m.wr p.1 p.2) tmg
def cTo2 := ca [] (tmv [(0xEB1C, 9), (0xEB1F, 0x80)]) id
def cNo2 := ca [] (tmv [(0xEB20, 9), (0xEB22, 0xC0)]) id
def cWa2 := ca [] (tmv [(0xEB28, 9), (0xEB2A, 0x80)]) id
def ptc (en : Nat) (v : Audio → Option Voice) (c : Cell) : Cell := (Cell.passToChip (Cell.reloads en v) c.dotsLeft c).getD c
def eff730 : Bytes := Bytes.wrN tmg 0xE730 4 0x10000000
def cPs (at_ now : Nat) (f : Audio → Audio) : Cell := let c := ca [(0xEB58, 0xCC)] eff730 fun a => f { a with pcmAt := some at_ }; { c with beam := { c.beam with ctime := now } }
def late (c : Cell) : Cell := { c with beam := { c.beam with line := 31, dot := 126 } }

set_option maxRecDepth 8000 in
theorem witness_VoicesMixerAndOutputs :
    ((demo cTo2).runsOn 0 cTo2 ∧
     (Cell.passToChip (Cell.reloads (0xEB13 + 4 * 3) fun x => x.tones[3]?) cTo2.dotsLeft cTo2 = some (ptc (0xEB13 + 4 *
        3) (fun x => x.tones[3]?) cTo2)) ∧
     cTo2.eff.wf = true) ∧
    ((demo (late cTo2)).runsOn 0 (late cTo2) ∧
     (Cell.passToChip (Cell.reloads (0xEB13 + 4 * 2) fun x => x.tones[2]?) (late cTo2).dotsLeft (late cTo2) = none) ∧
     (Cell.passToChip (Cell.reloads 0xEB22 fun x => some x.noise) (late cTo2).dotsLeft (late cTo2) = none)) ∧
    ((demo cNo2).runsOn 0 cNo2 ∧
     (Cell.passToChip (Cell.reloads 0xEB22 fun x => some x.noise) cNo2.dotsLeft cNo2 = some (ptc 0xEB22 (fun x => some
        x.noise) cNo2)) ∧
     cNo2.eff.wf = true) ∧
    ((demo cWa2).runsOn 0 cWa2 ∧
     (Cell.passToChip (Cell.reloads (0xEB26 + 4 * 1) fun x => x.waves[1]?) cWa2.dotsLeft cWa2 = some (ptc (0xEB26 + 4 *
        1) (fun x => x.waves[1]?) cWa2)) ∧
     cWa2.eff.wf = true) ∧
    ((demo (late cWa2)).runsOn 0 (late cWa2) ∧
     (Cell.passToChip (Cell.reloads (0xEB26 + 4 * 0) fun x => x.waves[0]?) (late cWa2).dotsLeft (late cWa2) = none)) ∧
    ((demo cCl2).runsOn 0 cCl2 ∧ cCl2.audio.clickDirty = true ∧
     (Cell.passUntil (fun x => x.audio.chipTicks != cCl2.audio.chipTicks) 0x800 cCl2 = some cCl2') ∧ cCl2.eff.wf = true) ∧
    ((demo cTo).runsOn 0 cTo ∧ cTo.audio.clickDirty = false ∧
     (cTo.audio.pcmAt = none ∨ BitVec.getLsbD (cTo.io.rd 0xEB58) 7 = false ∨ cTo.nap.napping = true ∨ cTo.audio.pcmSlow
        = true)) ∧
    ((demo (cP 0#8 31)).runsOn 0 (cP 0#8 31) ∧ (cP 0#8 31).audio.pcmFifo.length < 32) ∧
    ((demo (cP 0#8 32)).runsOn 0 (cP 0#8 32) ∧ 32 ≤ (cP 0#8 32).audio.pcmFifo.length) ∧
    ((demo (cP 0xCC#8 32)).runsOn 0 (cP 0xCC#8 32) ∧
     (cP 0xCC#8 32).audio.pcmTrigger.testBit (bitsOf (BitVec.toNat ((cP 0xCC#8 32).io.rd 0xEB58)) 3 2) = true ∧
     BitVec.getLsbD ((cP 0xCC#8 32).io.rd 0xEB58) 7 = true ∧ (cP 0xCC#8 32).nap.napping = false ∧
     100 * 0xBB80 * 0x100000000 < 0x17D78400 * (cP 0xCC#8 32).ioFreq ∧
     ¬0x2710 * 0xBB80 * 0x100000000 < 0x17D78400 * (cP 0xCC#8 32).ioFreq ∧
     (if bitsOf (BitVec.toNat ((cP 0xCC#8 32).io.rd 0xEB58)) 6 5 = 2 then 2 else 1) ≤ (cP 0xCC#8 32).audio.pcmFifo.length) ∧
    ((demo (cP 0xCC#8 1)).runsOn 0 (cP 0xCC#8 1) ∧
     (cP 0xCC#8 1).audio.pcmTrigger.testBit (bitsOf (BitVec.toNat ((cP 0xCC#8 1).io.rd 0xEB58)) 3 2) = true ∧
     BitVec.getLsbD ((cP 0xCC#8 1).io.rd 0xEB58) 7 = true ∧ (cP 0xCC#8 1).nap.napping = false ∧
     ¬0x2710 * 0xBB80 * 0x100000000 < 0x17D78400 * (cP 0xCC#8 1).ioFreq ∧
     (cP 0xCC#8 1).audio.pcmFifo.length < if bitsOf (BitVec.toNat ((cP 0xCC#8 1).io.rd 0xEB58)) 6 5 = 2 then 2 else 1) ∧
    ((demo (cPs 5 0xF4240 id)).runsOn 0 (cPs 5 0xF4240 id) ∧ (cPs 5 0xF4240 id).audio.pcmAt = some 5 ∧
     BitVec.getLsbD ((cPs 5 0xF4240 id).io.rd 0xEB58) 7 = true ∧ (cPs 5 0xF4240 id).nap.napping = false ∧
     (cPs 5 0xF4240 id).audio.pcmSlow = false ∧
     5 + 0x61A8 * (cPs 5 0xF4240 id).eff.rdN 0xE730 4 / 0x100000000 ≤ (cPs 5 0xF4240 id).beam.ctime) ∧
    ((demo (cPs 5 0x618 id)).runsOn 0 (cPs 5 0x618 id) ∧ (cPs 5 0x618 id).audio.pcmAt = some 5 ∧
     BitVec.getLsbD ((cPs 5 0x618 id).io.rd 0xEB58) 7 = true ∧ (cPs 5 0x618 id).nap.napping = false ∧
     (cPs 5 0x618 id).audio.pcmSlow = false ∧
     (cPs 5 0x618 id).beam.ctime < 5 + 0x61A8 * (cPs 5 0x618 id).eff.rdN 0xE730 4 / 0x100000000 ∧
     (cPs 5 0x618 id).runToTime (5 + 0x61A8 * (cPs 5 0x618 id).eff.rdN 0xE730 4 / 0x100000000) = some (((cPs 5 0x618
        id).runToTime 0x61F).getD (cPs 5 0x618 id))) ∧
    ((demo (late (cPs 0xDBBA0 0x5DC id))).runsOn 0 (late (cPs 0xDBBA0 0x5DC id)) ∧
     (late (cPs 0xDBBA0 0x5DC id)).audio.pcmAt = some 0xDBBA0 ∧
     BitVec.getLsbD ((late (cPs 0xDBBA0 0x5DC id)).io.rd 0xEB58) 7 = true ∧ (late (cPs 0xDBBA0 0x5DC id)).nap.napping = false ∧
     (late (cPs 0xDBBA0 0x5DC id)).audio.pcmSlow = false ∧
     (late (cPs 0xDBBA0 0x5DC id)).beam.ctime < 0xDBBA0 + 0x61A8 * (late (cPs 0xDBBA0 0x5DC id)).eff.rdN 0xE730 4 /
        0x100000000 ∧
     (late (cPs 0xDBBA0 0x5DC id)).runToTime (0xDBBA0 + 0x61A8 * (late (cPs 0xDBBA0 0x5DC id)).eff.rdN 0xE730 4 /
        0x100000000) = none) :=
  ⟨⟨⟨rfl, rfl, rfl⟩, rfl, rfl⟩,
    ⟨⟨rfl, rfl, rfl⟩, rfl, rfl⟩,
    ⟨⟨rfl, rfl, rfl⟩, rfl, rfl⟩,
    ⟨⟨rfl, rfl, rfl⟩, rfl, rfl⟩,
    ⟨⟨rfl, rfl, rfl⟩, rfl⟩,
    ⟨⟨rfl, rfl, rfl⟩, rfl, rfl, rfl⟩,
    ⟨⟨rfl, rfl, rfl⟩, rfl, (by decide)⟩,
    ⟨⟨rfl, rfl, rfl⟩, (by decide)⟩,
    ⟨⟨rfl, rfl, rfl⟩, (by decide)⟩,
    ⟨⟨rfl, rfl, rfl⟩, rfl, rfl, rfl, (by decide), (by decide), (by decide)⟩,
    ⟨⟨rfl, rfl, rfl⟩, rfl, rfl, rfl, (by decide), (by decide)⟩,
    ⟨⟨rfl, rfl, rfl⟩, rfl, rfl, rfl, rfl, (by decide)⟩,
    ⟨⟨rfl, rfl, rfl⟩, rfl, rfl, rfl, rfl, (by decide), rfl⟩,
    ⟨⟨rfl, rfl, rfl⟩, rfl, rfl, rfl, rfl, (by decide), rfl⟩⟩

end Voices

namespace Mixing

def ca (io eff : Bytes) (f : Audio → Audio) : Cell := let c := demoCell io; { c with eff := eff, audio := f c.audio }
def cG := ca [(0xEB60, 95)] [] id
def cAp := ca [] [(0xEB00, 0x80)] fun a => { a with packet := List.replicate 48 (0x123456, -5), mixTicks := 96 }
def cPi := ca [] [] fun a => { a with pinIn := { a.pinIn with ticks := 48, empties := 3 } }
def cPi2 := ca [] [] fun a => { a with pinIn := { a.pinIn with ticks := 48, empties := 2, fulls := 2 } }
def cPw := ca [] [(0xEB90, 100), (0xEB93, 0x80)] id
def cLb := ca [] [] fun a => { a with loopback := [0x12345678, 4] }
def cMx := ca [] [(0xEB98, 0x80)] fun a => { a with nodes := [], outs := a.outs.take 2 }
def cNp : Cell := { cG with nap := { cG.nap with napping := true } }

set_option maxRecDepth 8000 in
theorem witness_VoicesMixerAndOutputs_more :
    ((demo cG).runsOn 0 cG ∧ cG.holds.wf = true ∧ BitVec.toNat (cG.io.rd 0xEB60) % 128 < 96) ∧
    ((demo cNp).runsOn 0 cNp ∧ cNp.nap.napping = true) ∧
    ((demo cMx).runsOn 0 cMx ∧ cMx.nap.napping = false) ∧
    ((demo cAp).runsOn 0 cAp ∧ cAp.audio.packet.length = 48 ∧ cAp.audio.mixTicks % 48 = 0 ∧ cAp.eff.bit 0xEB00 7 = true) ∧
    ((demo cPi).runsOn 0 cPi ∧ 48 ≤ cPi.audio.pinIn.ticks ∧ (2 < cPi.audio.pinIn.empties ∨ 2 < cPi.audio.pinIn.fulls) ∧
     cPi.audio.pinIn.refused = false) ∧
    ((demo cPi2).runsOn 0 cPi2 ∧ 48 ≤ cPi2.audio.pinIn.ticks ∧
     (¬((2 < cPi2.audio.pinIn.empties ∨ 2 < cPi2.audio.pinIn.fulls) ∧ cPi2.audio.pinIn.refused = false))) ∧
    ((demo cPw).runsOn 0 cPw ∧ cPw.eff.bit (0xEB92 + 1) 7 = true) ∧
    ((demo cLb).runsOn 0 cLb ∧ cLb.audio.loopback = [0x12345678#32, 4#32] ∧ cLb.latched.wf = true) :=
  ⟨⟨⟨rfl, rfl, rfl⟩, rfl, (by decide)⟩,
    ⟨⟨rfl, rfl, rfl⟩, rfl⟩,
    ⟨⟨rfl, rfl, rfl⟩, rfl⟩,
    ⟨⟨rfl, rfl, rfl⟩, rfl, rfl, rfl⟩,
    ⟨⟨rfl, rfl, rfl⟩, (by decide), (by decide), rfl⟩,
    ⟨⟨rfl, rfl, rfl⟩, (by decide), (by decide)⟩,
    ⟨⟨rfl, rfl, rfl⟩, rfl⟩,
    ⟨⟨rfl, rfl, rfl⟩, rfl, rfl⟩⟩

end Mixing

namespace Engines

def prog (w : Nat) (f : Engine → Engine) (extra : List (Nat × Byte)) : Cell :=
  let io : Bytes := Bytes.wrN [(0xE400, 4), (eAddr 2 3, 5), (eAddr 2 4, 3)] (0xE480 + 10) 2 w
  let io := extra.foldl (fun m p => m.wr p.1 p.2) io
  let c := demoCell io
  c.setEngine 2 (f { c.engine 2 with k0 := 3, rs := 5, ts := 0xABCD, tn := 16, a := 0x1234 })
def e0 := (prog 0 id []).engine 2
def u0 (l : List (Nat × Byte)) := (prog 0 id l).pioSetup 2
def cLk := demoCell [(0xE401, 0x80)]
def given1 := prog 0x0042 id []
def given2 := prog 0x0047 id []
def given3 := prog 0x1143 id []
def given4 := prog 0x2048 id []
def given5 := prog 0x3088 id []
def given6 := prog 0x4000 id []
def given7 := prog 0x5000 id []
def given8 := prog 0x6041 id []
def given9 := prog 0x7045 id []
def given10 := prog 0x1147 id []
def given11 := prog 0x8007 id []
def given12 := prog 0x9000 id []
def given13 := prog 0x0242 id []
def given14 := prog 0xA042 id []
def given15 := prog 0x1234 id []
def given16 := prog 0x1234 (fun e => { e with tx := [1,2,3,4] }) []
def given17 := prog 0x1234 (fun e => { e with rx := [0x12345678,2] }) []

set_option maxRecDepth 8000 in
theorem witness_PioEnginesRun :
    ((demo given1).runsOn 0 given1 ∧ given1.io.bit 0xE400 2 = true ∧ given1.nap.napping = false ∧
     ((BitVec.toNat
        (({ given1.engine 2 with pc := if (given1.pioSetup 2).len ≤ (given1.engine 2).pc then 0 else (given1.engine 2).pc : Engine }).latch.getD
        (BitVec.ofNat 16 (given1.io.rdN (0xE480 + 2 * ((given1.pioSetup 2).base +
        ({ given1.engine 2 with pc := if (given1.pioSetup 2).len ≤ (given1.engine 2).pc then 0 else (given1.engine 2).pc : Engine }).pc))
        2)))).testBit 11 = true ∨ bitsOf (BitVec.toNat
        (({ given1.engine 2 with pc := if (given1.pioSetup 2).len ≤ (given1.engine 2).pc then 0 else (given1.engine 2).pc : Engine }).latch.getD
        (BitVec.ofNat 16 (given1.io.rdN (0xE480 + 2 * ((given1.pioSetup 2).base +
        ({ given1.engine 2 with pc := if (given1.pioSetup 2).len ≤ (given1.engine 2).pc then 0 else (given1.engine 2).pc : Engine }).pc))
        2)))) 10 9 = 0) ∧
     BitVec.toNat
        (({ given1.engine 2 with pc := if (given1.pioSetup 2).len ≤ (given1.engine 2).pc then 0 else (given1.engine 2).pc : Engine }).latch.getD
        (BitVec.ofNat 16 (given1.io.rdN (0xE480 + 2 * ((given1.pioSetup 2).base +
        ({ given1.engine 2 with pc := if (given1.pioSetup 2).len ≤ (given1.engine 2).pc then 0 else (given1.engine 2).pc : Engine }).pc))
        2))) / 0x1000 = 0) ∧
    ((demo given2).runsOn 0 given2 ∧ given2.io.bit 0xE400 2 = true ∧ given2.nap.napping = false ∧
     ((BitVec.toNat
        (({ given2.engine 2 with pc := if (given2.pioSetup 2).len ≤ (given2.engine 2).pc then 0 else (given2.engine 2).pc : Engine }).latch.getD
        (BitVec.ofNat 16 (given2.io.rdN (0xE480 + 2 * ((given2.pioSetup 2).base +
        ({ given2.engine 2 with pc := if (given2.pioSetup 2).len ≤ (given2.engine 2).pc then 0 else (given2.engine 2).pc : Engine }).pc))
        2)))).testBit 11 = true ∨ bitsOf (BitVec.toNat
        (({ given2.engine 2 with pc := if (given2.pioSetup 2).len ≤ (given2.engine 2).pc then 0 else (given2.engine 2).pc : Engine }).latch.getD
        (BitVec.ofNat 16 (given2.io.rdN (0xE480 + 2 * ((given2.pioSetup 2).base +
        ({ given2.engine 2 with pc := if (given2.pioSetup 2).len ≤ (given2.engine 2).pc then 0 else (given2.engine 2).pc : Engine }).pc))
        2)))) 10 9 = 0) ∧
     BitVec.toNat
        (({ given2.engine 2 with pc := if (given2.pioSetup 2).len ≤ (given2.engine 2).pc then 0 else (given2.engine 2).pc : Engine }).latch.getD
        (BitVec.ofNat 16 (given2.io.rdN (0xE480 + 2 * ((given2.pioSetup 2).base +
        ({ given2.engine 2 with pc := if (given2.pioSetup 2).len ≤ (given2.engine 2).pc then 0 else (given2.engine 2).pc : Engine }).pc))
        2))) / 0x1000 = 0) ∧
    ((demo given3).runsOn 0 given3 ∧ given3.io.bit 0xE400 2 = true ∧ given3.nap.napping = false ∧
     ((BitVec.toNat
        (({ given3.engine 2 with pc := if (given3.pioSetup 2).len ≤ (given3.engine 2).pc then 0 else (given3.engine 2).pc : Engine }).latch.getD
        (BitVec.ofNat 16 (given3.io.rdN (0xE480 + 2 * ((given3.pioSetup 2).base +
        ({ given3.engine 2 with pc := if (given3.pioSetup 2).len ≤ (given3.engine 2).pc then 0 else (given3.engine 2).pc : Engine }).pc))
        2)))).testBit 11 = true ∨ bitsOf (BitVec.toNat
        (({ given3.engine 2 with pc := if (given3.pioSetup 2).len ≤ (given3.engine 2).pc then 0 else (given3.engine 2).pc : Engine }).latch.getD
        (BitVec.ofNat 16 (given3.io.rdN (0xE480 + 2 * ((given3.pioSetup 2).base +
        ({ given3.engine 2 with pc := if (given3.pioSetup 2).len ≤ (given3.engine 2).pc then 0 else (given3.engine 2).pc : Engine }).pc))
        2)))) 10 9 = 0) ∧
     BitVec.toNat
        (({ given3.engine 2 with pc := if (given3.pioSetup 2).len ≤ (given3.engine 2).pc then 0 else (given3.engine 2).pc : Engine }).latch.getD
        (BitVec.ofNat 16 (given3.io.rdN (0xE480 + 2 * ((given3.pioSetup 2).base +
        ({ given3.engine 2 with pc := if (given3.pioSetup 2).len ≤ (given3.engine 2).pc then 0 else (given3.engine 2).pc : Engine }).pc))
        2))) / 0x1000 = 1) ∧
    ((demo given4).runsOn 0 given4 ∧ given4.io.bit 0xE400 2 = true ∧ given4.nap.napping = false ∧
     ((BitVec.toNat
        (({ given4.engine 2 with pc := if (given4.pioSetup 2).len ≤ (given4.engine 2).pc then 0 else (given4.engine 2).pc : Engine }).latch.getD
        (BitVec.ofNat 16 (given4.io.rdN (0xE480 + 2 * ((given4.pioSetup 2).base +
        ({ given4.engine 2 with pc := if (given4.pioSetup 2).len ≤ (given4.engine 2).pc then 0 else (given4.engine 2).pc : Engine }).pc))
        2)))).testBit 11 = true ∨ bitsOf (BitVec.toNat
        (({ given4.engine 2 with pc := if (given4.pioSetup 2).len ≤ (given4.engine 2).pc then 0 else (given4.engine 2).pc : Engine }).latch.getD
        (BitVec.ofNat 16 (given4.io.rdN (0xE480 + 2 * ((given4.pioSetup 2).base +
        ({ given4.engine 2 with pc := if (given4.pioSetup 2).len ≤ (given4.engine 2).pc then 0 else (given4.engine 2).pc : Engine }).pc))
        2)))) 10 9 = 0) ∧
     BitVec.toNat
        (({ given4.engine 2 with pc := if (given4.pioSetup 2).len ≤ (given4.engine 2).pc then 0 else (given4.engine 2).pc : Engine }).latch.getD
        (BitVec.ofNat 16 (given4.io.rdN (0xE480 + 2 * ((given4.pioSetup 2).base +
        ({ given4.engine 2 with pc := if (given4.pioSetup 2).len ≤ (given4.engine 2).pc then 0 else (given4.engine 2).pc : Engine }).pc))
        2))) / 0x1000 = 2) ∧
    ((demo given5).runsOn 0 given5 ∧ given5.io.bit 0xE400 2 = true ∧ given5.nap.napping = false ∧
     ((BitVec.toNat
        (({ given5.engine 2 with pc := if (given5.pioSetup 2).len ≤ (given5.engine 2).pc then 0 else (given5.engine 2).pc : Engine }).latch.getD
        (BitVec.ofNat 16 (given5.io.rdN (0xE480 + 2 * ((given5.pioSetup 2).base +
        ({ given5.engine 2 with pc := if (given5.pioSetup 2).len ≤ (given5.engine 2).pc then 0 else (given5.engine 2).pc : Engine }).pc))
        2)))).testBit 11 = true ∨ bitsOf (BitVec.toNat
        (({ given5.engine 2 with pc := if (given5.pioSetup 2).len ≤ (given5.engine 2).pc then 0 else (given5.engine 2).pc : Engine }).latch.getD
        (BitVec.ofNat 16 (given5.io.rdN (0xE480 + 2 * ((given5.pioSetup 2).base +
        ({ given5.engine 2 with pc := if (given5.pioSetup 2).len ≤ (given5.engine 2).pc then 0 else (given5.engine 2).pc : Engine }).pc))
        2)))) 10 9 = 0) ∧
     BitVec.toNat
        (({ given5.engine 2 with pc := if (given5.pioSetup 2).len ≤ (given5.engine 2).pc then 0 else (given5.engine 2).pc : Engine }).latch.getD
        (BitVec.ofNat 16 (given5.io.rdN (0xE480 + 2 * ((given5.pioSetup 2).base +
        ({ given5.engine 2 with pc := if (given5.pioSetup 2).len ≤ (given5.engine 2).pc then 0 else (given5.engine 2).pc : Engine }).pc))
        2))) / 0x1000 = 3) ∧
    ((demo given6).runsOn 0 given6 ∧ given6.io.bit 0xE400 2 = true ∧ given6.nap.napping = false ∧
     ((BitVec.toNat
        (({ given6.engine 2 with pc := if (given6.pioSetup 2).len ≤ (given6.engine 2).pc then 0 else (given6.engine 2).pc : Engine }).latch.getD
        (BitVec.ofNat 16 (given6.io.rdN (0xE480 + 2 * ((given6.pioSetup 2).base +
        ({ given6.engine 2 with pc := if (given6.pioSetup 2).len ≤ (given6.engine 2).pc then 0 else (given6.engine 2).pc : Engine }).pc))
        2)))).testBit 11 = true ∨ bitsOf (BitVec.toNat
        (({ given6.engine 2 with pc := if (given6.pioSetup 2).len ≤ (given6.engine 2).pc then 0 else (given6.engine 2).pc : Engine }).latch.getD
        (BitVec.ofNat 16 (given6.io.rdN (0xE480 + 2 * ((given6.pioSetup 2).base +
        ({ given6.engine 2 with pc := if (given6.pioSetup 2).len ≤ (given6.engine 2).pc then 0 else (given6.engine 2).pc : Engine }).pc))
        2)))) 10 9 = 0) ∧
     BitVec.toNat
        (({ given6.engine 2 with pc := if (given6.pioSetup 2).len ≤ (given6.engine 2).pc then 0 else (given6.engine 2).pc : Engine }).latch.getD
        (BitVec.ofNat 16 (given6.io.rdN (0xE480 + 2 * ((given6.pioSetup 2).base +
        ({ given6.engine 2 with pc := if (given6.pioSetup 2).len ≤ (given6.engine 2).pc then 0 else (given6.engine 2).pc : Engine }).pc))
        2))) / 0x1000 = 4) ∧
    ((demo given7).runsOn 0 given7 ∧ given7.io.bit 0xE400 2 = true ∧ given7.nap.napping = false ∧
     ((BitVec.toNat
        (({ given7.engine 2 with pc := if (given7.pioSetup 2).len ≤ (given7.engine 2).pc then 0 else (given7.engine 2).pc : Engine }).latch.getD
        (BitVec.ofNat 16 (given7.io.rdN (0xE480 + 2 * ((given7.pioSetup 2).base +
        ({ given7.engine 2 with pc := if (given7.pioSetup 2).len ≤ (given7.engine 2).pc then 0 else (given7.engine 2).pc : Engine }).pc))
        2)))).testBit 11 = true ∨ bitsOf (BitVec.toNat
        (({ given7.engine 2 with pc := if (given7.pioSetup 2).len ≤ (given7.engine 2).pc then 0 else (given7.engine 2).pc : Engine }).latch.getD
        (BitVec.ofNat 16 (given7.io.rdN (0xE480 + 2 * ((given7.pioSetup 2).base +
        ({ given7.engine 2 with pc := if (given7.pioSetup 2).len ≤ (given7.engine 2).pc then 0 else (given7.engine 2).pc : Engine }).pc))
        2)))) 10 9 = 0) ∧
     BitVec.toNat
        (({ given7.engine 2 with pc := if (given7.pioSetup 2).len ≤ (given7.engine 2).pc then 0 else (given7.engine 2).pc : Engine }).latch.getD
        (BitVec.ofNat 16 (given7.io.rdN (0xE480 + 2 * ((given7.pioSetup 2).base +
        ({ given7.engine 2 with pc := if (given7.pioSetup 2).len ≤ (given7.engine 2).pc then 0 else (given7.engine 2).pc : Engine }).pc))
        2))) / 0x1000 = 5) ∧
    ((demo given8).runsOn 0 given8 ∧ given8.io.bit 0xE400 2 = true ∧ given8.nap.napping = false ∧
     ((BitVec.toNat
        (({ given8.engine 2 with pc := if (given8.pioSetup 2).len ≤ (given8.engine 2).pc then 0 else (given8.engine 2).pc : Engine }).latch.getD
        (BitVec.ofNat 16 (given8.io.rdN (0xE480 + 2 * ((given8.pioSetup 2).base +
        ({ given8.engine 2 with pc := if (given8.pioSetup 2).len ≤ (given8.engine 2).pc then 0 else (given8.engine 2).pc : Engine }).pc))
        2)))).testBit 11 = true ∨ bitsOf (BitVec.toNat
        (({ given8.engine 2 with pc := if (given8.pioSetup 2).len ≤ (given8.engine 2).pc then 0 else (given8.engine 2).pc : Engine }).latch.getD
        (BitVec.ofNat 16 (given8.io.rdN (0xE480 + 2 * ((given8.pioSetup 2).base +
        ({ given8.engine 2 with pc := if (given8.pioSetup 2).len ≤ (given8.engine 2).pc then 0 else (given8.engine 2).pc : Engine }).pc))
        2)))) 10 9 = 0) ∧
     BitVec.toNat
        (({ given8.engine 2 with pc := if (given8.pioSetup 2).len ≤ (given8.engine 2).pc then 0 else (given8.engine 2).pc : Engine }).latch.getD
        (BitVec.ofNat 16 (given8.io.rdN (0xE480 + 2 * ((given8.pioSetup 2).base +
        ({ given8.engine 2 with pc := if (given8.pioSetup 2).len ≤ (given8.engine 2).pc then 0 else (given8.engine 2).pc : Engine }).pc))
        2))) / 0x1000 = 6) ∧
    ((demo given9).runsOn 0 given9 ∧ given9.io.bit 0xE400 2 = true ∧ given9.nap.napping = false ∧
     ((BitVec.toNat
        (({ given9.engine 2 with pc := if (given9.pioSetup 2).len ≤ (given9.engine 2).pc then 0 else (given9.engine 2).pc : Engine }).latch.getD
        (BitVec.ofNat 16 (given9.io.rdN (0xE480 + 2 * ((given9.pioSetup 2).base +
        ({ given9.engine 2 with pc := if (given9.pioSetup 2).len ≤ (given9.engine 2).pc then 0 else (given9.engine 2).pc : Engine }).pc))
        2)))).testBit 11 = true ∨ bitsOf (BitVec.toNat
        (({ given9.engine 2 with pc := if (given9.pioSetup 2).len ≤ (given9.engine 2).pc then 0 else (given9.engine 2).pc : Engine }).latch.getD
        (BitVec.ofNat 16 (given9.io.rdN (0xE480 + 2 * ((given9.pioSetup 2).base +
        ({ given9.engine 2 with pc := if (given9.pioSetup 2).len ≤ (given9.engine 2).pc then 0 else (given9.engine 2).pc : Engine }).pc))
        2)))) 10 9 = 0) ∧
     BitVec.toNat
        (({ given9.engine 2 with pc := if (given9.pioSetup 2).len ≤ (given9.engine 2).pc then 0 else (given9.engine 2).pc : Engine }).latch.getD
        (BitVec.ofNat 16 (given9.io.rdN (0xE480 + 2 * ((given9.pioSetup 2).base +
        ({ given9.engine 2 with pc := if (given9.pioSetup 2).len ≤ (given9.engine 2).pc then 0 else (given9.engine 2).pc : Engine }).pc))
        2))) / 0x1000 = 7) ∧
    ((demo given10).runsOn 0 given10 ∧ given10.io.bit 0xE400 2 = true ∧ given10.nap.napping = false ∧
     ((BitVec.toNat
        (({ given10.engine 2 with pc := if (given10.pioSetup 2).len ≤ (given10.engine 2).pc then 0 else (given10.engine 2).pc : Engine }).latch.getD
        (BitVec.ofNat 16 (given10.io.rdN (0xE480 + 2 * ((given10.pioSetup 2).base +
        ({ given10.engine 2 with pc := if (given10.pioSetup 2).len ≤ (given10.engine 2).pc then 0 else (given10.engine 2).pc : Engine }).pc))
        2)))).testBit 11 = true ∨ bitsOf (BitVec.toNat
        (({ given10.engine 2 with pc := if (given10.pioSetup 2).len ≤ (given10.engine 2).pc then 0 else (given10.engine 2).pc : Engine }).latch.getD
        (BitVec.ofNat 16 (given10.io.rdN (0xE480 + 2 * ((given10.pioSetup 2).base +
        ({ given10.engine 2 with pc := if (given10.pioSetup 2).len ≤ (given10.engine 2).pc then 0 else (given10.engine 2).pc : Engine }).pc))
        2)))) 10 9 = 0) ∧
     BitVec.toNat
        (({ given10.engine 2 with pc := if (given10.pioSetup 2).len ≤ (given10.engine 2).pc then 0 else (given10.engine 2).pc : Engine }).latch.getD
        (BitVec.ofNat 16 (given10.io.rdN (0xE480 + 2 * ((given10.pioSetup 2).base +
        ({ given10.engine 2 with pc := if (given10.pioSetup 2).len ≤ (given10.engine 2).pc then 0 else (given10.engine 2).pc : Engine }).pc))
        2))) / 0x1000 = 1) ∧
    ((demo given11).runsOn 0 given11 ∧ given11.io.bit 0xE400 2 = true ∧ given11.nap.napping = false ∧
     ((BitVec.toNat
        (({ given11.engine 2 with pc := if (given11.pioSetup 2).len ≤ (given11.engine 2).pc then 0 else (given11.engine 2).pc : Engine }).latch.getD
        (BitVec.ofNat 16 (given11.io.rdN (0xE480 + 2 * ((given11.pioSetup 2).base +
        ({ given11.engine 2 with pc := if (given11.pioSetup 2).len ≤ (given11.engine 2).pc then 0 else (given11.engine 2).pc : Engine }).pc))
        2)))).testBit 11 = true ∨ bitsOf (BitVec.toNat
        (({ given11.engine 2 with pc := if (given11.pioSetup 2).len ≤ (given11.engine 2).pc then 0 else (given11.engine 2).pc : Engine }).latch.getD
        (BitVec.ofNat 16 (given11.io.rdN (0xE480 + 2 * ((given11.pioSetup 2).base +
        ({ given11.engine 2 with pc := if (given11.pioSetup 2).len ≤ (given11.engine 2).pc then 0 else (given11.engine 2).pc : Engine }).pc))
        2)))) 10 9 = 0) ∧
     BitVec.toNat
        (({ given11.engine 2 with pc := if (given11.pioSetup 2).len ≤ (given11.engine 2).pc then 0 else (given11.engine 2).pc : Engine }).latch.getD
        (BitVec.ofNat 16 (given11.io.rdN (0xE480 + 2 * ((given11.pioSetup 2).base +
        ({ given11.engine 2 with pc := if (given11.pioSetup 2).len ≤ (given11.engine 2).pc then 0 else (given11.engine 2).pc : Engine }).pc))
        2))) / 0x1000 = 8) ∧
    ((demo given12).runsOn 0 given12 ∧ given12.io.bit 0xE400 2 = true ∧ given12.nap.napping = false ∧
     ((BitVec.toNat
        (({ given12.engine 2 with pc := if (given12.pioSetup 2).len ≤ (given12.engine 2).pc then 0 else (given12.engine 2).pc : Engine }).latch.getD
        (BitVec.ofNat 16 (given12.io.rdN (0xE480 + 2 * ((given12.pioSetup 2).base +
        ({ given12.engine 2 with pc := if (given12.pioSetup 2).len ≤ (given12.engine 2).pc then 0 else (given12.engine 2).pc : Engine }).pc))
        2)))).testBit 11 = true ∨ bitsOf (BitVec.toNat
        (({ given12.engine 2 with pc := if (given12.pioSetup 2).len ≤ (given12.engine 2).pc then 0 else (given12.engine 2).pc : Engine }).latch.getD
        (BitVec.ofNat 16 (given12.io.rdN (0xE480 + 2 * ((given12.pioSetup 2).base +
        ({ given12.engine 2 with pc := if (given12.pioSetup 2).len ≤ (given12.engine 2).pc then 0 else (given12.engine 2).pc : Engine }).pc))
        2)))) 10 9 = 0) ∧
     BitVec.toNat
        (({ given12.engine 2 with pc := if (given12.pioSetup 2).len ≤ (given12.engine 2).pc then 0 else (given12.engine 2).pc : Engine }).latch.getD
        (BitVec.ofNat 16 (given12.io.rdN (0xE480 + 2 * ((given12.pioSetup 2).base +
        ({ given12.engine 2 with pc := if (given12.pioSetup 2).len ≤ (given12.engine 2).pc then 0 else (given12.engine 2).pc : Engine }).pc))
        2))) / 0x1000 = 9) ∧
    ((demo given13).runsOn 0 given13 ∧ given13.io.bit 0xE400 2 = true ∧ given13.nap.napping = false ∧
     (¬((BitVec.toNat
        (({ given13.engine 2 with pc := if (given13.pioSetup 2).len ≤ (given13.engine 2).pc then 0 else (given13.engine 2).pc : Engine }).latch.getD
        (BitVec.ofNat 16 (given13.io.rdN (0xE480 + 2 * ((given13.pioSetup 2).base +
        ({ given13.engine 2 with pc := if (given13.pioSetup 2).len ≤ (given13.engine 2).pc then 0 else (given13.engine 2).pc : Engine }).pc))
        2)))).testBit 11 = true ∨ bitsOf (BitVec.toNat
        (({ given13.engine 2 with pc := if (given13.pioSetup 2).len ≤ (given13.engine 2).pc then 0 else (given13.engine 2).pc : Engine }).latch.getD
        (BitVec.ofNat 16 (given13.io.rdN (0xE480 + 2 * ((given13.pioSetup 2).base +
        ({ given13.engine 2 with pc := if (given13.pioSetup 2).len ≤ (given13.engine 2).pc then 0 else (given13.engine 2).pc : Engine }).pc))
        2)))) 10 9 = 0)) ∧
     BitVec.toNat
        (({ given13.engine 2 with pc := if (given13.pioSetup 2).len ≤ (given13.engine 2).pc then 0 else (given13.engine 2).pc : Engine }).latch.getD
        (BitVec.ofNat 16 (given13.io.rdN (0xE480 + 2 * ((given13.pioSetup 2).base +
        ({ given13.engine 2 with pc := if (given13.pioSetup 2).len ≤ (given13.engine 2).pc then 0 else (given13.engine 2).pc : Engine }).pc))
        2))) / 0x1000 = 0) ∧
    ((demo given14).runsOn 0 given14 ∧ given14.io.bit 0xE400 2 = true ∧ given14.nap.napping = false ∧
     10 ≤ BitVec.toNat
        (({ given14.engine 2 with pc := if (given14.pioSetup 2).len ≤ (given14.engine 2).pc then 0 else (given14.engine 2).pc : Engine }).latch.getD
        (BitVec.ofNat 16 (given14.io.rdN (0xE480 + 2 * ((given14.pioSetup 2).base +
        ({ given14.engine 2 with pc := if (given14.pioSetup 2).len ≤ (given14.engine 2).pc then 0 else (given14.engine 2).pc : Engine }).pc))
        2))) / 0x1000) ∧
    (bitsOf 66 8 6 = 1) ∧
    (bitsOf 450 8 6 = 7) ∧
    (Nat.testBit 98 5 = true) ∧
    (bitsOf 72 8 6 = 1 ∧ Nat.testBit 72 5 = false ∧ (u0 [(eAddr 2 5, 0x10#8)]).autoPush = false ∧
     (u0 [(eAddr 2 5, 0x10#8)]).inMsb = true) ∧
    (bitsOf 64 8 6 = 1 ∧ Nat.testBit 64 5 = false ∧ (u0 [(eAddr 2 5, 0x10#8)]).autoPush = false ∧
     (u0 [(eAddr 2 5, 0x10#8)]).inMsb = true) ∧
    (bitsOf 136 8 6 = 2 ∧ Nat.testBit 136 5 = false ∧ ((u0 []).autoPull = false ∨ e0.tn ≠ 0) ∧ (u0 []).outMsb = false ∧
     (u0 [(eAddr 2 5, 0x80#8)]).autoPull = true ∧ ({ e0 with tn := 0 : Engine }).tn = 0 ∧
     ({ e0 with tn := 0 : Engine }).tx = []) ∧
    (bitsOf 128 8 6 = 2 ∧ Nat.testBit 128 5 = false ∧ ((u0 []).autoPull = false ∨ e0.tn ≠ 0) ∧ (u0 []).outMsb = false) ∧
    (e0.rx.length < (u0 []).rxDepth) ∧
    ((u0 []).rxDepth ≤ ({ e0 with rx := [1#32, 2#32, 3#32, 4#32] : Engine }).rx.length) ∧
    (({ e0 with tx := [1#32, 2#32, 3#32, 4#32] : Engine }).tx = [1#32, 2#32, 3#32, 4#32]) ∧
    (e0.tx = []) ∧
    (391 = 384 + 7) ∧
    (327 = 320 + 7) ∧
    (131 = 128 + 3) :=
  ⟨⟨⟨rfl, rfl, rfl⟩, rfl, rfl, (by decide), rfl⟩,
    ⟨⟨rfl, rfl, rfl⟩, rfl, rfl, (by decide), rfl⟩,
    ⟨⟨rfl, rfl, rfl⟩, rfl, rfl, (by decide), rfl⟩,
    ⟨⟨rfl, rfl, rfl⟩, rfl, rfl, (by decide), rfl⟩,
    ⟨⟨rfl, rfl, rfl⟩, rfl, rfl, (by decide), rfl⟩,
    ⟨⟨rfl, rfl, rfl⟩, rfl, rfl, (by decide), rfl⟩,
    ⟨⟨rfl, rfl, rfl⟩, rfl, rfl, (by decide), rfl⟩,
    ⟨⟨rfl, rfl, rfl⟩, rfl, rfl, (by decide), rfl⟩,
    ⟨⟨rfl, rfl, rfl⟩, rfl, rfl, (by decide), rfl⟩,
    ⟨⟨rfl, rfl, rfl⟩, rfl, rfl, (by decide), rfl⟩,
    ⟨⟨rfl, rfl, rfl⟩, rfl, rfl, (by decide), rfl⟩,
    ⟨⟨rfl, rfl, rfl⟩, rfl, rfl, (by decide), rfl⟩,
    ⟨⟨rfl, rfl, rfl⟩, rfl, rfl, (by decide), rfl⟩,
    ⟨⟨rfl, rfl, rfl⟩, rfl, rfl, (by decide)⟩,
    rfl,
    rfl,
    rfl,
    ⟨rfl, rfl, rfl, rfl⟩,
    ⟨rfl, rfl, rfl, rfl⟩,
    ⟨rfl, rfl, (by decide), rfl, rfl, rfl, rfl⟩,
    ⟨rfl, rfl, (by decide), rfl⟩,
    (by decide),
    (by decide),
    rfl,
    rfl,
    rfl,
    rfl,
    rfl⟩

set_option maxRecDepth 8000 in
theorem witness_PioRegisters :
    ((demo cLk).runsOn 0 cLk ∧ cLk.io.bit 0xE401 7 = true) ∧
    ((demo given15).runsOn 0 given15 ∧ given15.io.bit 0xE401 7 = false ∧ given15.io.wf = true ∧ BitVec.getLsbD 0xF#8 7 = false ∧
     BitVec.getLsbD 0x8F#8 7 = true ∧ (given15.engine 2).tx.length < (given15.pioSetup 2).txDepth) ∧
    ((demo given16).runsOn 0 given16 ∧ (given16.pioSetup 2).txDepth ≤ (given16.engine 2).tx.length) ∧
    ((demo given17).runsOn 0 given17 ∧ 2 < given17.pio.engines.length ∧ given17.pinInOwns 2 = false ∧
     (given17.engine 2).rx = [0x12345678#32, 2#32] ∧ given17.latched.wf = true) :=
  ⟨⟨⟨rfl, rfl, rfl⟩, rfl⟩,
    ⟨⟨rfl, rfl, rfl⟩, rfl, rfl, rfl, rfl, (by decide)⟩,
    ⟨⟨rfl, rfl, rfl⟩, (by decide)⟩,
    ⟨⟨rfl, rfl, rfl⟩, (by decide), rfl, rfl, rfl⟩⟩

end Engines

namespace PinSide

def cp (io : Bytes) (f : Pins → Pins) : Cell := let c := demoCell io; { c with pins := f c.pins }
def cA := cp [(0xE300, 0x0F), (0xE301, 0xF0)] id
def cD (m : Byte) := cp [(0xE35F, m)] fun p => { p with owned := 0x8000 }
def ev : Cell := let c := demoCell []; { c with evf := [[1,2,3,4,5,6,7,8], [9]], lines := updateAt (updateAt c.lines 3 fun l => { l with rx := [7, 8], tx := [.status 4] ++ List.replicate 255 (.byte 3) }) 2 fun l => { l with tx := List.replicate 256 (.byte 3) } }
def given1 := cp [] fun p => { p with locked := 0x8000 }
def given2 := cp [(0xE35E, 0xE0)] fun p => { p with lockupPin := some 15 }
def given3 := cp [(0xE322, 0x81)] fun p => { p with lockKey := true }
def given4 := cp [(0xE35F, 4)] fun p => { p with owned := 0x8000, armed := 0x8000, delivered := 0x8000 }
def given5 := cp [(0xE35F, 5)] fun p => { p with owned := 0x8000, armed := 0x8000, delivered := 0x0000 }
def given6 := cp [(0xE317, 0x80), (0xE319, 0x80), (0xE31A, 1)] fun p => { p with delivered := 0x8000, fresh := 2 }
def given7 := cp [(0xE317, 0x80), (0xE31A, 1)] fun p => { p with before := 0x8000 }
def given8 := cp [(0xE317, 0x80), (0xE31A, 3)] fun p => { p with before := 0x8000 }
def given9 := cp [(0xE317, 0x80), (0xE31A, 2)] fun p => { p with delivered := 0x8000 }

theorem witness_PinRegistersAndInterrupts :
    ((demo cA).runsOn 0 cA ∧ cA.pins.locked.getLsbD 15 = false ∧ cA.pins.lockupPin ≠ some 15 ∧ cA.pins.lockKey = false ∧
     cA.pins.armed.getLsbD 3 = false) ∧
    ((demo given1).runsOn 0 given1 ∧ given1.pins.locked.getLsbD 15 = true) ∧
    ((demo given2).runsOn 0 given2 ∧ given2.pins.locked.getLsbD 15 = false ∧ given2.pins.lockupPin = some 15) ∧
    ((demo given3).runsOn 0 given3 ∧ given3.pins.lockKey = true ∧ 0xA5#8 = 0xA5#8 ∧ 0xA6#8 ≠ 0xA5#8) ∧
    ((demo given4).runsOn 0 given4 ∧ given4.pins.owned.getLsbD 15 = true ∧ given4.pins.armed.getLsbD 15 = true ∧
     given4.nap.napping = false ∧
     (given4.pinMode 15 = 4 ∧ given4.pins.delivered.getLsbD 15 = true ∨ given4.pinMode 15 = 5 ∧ given4.pins.delivered.getLsbD 15
        = false)) ∧
    ((demo given5).runsOn 0 given5 ∧ given5.pins.owned.getLsbD 15 = true ∧ given5.pins.armed.getLsbD 15 = true ∧
     given5.nap.napping = false ∧
     (given5.pinMode 15 = 4 ∧ given5.pins.delivered.getLsbD 15 = true ∨ given5.pinMode 15 = 5 ∧ given5.pins.delivered.getLsbD 15
        = false)) ∧
    ((demo given6).runsOn 0 given6 ∧ given6.nap.napping = false ∧ given6.pins.tick ≤ 5 ∧
     (BitVec.toNat (given6.io.rd 0xE31A) % 4 = 1 ∧ given6.pins.delivered &&& BitVec.ofNat 16 (given6.io.rdN 0xE316 2) =
        BitVec.ofNat 16 (given6.io.rdN 0xE318 2) &&& BitVec.ofNat 16 (given6.io.rdN 0xE316 2) ∧ ((true && (given6.pins.atTick
        5).fresh == 1) = true ∨ (given6.pins.atTick 5).before &&& BitVec.ofNat 16 (given6.io.rdN 0xE316 2) ≠ BitVec.ofNat 16
        (given6.io.rdN 0xE318 2) &&& BitVec.ofNat 16 (given6.io.rdN 0xE316 2)) ∨ BitVec.toNat (given6.io.rd 0xE31A) % 4 = 2 ∧
        given6.pins.delivered &&& BitVec.ofNat 16 (given6.io.rdN 0xE316 2) ≠ BitVec.ofNat 16 (given6.io.rdN 0xE318 2) &&&
        BitVec.ofNat 16 (given6.io.rdN 0xE316 2) ∧ ((true && (given6.pins.atTick 5).fresh == 1) = true ∨ (given6.pins.atTick
        5).before &&& BitVec.ofNat 16 (given6.io.rdN 0xE316 2) = BitVec.ofNat 16 (given6.io.rdN 0xE318 2) &&& BitVec.ofNat 16
        (given6.io.rdN 0xE316 2)) ∨ BitVec.toNat (given6.io.rd 0xE31A) % 4 = 3 ∧ (true && (given6.pins.atTick 5).fresh == 1) =
        false ∧ (given6.pins.atTick 5).before &&& BitVec.ofNat 16 (given6.io.rdN 0xE316 2) ≠ given6.pins.delivered &&&
        BitVec.ofNat 16 (given6.io.rdN 0xE316 2))) ∧
    ((demo given7).runsOn 0 given7 ∧ given7.nap.napping = false ∧ given7.pins.tick ≤ 0 ∧
     (BitVec.toNat (given7.io.rd 0xE31A) % 4 = 1 ∧ given7.pins.delivered &&& BitVec.ofNat 16 (given7.io.rdN 0xE316 2) =
        BitVec.ofNat 16 (given7.io.rdN 0xE318 2) &&& BitVec.ofNat 16 (given7.io.rdN 0xE316 2) ∧ ((false && (given7.pins.atTick
        0).fresh == 1) = true ∨ (given7.pins.atTick 0).before &&& BitVec.ofNat 16 (given7.io.rdN 0xE316 2) ≠ BitVec.ofNat 16
        (given7.io.rdN 0xE318 2) &&& BitVec.ofNat 16 (given7.io.rdN 0xE316 2)) ∨ BitVec.toNat (given7.io.rd 0xE31A) % 4 = 2 ∧
        given7.pins.delivered &&& BitVec.ofNat 16 (given7.io.rdN 0xE316 2) ≠ BitVec.ofNat 16 (given7.io.rdN 0xE318 2) &&&
        BitVec.ofNat 16 (given7.io.rdN 0xE316 2) ∧ ((false && (given7.pins.atTick 0).fresh == 1) = true ∨ (given7.pins.atTick
        0).before &&& BitVec.ofNat 16 (given7.io.rdN 0xE316 2) = BitVec.ofNat 16 (given7.io.rdN 0xE318 2) &&& BitVec.ofNat 16
        (given7.io.rdN 0xE316 2)) ∨ BitVec.toNat (given7.io.rd 0xE31A) % 4 = 3 ∧ (false && (given7.pins.atTick 0).fresh == 1) =
        false ∧ (given7.pins.atTick 0).before &&& BitVec.ofNat 16 (given7.io.rdN 0xE316 2) ≠ given7.pins.delivered &&&
        BitVec.ofNat 16 (given7.io.rdN 0xE316 2))) ∧
    ((demo given8).runsOn 0 given8 ∧ given8.nap.napping = false ∧ given8.pins.tick ≤ 0 ∧
     (BitVec.toNat (given8.io.rd 0xE31A) % 4 = 1 ∧ given8.pins.delivered &&& BitVec.ofNat 16 (given8.io.rdN 0xE316 2) =
        BitVec.ofNat 16 (given8.io.rdN 0xE318 2) &&& BitVec.ofNat 16 (given8.io.rdN 0xE316 2) ∧ ((false && (given8.pins.atTick
        0).fresh == 1) = true ∨ (given8.pins.atTick 0).before &&& BitVec.ofNat 16 (given8.io.rdN 0xE316 2) ≠ BitVec.ofNat 16
        (given8.io.rdN 0xE318 2) &&& BitVec.ofNat 16 (given8.io.rdN 0xE316 2)) ∨ BitVec.toNat (given8.io.rd 0xE31A) % 4 = 2 ∧
        given8.pins.delivered &&& BitVec.ofNat 16 (given8.io.rdN 0xE316 2) ≠ BitVec.ofNat 16 (given8.io.rdN 0xE318 2) &&&
        BitVec.ofNat 16 (given8.io.rdN 0xE316 2) ∧ ((false && (given8.pins.atTick 0).fresh == 1) = true ∨ (given8.pins.atTick
        0).before &&& BitVec.ofNat 16 (given8.io.rdN 0xE316 2) = BitVec.ofNat 16 (given8.io.rdN 0xE318 2) &&& BitVec.ofNat 16
        (given8.io.rdN 0xE316 2)) ∨ BitVec.toNat (given8.io.rd 0xE31A) % 4 = 3 ∧ (false && (given8.pins.atTick 0).fresh == 1) =
        false ∧ (given8.pins.atTick 0).before &&& BitVec.ofNat 16 (given8.io.rdN 0xE316 2) ≠ given8.pins.delivered &&&
        BitVec.ofNat 16 (given8.io.rdN 0xE316 2))) ∧
    ((demo given9).runsOn 0 given9 ∧ given9.nap.napping = false ∧ given9.pins.tick ≤ 0 ∧
     (BitVec.toNat (given9.io.rd 0xE31A) % 4 = 1 ∧ given9.pins.delivered &&& BitVec.ofNat 16 (given9.io.rdN 0xE316 2) =
        BitVec.ofNat 16 (given9.io.rdN 0xE318 2) &&& BitVec.ofNat 16 (given9.io.rdN 0xE316 2) ∧ ((false && (given9.pins.atTick
        0).fresh == 1) = true ∨ (given9.pins.atTick 0).before &&& BitVec.ofNat 16 (given9.io.rdN 0xE316 2) ≠ BitVec.ofNat 16
        (given9.io.rdN 0xE318 2) &&& BitVec.ofNat 16 (given9.io.rdN 0xE316 2)) ∨ BitVec.toNat (given9.io.rd 0xE31A) % 4 = 2 ∧
        given9.pins.delivered &&& BitVec.ofNat 16 (given9.io.rdN 0xE316 2) ≠ BitVec.ofNat 16 (given9.io.rdN 0xE318 2) &&&
        BitVec.ofNat 16 (given9.io.rdN 0xE316 2) ∧ ((false && (given9.pins.atTick 0).fresh == 1) = true ∨ (given9.pins.atTick
        0).before &&& BitVec.ofNat 16 (given9.io.rdN 0xE316 2) = BitVec.ofNat 16 (given9.io.rdN 0xE318 2) &&& BitVec.ofNat 16
        (given9.io.rdN 0xE316 2)) ∨ BitVec.toNat (given9.io.rd 0xE31A) % 4 = 3 ∧ (false && (given9.pins.atTick 0).fresh == 1) =
        false ∧ (given9.pins.atTick 0).before &&& BitVec.ofNat 16 (given9.io.rdN 0xE316 2) ≠ given9.pins.delivered &&&
        BitVec.ofNat 16 (given9.io.rdN 0xE316 2))) :=
  ⟨⟨⟨rfl, rfl, rfl⟩, rfl, (by decide), rfl, rfl⟩,
    ⟨⟨rfl, rfl, rfl⟩, rfl⟩,
    ⟨⟨rfl, rfl, rfl⟩, rfl, rfl⟩,
    ⟨⟨rfl, rfl, rfl⟩, rfl, rfl, (by decide)⟩,
    ⟨⟨rfl, rfl, rfl⟩, rfl, rfl, rfl, (by decide)⟩,
    ⟨⟨rfl, rfl, rfl⟩, rfl, rfl, rfl, (by decide)⟩,
    ⟨⟨rfl, rfl, rfl⟩, rfl, (by decide), (by decide)⟩,
    ⟨⟨rfl, rfl, rfl⟩, rfl, (by decide), (by decide)⟩,
    ⟨⟨rfl, rfl, rfl⟩, rfl, (by decide), (by decide)⟩,
    ⟨⟨rfl, rfl, rfl⟩, rfl, (by decide), (by decide)⟩⟩

theorem witness_PinChangesAreDelivered :
    ((demo (cD 0x11#8)).runsOn 0 (cD 0x11#8) ∧ (cD 0x11#8).pins.owned.getLsbD 15 = true ∧ (cD 0x11#8).nap.napping = false ∧
     (cD 0x11#8).dry = false ∧ (cD 0x11#8).pins.tick ≤ 7 ∧ (cD 0x11#8).pins.pulse.getLsbD 15 = false ∧
     (cD 0x11#8).pins.pulsing.getLsbD 15 = false ∧
     (∀ (i : Nat), i < (cD 0x11#8).pinFilt 15 + 1 → BitVec.getLsbD 3#16 i = BitVec.getLsbD 3#16 0) ∧
     BitVec.getLsbD 3#16 0 ≠ (cD 0x11#8).pins.delivered.getLsbD 15 ∧ (cD 0x11#8).io.wf = true) ∧
    ((demo (cD 0x13#8)).runsOn 0 (cD 0x13#8) ∧ (cD 0x13#8).pins.owned.getLsbD 15 = true ∧ (cD 0x13#8).nap.napping = false ∧
     (cD 0x13#8).dry = false ∧ (cD 0x13#8).pins.tick ≤ 7 ∧ (cD 0x13#8).pins.pulse.getLsbD 15 = false ∧
     (cD 0x13#8).pins.pulsing.getLsbD 15 = false ∧
     (∀ (i : Nat), i < (cD 0x13#8).pinFilt 15 + 1 → BitVec.getLsbD 3#16 i = BitVec.getLsbD 3#16 0) ∧
     BitVec.getLsbD 3#16 0 ≠ (cD 0x13#8).pins.delivered.getLsbD 15 ∧ (cD 0x13#8).io.wf = true) ∧
    ((demo (cD 0xF0#8)).runsOn 0 (cD 0xF0#8) ∧ (cD 0xF0#8).pins.owned.getLsbD 15 = true ∧ (cD 0xF0#8).nap.napping = false ∧
     (cD 0xF0#8).dry = false ∧ (cD 0xF0#8).pins.tick ≤ 7 ∧ (cD 0xF0#8).pins.pulse.getLsbD 15 = false ∧
     (cD 0xF0#8).pins.pulsing.getLsbD 15 = false ∧
     (∀ (i : Nat), i < (cD 0xF0#8).pinFilt 15 + 1 → BitVec.getLsbD 0xFFFF#16 i = BitVec.getLsbD 0xFFFF#16 0) ∧
     BitVec.getLsbD 0xFFFF#16 0 ≠ (cD 0xF0#8).pins.delivered.getLsbD 15 ∧ (cD 0xF0#8).io.wf = true ∧
     ((cD 0xF0#8).pins.owned.getLsbD 15 = false ∨ (cD 0xF0#8).nap.napping = true ∨ (cD 0xF0#8).dry = true ∨ 7 < (cD
        0xF0#8).pins.tick ∨ (cD 0xF0#8).pins.pulse.getLsbD 15 = false ∧ (cD 0xF0#8).pins.pulsing.getLsbD 15 = false ∧
        ((¬∀ (i : Nat), i < (cD 0xF0#8).pinFilt 15 + 1 → BitVec.getLsbD 0xFFFE#16 i = BitVec.getLsbD 0xFFFE#16 0) ∨
        BitVec.getLsbD 0xFFFE#16 0 = (cD 0xF0#8).pins.delivered.getLsbD 15)) ∧
     ((cD 0xF0#8).pins.owned.getLsbD 15 = false ∨ (cD 0xF0#8).nap.napping = true ∨ (cD 0xF0#8).dry = true ∨ 7 < (cD
        0xF0#8).pins.tick ∨ (cD 0xF0#8).pins.pulse.getLsbD 15 = false ∧ (cD 0xF0#8).pins.pulsing.getLsbD 15 = false ∧
        ((¬∀ (i : Nat), i < (cD 0xF0#8).pinFilt 15 + 1 → BitVec.getLsbD 0x7FFF#16 i = BitVec.getLsbD 0x7FFF#16 0) ∨
        BitVec.getLsbD 0x7FFF#16 0 = (cD 0xF0#8).pins.delivered.getLsbD 15))) :=
  ⟨⟨⟨rfl, rfl, rfl⟩, rfl, rfl, rfl, (by decide), rfl, rfl, (by decide), (by decide), rfl⟩,
    ⟨⟨rfl, rfl, rfl⟩, rfl, rfl, rfl, (by decide), rfl, rfl, (by decide), (by decide), rfl⟩,
    ⟨⟨rfl, rfl, rfl⟩, rfl, rfl, rfl, (by decide), rfl, rfl, (by decide), (by decide), rfl, (by decide), (by decide)⟩⟩

set_option maxRecDepth 8000 in
theorem witness_EventFifoAndLines :
    ((demo ev).runsOn 0 ev ∧ ev.evf = [[1#8, 2#8, 3#8, 4#8, 5#8, 6#8, 7#8, 8#8], [9#8]] ∧ ev.latched.wf = true ∧
     (ev.line 3).rx = [7#8, 8#8] ∧ (ev.line 2).rx = [] ∧ (ev.line 3).txLevel < 256 ∧ 256 ≤ (ev.line 2).txLevel) :=
  ⟨⟨rfl, rfl, rfl⟩, rfl, rfl, rfl, rfl, (by decide), (by decide)⟩

end PinSide

namespace Keys

def key16 : SlotKey := { type := 1, usage := 0xF, fromUnwrap := false, bytes := (List.range 16).map (BitVec.ofNat 8), count := 0 }
def key24 : SlotKey := { type := 3, usage := 0xF, fromUnwrap := false, bytes := (List.range 24).map (fun i => BitVec.ofNat 8 (7*i+1)), count := 0 }
def pt : List Byte := (List.range 16).map fun i => BitVec.ofNat 8 (0x11 * i)
def cc (io : Bytes) (u : Crypto → Crypto) (k : SlotKey) : Cell := let c := demoCell io; { c with crypto := u c.crypto, slots := updateAt c.slots 2 fun _ => some k }
def run1 (op : Nat) (n : Nat) (k : SlotKey) (chain : List Byte) (mode : Nat := 0) (key2 : Nat := 5) : Cell := cc [] (fun u => { u with busy := true, op := op, key := 2, key2 := key2, mode := mode, left := n, chain := chain, din := (List.range 20).map fun i => BitVec.ofNat 8 (i*3) }) k
def z16 : List Byte := List.replicate 16 0
def kek : SlotKey := { key16 with bytes := (List.range 16).map (BitVec.ofNat 8) }
def wrapped : List Byte := [0x1F,0xA6,0x8B,0x0A,0x81,0x12,0xB4,0x47,0xAE,0xF3,0x4B,0xD8,0xFB,0x5A,0x7B,0x82,0x9D,0x3E,0x86,0x23,0x71,0xD2,0xCF,0xE5]
def runW (w : List Byte) : Cell := cc [] (fun u => { u with busy := true, op := 8, key := 2, key2 := 5, mode := 0x78, left := 24, din := w }) kek
def runS (w : List Byte) : Cell := cc [] (fun u => { u with busy := true, op := 8, key := 2, key2 := 5, mode := 0x78, left := 8, din := w }) kek
def ioGo (op : Byte) (len : Nat) (m : Byte) : Bytes := (Bytes.wrN [(0xED00, op), (0xED01, 0x25), (0xED02, m)] 0xED04 2 len).put 0xED10 pt
def given1 := cc (ioGo 0 32 0) id key16
def given2 := cc (ioGo 0 31 0) id key16
def given3 := run1 1 32 key16 z16
def given4 := run1 6 32 key16 z16
def given5 := runW (wrapped.take 20)
def given6 := run1 1 16 key16 z16
def given7 := run1 2 16 key16 z16
def given8 := run1 3 16 key24 (z16.take 8)
def given9 := run1 4 16 key16 z16
def given10 := run1 5 19 key16 z16
def given11 := run1 6 19 key16 z16
def given12 := run1 7 19 key24 (z16.take 8)
def given13 := runS (List.replicate 8 0)
def given14 := runS (List.replicate 8 0xA6)
def given15 := run1 9 0 key16 z16
def given16 := cc [] (fun u => { u with busy := true, finished := true }) key16
def given17 := cc [] (fun u => { u with din := [1, 2], dout := [3] }) key16
def given18 := cc [] (fun u => { u with busy := true, op := 3, key := 2, left := 8, blocks := 3 }) key24
def given19 := cc [] (fun u => { u with din := List.replicate 32 0 }) key16
def given20 := cc [] (fun u => { u with dout := List.replicate 32 0 }) key16

set_option maxRecDepth 8000 in
theorem witness_CryptoUnit :
    ((demo given1).runsOn 0 given1 ∧ BitVec.getLsbD 0x83#8 6 = false ∧ given1.crypto.busy = false ∧
     { given1 with io := given1.io.wr 0xED00 (given1.io.rd 0xED00 &&& 0xF0#8 ||| 0x83#8 &&& 0xF#8) : Cell }.crRefusal = none ∧
     BitVec.getLsbD 0x86#8 6 = false ∧
     { given1 with io := given1.io.wr 0xED00 (given1.io.rd 0xED00 &&& 0xF0#8 ||| 0x86#8 &&& 0xF#8) : Cell }.crRefusal = none ∧
     BitVec.getLsbD 0x89#8 6 = false ∧
     { given1 with io := given1.io.wr 0xED00 (given1.io.rd 0xED00 &&& 0xF0#8 ||| 0x89#8 &&& 0xF#8) : Cell }.crRefusal = none) ∧
    ((demo given2).runsOn 0 given2 ∧ BitVec.getLsbD 0x83#8 6 = false ∧ given2.crypto.busy = false ∧
     { given2 with io := given2.io.wr 0xED00 (given2.io.rd 0xED00 &&& 0xF0#8 ||| 0x83#8 &&& 0xF#8) : Cell }.crRefusal = some 4) ∧
    ((demo given3).runsOn 0 given3 ∧ BitVec.getLsbD 0x83#8 6 = false ∧ given3.crypto.busy = true ∧ given3.crypto.finished = false ∧
     given3.slot given3.crypto.key = some key16 ∧
     (¬((cryptoRun key16 given3.crypto.fuel given3.crypto).left = 0 ∧ (cryptoRun key16 given3.crypto.fuel
        given3.crypto).outBuf = [])) ∧
     given3.crypto.op = 1) ∧
    ((demo given4).runsOn 0 given4 ∧ given4.crypto.busy = true ∧ given4.crypto.finished = false ∧
     given4.slot given4.crypto.key = some key16 ∧
     (¬((cryptoRun key16 given4.crypto.fuel given4.crypto).left = 0 ∧ (cryptoRun key16 given4.crypto.fuel
        given4.crypto).outBuf = [])) ∧
     given4.crypto.op = 6) ∧
    ((demo given5).runsOn 0 given5 ∧ given5.crypto.busy = true ∧ given5.crypto.finished = false ∧
     given5.slot given5.crypto.key = some kek ∧
     (¬((cryptoRun kek given5.crypto.fuel given5.crypto).left = 0 ∧ (cryptoRun kek given5.crypto.fuel given5.crypto).outBuf
        = [])) ∧
     given5.crypto.op = 8) ∧
    ((demo given6).runsOn 0 given6 ∧ given6.crypto.busy = true ∧ given6.crypto.finished = false ∧
     given6.slot given6.crypto.key = some key16 ∧
     (¬¬((cryptoRun key16 given6.crypto.fuel given6.crypto).left = 0 ∧ (cryptoRun key16 given6.crypto.fuel
        given6.crypto).outBuf = [])) ∧
     given6.crypto.op = 1) ∧
    ((demo given7).runsOn 0 given7 ∧ given7.crypto.busy = true ∧ given7.crypto.finished = false ∧
     given7.slot given7.crypto.key = some key16 ∧
     (¬¬((cryptoRun key16 given7.crypto.fuel given7.crypto).left = 0 ∧ (cryptoRun key16 given7.crypto.fuel
        given7.crypto).outBuf = [])) ∧
     given7.crypto.op = 2) ∧
    ((demo given8).runsOn 0 given8 ∧ given8.crypto.busy = true ∧ given8.crypto.finished = false ∧
     given8.slot given8.crypto.key = some key24 ∧
     (¬¬((cryptoRun key24 given8.crypto.fuel given8.crypto).left = 0 ∧ (cryptoRun key24 given8.crypto.fuel
        given8.crypto).outBuf = [])) ∧
     given8.crypto.op = 3) ∧
    ((demo given9).runsOn 0 given9 ∧ given9.crypto.busy = true ∧ given9.crypto.finished = false ∧
     given9.slot given9.crypto.key = some key16 ∧
     (¬¬((cryptoRun key16 given9.crypto.fuel given9.crypto).left = 0 ∧ (cryptoRun key16 given9.crypto.fuel
        given9.crypto).outBuf = [])) ∧
     given9.crypto.op = 4) ∧
    ((demo given10).runsOn 0 given10 ∧ given10.crypto.busy = true ∧ given10.crypto.finished = false ∧
     given10.slot given10.crypto.key = some key16 ∧
     (¬¬((cryptoRun key16 given10.crypto.fuel given10.crypto).left = 0 ∧ (cryptoRun key16 given10.crypto.fuel
        given10.crypto).outBuf = [])) ∧
     given10.crypto.op = 5) ∧
    ((demo given11).runsOn 0 given11 ∧ given11.crypto.busy = true ∧ given11.crypto.finished = false ∧
     given11.slot given11.crypto.key = some key16 ∧
     (¬¬((cryptoRun key16 given11.crypto.fuel given11.crypto).left = 0 ∧ (cryptoRun key16 given11.crypto.fuel
        given11.crypto).outBuf = [])) ∧
     given11.crypto.op = 6) ∧
    ((demo given12).runsOn 0 given12 ∧ given12.crypto.busy = true ∧ given12.crypto.finished = false ∧
     given12.slot given12.crypto.key = some key24 ∧
     (¬¬((cryptoRun key24 given12.crypto.fuel given12.crypto).left = 0 ∧ (cryptoRun key24 given12.crypto.fuel
        given12.crypto).outBuf = [])) ∧
     given12.crypto.op = 7) ∧
    ((demo given13).runsOn 0 given13 ∧ given13.crypto.busy = true ∧ given13.crypto.finished = false ∧
     given13.slot given13.crypto.key = some kek ∧
     (¬¬((cryptoRun kek given13.crypto.fuel given13.crypto).left = 0 ∧ (cryptoRun kek given13.crypto.fuel
        given13.crypto).outBuf = [])) ∧
     given13.crypto.op = 8 ∧ keyUnwrap kek.bytes (cryptoRun kek given13.crypto.fuel given13.crypto).wrapped = none) ∧
    ((demo given14).runsOn 0 given14 ∧ given14.crypto.busy = true ∧ given14.crypto.finished = false ∧
     given14.slot given14.crypto.key = some kek ∧
     (¬¬((cryptoRun kek given14.crypto.fuel given14.crypto).left = 0 ∧ (cryptoRun kek given14.crypto.fuel
        given14.crypto).outBuf = [])) ∧
     given14.crypto.op = 8 ∧ keyUnwrap kek.bytes (cryptoRun kek given14.crypto.fuel given14.crypto).wrapped = some []) ∧
    ((demo given15).runsOn 0 given15 ∧ given15.crypto.busy = true ∧ given15.crypto.finished = false ∧ given15.crypto.op = 9 ∧
     given15.crypto.din.length < 32) ∧
    ((demo given16).runsOn 0 given16 ∧ given16.crypto.busy = true ∧ given16.crypto.finished = true) ∧
    ((demo given17).runsOn 0 given17 ∧ given17.crypto.busy = false) ∧
    ((demo given18).runsOn 0 given18 ∧ given18.crypto.busy = true ∧ given18.crypto.finished = false ∧
     given18.slot given18.crypto.key = some key24 ∧ key24.type = 3) ∧
    ((demo given19).runsOn 0 given19 ∧ 32 ≤ given19.crypto.din.length) ∧
    ((demo given20).runsOn 0 given20) :=
  ⟨⟨⟨rfl, rfl, rfl⟩, rfl, rfl, rfl, rfl, rfl, rfl, rfl⟩,
    ⟨⟨rfl, rfl, rfl⟩, rfl, rfl, rfl⟩,
    ⟨⟨rfl, rfl, rfl⟩, rfl, rfl, rfl, rfl, (by decide), rfl⟩,
    ⟨⟨rfl, rfl, rfl⟩, rfl, rfl, rfl, (by decide), rfl⟩,
    ⟨⟨rfl, rfl, rfl⟩, rfl, rfl, rfl, (by decide), rfl⟩,
    ⟨⟨rfl, rfl, rfl⟩, rfl, rfl, rfl, (by decide), rfl⟩,
    ⟨⟨rfl, rfl, rfl⟩, rfl, rfl, rfl, (by decide), rfl⟩,
    ⟨⟨rfl, rfl, rfl⟩, rfl, rfl, rfl, (by decide), rfl⟩,
    ⟨⟨rfl, rfl, rfl⟩, rfl, rfl, rfl, (by decide), rfl⟩,
    ⟨⟨rfl, rfl, rfl⟩, rfl, rfl, rfl, (by decide), rfl⟩,
    ⟨⟨rfl, rfl, rfl⟩, rfl, rfl, rfl, (by decide), rfl⟩,
    ⟨⟨rfl, rfl, rfl⟩, rfl, rfl, rfl, (by decide), rfl⟩,
    ⟨⟨rfl, rfl, rfl⟩, rfl, rfl, rfl, (by decide), rfl, rfl⟩,
    ⟨⟨rfl, rfl, rfl⟩, rfl, rfl, rfl, (by decide), rfl, rfl⟩,
    ⟨⟨rfl, rfl, rfl⟩, rfl, rfl, rfl, (by decide)⟩,
    ⟨⟨rfl, rfl, rfl⟩, rfl, rfl⟩,
    ⟨⟨rfl, rfl, rfl⟩, rfl⟩,
    ⟨⟨rfl, rfl, rfl⟩, rfl, rfl, rfl, rfl⟩,
    ⟨⟨rfl, rfl, rfl⟩, (by decide)⟩,
    ⟨rfl, rfl, rfl⟩⟩

end Keys

namespace Resets

def s0 := demo (demoCell [])
def onH (f : Hub → Hub) (s : State := s0) : State := { s with hub := f s.hub }
def given2 := onH fun h => { h with pwrgd := false }

theorem witness_ResetsKeepAndClear :
    (s0.hub.pwrgd = true) ∧
    (given2.hub.pwrgd = false) ∧
    (1 ≤ s0.hub.phase ∧ s0.hub.phase ≤ 6) ∧
    ((State.reset.hub.phase = 0 ∨ 6 < State.reset.hub.phase)) :=
  ⟨rfl,
    rfl,
    ⟨(by decide), (by decide)⟩,
    (by decide)⟩

end Resets

namespace Starting

def s0 := demo (demoCell [])
def onH (s : State) (f : Hub → Hub)  : State := { s with hub := f s.hub }
def sr : State := onH State.reset fun h => { h with perstN := true }
def s_al : State := onH sr fun h => { h with vbatAlarms := [(3, 5)], keys := { h.keys with levels := some [0,0,0,3,0,0,0,0] } }
def st1 : State := onH sr fun h => { h with phase := 1 }
def img : Image := { device := demoDevice, moulds := [], cards := [] }
def imageKey : List Byte := (List.range 32).map (BitVec.ofNat 8)
def signingKey : List Byte := beBytes 96 0x58F0A6B5F6329A1C890154A42AD409EBF83CFC68D223FFA3673474F7172CC1B0E2BD9E5850DEB3BF35A01EF8C55F76184AFE54D21006D84D1F5E7C522B30B84909BBDE61A98CF9367982EEB6216C0925907348736AC13A5B59FE0A53E8710C06
def payload : List Byte := [1, 0, 0, 0, 0, 0, 0, 0, 16, 0, 0, 0, 0, 0, 0, 0] ++ List.replicate 16 0
def hdr (seq : Nat) : Bytes := ((((Bytes.put [] 0 [0x4E, 0x4C, 0x54, 0x48, 1, 0]).wrN 8 8 seq).wrN 0x10 4 7).wrN 0x14 4 32).wrN 0x18 4 3
def sealed : FlashSlot :=
  { bytes := (((hdr 9).put 0x30 (beBytes 16 0x3E50DADF3AD7B072C40DCA9ACA165BE3)).put 0x80 (beBytes 96
      0x2490AA5E8C28BBD791CF9F837266AF357D8FA2007E81E3B767E9AECB0F7A2995F05B05CC951824D530ED8CE3F4352ED43ACD37813DB283B560C671C4D37F4A276D194E4A09B600E0B97FEC9CF4ED3BCB5F4C383E5B21DBAE6BA986ABA8071D58)).put 0x100
      (beBytes 32 0x0FBCB5DEB52C83BD18A8A935182C9199D24356532881602F809EB383C5FF5D56), written := true, open_ := false }
def unsigned (seq : Nat) : FlashSlot := { bytes := hdr seq, written := true, open_ := false }
def st2 (a b : FlashSlot) : State := onH sr fun h => { h with phase := 2, flash := [a, b], keys := { h.keys with imageKey := some imageKey, keyGen := 3, signingKey := some signingKey, floor := 4 } }
def rd (i : Option Image) : SlotReading := { payload := i }
def st3 : State := onH sr fun h => { h with phase := 3, read := some demoImage }
def st3n : State := onH sr fun h => { h with phase := 3 }
def img4 : Image := { device := demoDevice, moulds := [demoMould], cards := [demoCard 0 1, demoCard 5 0, { demoCard 6 1 with die := 0 }, {demoCard 87 1 with die := 7}] }
def st4 : State := { onH sr (fun h => { h with phase := 4, part := 1, image := some img4 }) with dies := sr.dies.map fun d => { d with cells := d.cells.map fun u => { u with tested := true } } }
def st4n : State := onH sr fun h => { h with phase := 4, part := 1 }
def st5 : State := { onH sr fun h => { h with phase := 5, image := some { img4 with device := { demoDevice with svcChannel := some 5 } } } with chans := (demo (demoCell [])).chans }

set_option maxRecDepth 8000 in
theorem witness_StartUpRuns :
    ((s0.hub.phase ≠ 0 ∨ s0.hub.pwrgd = false)) ∧
    (sr.hub.phase = 0 ∧ sr.hub.pwrgd = true ∧ sr.hub.vbatAlarms = []) ∧
    (s_al.hub.phase = 0 ∧ s_al.hub.pwrgd = true ∧ s_al.hub.vbatAlarms = [(3, 5)] ∧ s_al.hub.keys.level 3 = 3) ∧
    (s0.hub.phase ≠ 1) ∧
    (st1.hub.phase = 1 ∧ some TestOutcome.logic = some TestOutcome.logic ∧ some TestOutcome.memory = some TestOutcome.memory ∧
     none ≠ some TestOutcome.logic ∧ none ≠ some TestOutcome.memory) ∧
    (s0.hub.phase ≠ 2) ∧
    (s0.hub.phase ≠ 3) ∧
    (st3.hub.phase = 3) ∧
    (st3n.hub.phase = 3) ∧
    (s0.hub.phase ≠ 4) ∧
    (st4.hub.phase = 4) ∧
    (st4n.hub.phase = 4) ∧
    ((s0.hub.phase ≠ 5 ∨ (s0.chans.any fun c => c.state == ChanState.casting) = true)) ∧
    (st5.hub.phase = 5 ∧ ((st5.chans.any fun c => c.state == ChanState.casting) = false)) ∧
    ((st2 sealed (unsigned 8)).hub.phase = 2 ∧ (st2 sealed (unsigned 8)).hub.keys.imageKey = some imageKey ∧
     (st2 sealed (unsigned 8)).hub.keys.signingKey = some signingKey ∧ (st2 sealed (unsigned 8)).flashSlot false = sealed ∧
     ¬ ((st2 sealed (unsigned 8)).flashSlot false).rank < ((st2 sealed (unsigned 8)).flashSlot true).rank ∧
     sealed.headed = true ∧ sealed.partMask.testBit 2 = true ∧ 256 + sealed.payloadLen ≤ 20 * 1024 * 1024 ∧ sealed.keyGen = 3 ∧
     sealed.signedBy signingKey = true ∧ sealed.opened imageKey = some payload ∧ sections payload = some [(1, 0, [])] ∧
     4 ≤ sealed.sequence ∧ (rd (some img)).payload = some img ∧ img.matchesSections [(1, 0, [])] = true ∧ img.sound = true) ∧
    ((st2 sealed (unsigned 10)).hub.phase = 2 ∧ (st2 sealed (unsigned 10)).hub.keys.imageKey = some imageKey ∧
     (st2 sealed (unsigned 10)).hub.keys.signingKey = some signingKey ∧ (st2 sealed (unsigned 10)).flashSlot false = sealed ∧
     ((st2 sealed (unsigned 10)).flashSlot false).rank < ((st2 sealed (unsigned 10)).flashSlot true).rank ∧
     (∀ j, (rd none).payload ≠ some j)) ∧
    ((st2 (unsigned 3) .erased).hub.phase = 2 ∧ (∀ j, (rd none).payload ≠ some j)) :=
  ⟨(by decide),
    ⟨rfl, rfl, rfl⟩,
    ⟨rfl, rfl, rfl, rfl⟩,
    (by decide),
    ⟨rfl, rfl, rfl, (by decide), (by decide)⟩,
    (by decide),
    (by decide),
    rfl,
    rfl,
    (by decide),
    rfl,
    rfl,
    (by decide),
    ⟨rfl, rfl⟩,
    ⟨rfl, rfl, rfl, rfl, (by decide), rfl, rfl, (by decide), rfl, (by decide +kernel), (by decide +kernel), rfl, (by decide),
     rfl, rfl, rfl⟩,
    ⟨rfl, rfl, rfl, rfl, (by decide), (fun _ h => nomatch h)⟩,
    ⟨rfl, (fun _ h => nomatch h)⟩⟩

end Starting

namespace Endpoint

def s0 := demo (demoCell [])
def c0 := demoCell []
def onH (s : State) (f : Hub → Hub)  : State := { s with hub := f s.hub }
def onC (f : Chan → Chan) : State := demoPart f (demoCell [])
def dn : State := onH s0 fun h => { h with linkUp := false }
def nr : State := onH s0 fun h => { h with ready := false }
def given1 := onC fun c => { c with vf := { c.vf with cmdEpoch := 1 } }

theorem witness_EndpointRequests :
    (s0.hub.linkUp = true ∧ partChannels s0.hub.part < 0x7FFFFFFF ∧ 0 ≤ partChannels s0.hub.part ∧ s0.hub.ready = true ∧
     s0.hub.responses = [] ∧ (∀ (i : Nat), i < 16 → BitVec.getLsbD 0xFFFF#16 (0 + i) = true) ∧
     (∀ (i : Nat), i < 8 → BitVec.getLsbD 0xFF00#16 (8 + i) = true) ∧ s0.offers 0 = true ∧
     (s0.chan 0).vf.cmdEpoch ≠ (s0.chan 0).epoch) ∧
    (nr.hub.linkUp = true ∧ 0 ≤ partChannels nr.hub.part ∧ nr.hub.ready = false) ∧
    (dn.hub.linkUp = false) ∧
    ((dn.hub.linkUp = false ∨ dn.hub.ready = false)) ∧
    (given1.hub.linkUp = true ∧ given1.hub.ready = true ∧ given1.offers 0 = true ∧ (given1.chan 0).vf.cmdEpoch = (given1.chan 0).epoch ∧
     (given1.chan 0).state = ChanState.running ∧ (given1.chan 0).draining = false ∧ (given1.chan 0).step = CatchStep.none ∧
     (given1.chan 0).cell = some c0) ∧
    (s0.runsOn 0 c0) :=
  ⟨⟨rfl, (by decide), (by decide), rfl, rfl, (by decide), (by decide), rfl, (by decide)⟩,
    ⟨rfl, (by decide), rfl⟩,
    rfl,
    (by decide),
    ⟨rfl, rfl, rfl, rfl, rfl, rfl, rfl, rfl⟩,
    ⟨rfl, rfl, rfl⟩⟩

end Endpoint

namespace Secure

def c0 := demoCell []
def s0 := demo c0
def onH (s : State) (f : Hub → Hub)  : State := { s with hub := f s.hub }
def key0 : SlotKey := {type := 1, usage := 0, fromUnwrap := false, bytes := [], count := 0}
def cK : Cell := { c0 with slots := List.replicate 8 (some key0) }
def lev (l : Nat) (f : Hub → Hub := id) : State := onH (demo cK) fun h => f { h with glitchArmed := true, keys := { h.keys with levels := some (List.replicate 8 l), imageKey := some [], escrow := [(0, cK.slots)], ideKeys := [(1, 0, [])] }, ideActive := [(1, 0)], readings := 0 }
def l3a := onH (lev 3) fun h => {h with phase := 0}
def l3b := onH (lev 3) fun h => {h with pwrgd := false}
def sp (v c a : Bool) (l : List Session) : State := onH s0 fun h => { h with spdm := ⟨v, c, a, l⟩ }
def ses (f m : Bool) : Session := { id := 7, finished := f, mutualAuth := m, updates := 0 }
def given1 := onH s0 fun h => { h with tripped := 0x80 }
def given3 := onH (sp true true true [ses true true]) fun h => { h with ideLoaded := [(4,1)] , keys := { h.keys with signingKey := some [2] }}
def given4 := onH s0 fun h => {h with netlowN := false}
def given5 := onH s0 fun h => {h with alertMask := 0}
def given6 := onH s0 fun h => {h with pwrgd := false}

theorem witness_TamperAlarmsErase :
    ((8 ≤ 8 ∨ s0.hub.tripped.getLsbD 8 = true ∨ s0.hub.watches 8 = false)) ∧
    ((8 ≤ 3 ∨ s0.hub.tripped.getLsbD 3 = true ∨ s0.hub.watches 3 = false)) ∧
    ((8 ≤ 7 ∨ given1.hub.tripped.getLsbD 7 = true ∨ given1.hub.watches 7 = false)) ∧
    (l3a.hub.tripped.getLsbD 5 = false ∧ l3a.hub.watches 5 = true) ∧
    (l3b.hub.tripped.getLsbD 0 = false ∧ l3b.hub.watches 0 = true) ∧
    ((lev 0).hub.tripped.getLsbD 5 = false ∧ (lev 0).hub.watches 5 = true) ∧
    ((lev 1).hub.tripped.getLsbD 7 = false ∧ (lev 1).hub.watches 7 = true) ∧
    ((lev 1).hub.tripped.getLsbD 5 = false ∧ (lev 1).hub.watches 5 = true) ∧
    ((lev 2).hub.tripped.getLsbD 7 = false ∧ (lev 2).hub.watches 7 = true) ∧
    ((lev 3).hub.tripped.getLsbD 7 = false ∧ (lev 3).hub.watches 7 = true) :=
  ⟨(by decide),
    (by decide),
    (by decide),
    ⟨rfl, rfl⟩,
    ⟨rfl, rfl⟩,
    ⟨rfl, rfl⟩,
    ⟨rfl, rfl⟩,
    ⟨rfl, rfl⟩,
    ⟨rfl, rfl⟩,
    ⟨rfl, rfl⟩⟩

theorem witness_SpdmAnswersAndKeysAreProvisioned :
    (s0.hub.linkUp = true ∧ s0.hub.ready = true ∧ s0.hub.spdm.version = false ∧ s0.hub.spdm.capabilities = false ∧
     s0.hub.spdm.algorithms = false ∧ s0.hub.spdm.session 7 = none) ∧
    ((sp true false false []).hub.linkUp = true ∧ (sp true false false []).hub.ready = true ∧
     (sp true false false []).hub.spdm.version = true) ∧
    ((sp true true false []).hub.linkUp = true ∧ (sp true true false []).hub.ready = true ∧
     (sp true true false []).hub.spdm.capabilities = true) ∧
    ((sp true true true []).hub.linkUp = true ∧ (sp true true true []).hub.ready = true ∧
     (sp true true true []).hub.spdm.algorithms = true ∧ (0 = 0 ∨ 7 < 0) ∧ (8 = 0 ∨ 7 < 8) ∧
     (∀ (x : Session), x ∈ (sp true true true []).hub.spdm.sessions → x.id ≠ 8)) ∧
    ((sp true true true [ses false false]).hub.linkUp = true ∧ (sp true true true [ses false false]).hub.ready = true ∧
     (sp true true true [ses false false]).hub.spdm.sessions = [ses false false] ∧ (ses false false).id = 7 ∧
     (∀ (y : Session), y ∈ [] → y.id ≠ 7) ∧ (ses false false).finished = false) ∧
    ((sp true true true [ses true false]).hub.linkUp = true ∧ (sp true true true [ses true false]).hub.ready = true ∧
     (sp true true true [ses true false]).hub.spdm.sessions = [ses true false] ∧ (ses true false).id = 7 ∧
     (∀ (y : Session), y ∈ [] → y.id ≠ 7) ∧ (ses true false).finished = true) ∧
    ((sp true true true [ses true true]).hub.linkUp = true ∧ (sp true true true [ses true true]).hub.ready = true ∧
     (sp true true true [ses true true]).hub.spdm.secured 7 = true ∧ (List.replicate 32 0#8).length = 32 ∧
     ¬(4, 1) ∈ (sp true true true [ses true true]).hub.ideLoaded ∧
     (sp true true true [ses true true]).hub.spdm.session 7 = some (ses true true) ∧ (ses true true).finished = true ∧
     (ses true true).mutualAuth = true) ∧
    (given3.hub.linkUp = true ∧ given3.hub.ready = true ∧ given3.hub.spdm.secured 7 = true ∧ (4, 1) ∈ given3.hub.ideLoaded ∧
     given3.hub.spdm.session 7 = some (ses true true) ∧ (ses true true).finished = true ∧ (ses true true).mutualAuth = true ∧
     (List.replicate 32 0#8).length = 32) :=
  ⟨⟨rfl, rfl, rfl, rfl, rfl, rfl⟩,
    ⟨rfl, rfl, rfl⟩,
    ⟨rfl, rfl, rfl⟩,
    ⟨rfl, rfl, rfl, (by decide), (by decide), (by decide)⟩,
    ⟨rfl, rfl, rfl, rfl, (by decide), rfl⟩,
    ⟨rfl, rfl, rfl, rfl, (by decide), rfl⟩,
    ⟨rfl, rfl, rfl, rfl, (by decide), rfl, rfl, rfl⟩,
    ⟨rfl, rfl, rfl, (by decide), rfl, rfl, rfl, rfl⟩⟩

theorem witness_SmbusAnswers :
    (s0.hub.pwrgd = true) ∧
    (given4.hub.pwrgd = true ∧
     (given4.hub.alarmN = false ∧ BitVec.getLsbD given4.hub.alertMask 5 = true ∨ given4.hub.netlowN = false ∧ BitVec.getLsbD
        given4.hub.alertMask 4 = true ∨ given4.hub.lockupN = false ∧ BitVec.getLsbD given4.hub.alertMask 3 = true ∨
        given4.hub.standbyLost = true ∧ BitVec.getLsbD given4.hub.alertMask 6 = true ∨ given4.hub.ready = false ∧
        BitVec.getLsbD given4.hub.alertMask 2 = true)) ∧
    (given5.hub.alertMask = 0#8) ∧
    (given6.hub.pwrgd = false) :=
  ⟨rfl,
    ⟨rfl, (by decide)⟩,
    rfl,
    rfl⟩

end Secure

namespace Queues

def c0 := demoCell []
def onH (s : State) (f : Hub → Hub)  : State := { s with hub := f s.hub }
def sb (f : Chan → Chan) : State := demoPart (fun c => f { c with cell := none, queues := List.replicate 16 .blank }) c0
def s0 : State := sb id
def sq (n : Nat) (f : Queue → Queue) (g : Chan → Chan := id) : State := sb fun c => g { c with queues := updateAt c.queues n f }
def given1 := sq 15 fun q => {q with log2 := 16}
def given2 := sq 15 fun q => {q with log2 := 17}
def given3 := sq 15 fun q => {q with log2 := 16, arm := true}
def given4 := sq 15 fun q => {q with log2 := 3, arm := true, prod := 5, cons := 0xFFFFFFFE}
def given5 := sq 0 fun q => {q with log2 := 3, arm := true, prod := 5, cons := 0xFFFFFFFE}
def given6 := sq 0 fun q => {q with quiet := true}
def given7 := sq 0 fun q => {q with quiet := true, deferred := true, vec := 3}
def given8 := onH s0 fun h => { h with mcq := {Queue.blank with log2 := 8}}

theorem witness_QueuesAreArmedAndRung :
    (given1.hasQueue (QueueId.vf 0 15) = true ∧ given1.hub.responses = [] ∧ given1.hub.linkUp = true ∧ given1.hub.ready = true ∧
     (given1.queue (QueueId.vf 0 15)).arm = false ∧ minLog (QueueId.vf 0 15) ≤ (given1.queue (QueueId.vf 0 15)).log2 ∧
     (given1.queue (QueueId.vf 0 15)).log2 ≤ 16) ∧
    (given2.hasQueue (QueueId.vf 0 15) = true ∧ given2.hub.responses = [] ∧ given2.hub.linkUp = true ∧ given2.hub.ready = true ∧
     (given2.queue (QueueId.vf 0 15)).arm = false ∧
     ((given2.queue (QueueId.vf 0 15)).log2 < minLog (QueueId.vf 0 15) ∨ 16 < (given2.queue (QueueId.vf 0 15)).log2)) ∧
    (given3.hasQueue (QueueId.vf 0 15) = true ∧ given3.hub.responses = [] ∧ given3.hub.linkUp = true ∧ given3.hub.ready = true ∧
     (given3.queue (QueueId.vf 0 15)).arm = true ∧ isInbound (QueueId.vf 0 15) = false) ∧
    (given4.hasQueue (QueueId.vf 0 15) = true ∧ given4.hub.responses = [] ∧ given4.hub.linkUp = true ∧ given4.hub.ready = true ∧
     isInbound (QueueId.vf 0 15) = false ∧ (given4.queue (QueueId.vf 0 15)).arm = true ∧
     gap (BitVec.toNat 5#32) (given4.queue (QueueId.vf 0 15)).cons ≤ gap (given4.queue (QueueId.vf 0 15)).prod (given4.queue
        (QueueId.vf 0 15)).cons) ∧
    ((sq 15 id).hasQueue (QueueId.vf 0 15) = true ∧ (sq 15 id).hub.responses = [] ∧ (sq 15 id).hub.linkUp = true ∧
     (sq 15 id).hub.ready = true ∧ isInbound (QueueId.vf 0 15) = false ∧ ((sq 15 id).queue (QueueId.vf 0 15)).arm = false) ∧
    (given5.hasQueue (QueueId.vf 0 0) = true ∧ given5.hub.responses = [] ∧ given5.hub.linkUp = true ∧ given5.hub.ready = true ∧
     isInbound (QueueId.vf 0 0) = true ∧ (given5.queue (QueueId.vf 0 0)).arm = true ∧
     gap (BitVec.toNat 6#32) (given5.queue (QueueId.vf 0 0)).cons ≤ 2 ^ (given5.queue (QueueId.vf 0 0)).log2) ∧
    ((sq 0 id).hasQueue (QueueId.vf 0 0) = true ∧ (sq 0 id).hub.responses = [] ∧ (sq 0 id).hub.linkUp = true ∧
     (sq 0 id).hub.ready = true ∧ isInbound (QueueId.vf 0 0) = true ∧ ((sq 0 id).queue (QueueId.vf 0 0)).arm = false) ∧
    (given6.hasQueue (QueueId.vf 0 0) = true ∧ given6.hub.responses = [] ∧ (given6.queue (QueueId.vf 0 0)).quiet = true ∧
     (given6.queue (QueueId.vf 0 0)).deferred = false) ∧
    (given7.hasQueue (QueueId.vf 0 0) = true ∧ given7.hub.responses = [] ∧ (given7.queue (QueueId.vf 0 0)).quiet = true ∧
     (given7.queue (QueueId.vf 0 0)).deferred = true ∧ given7.hub.canSend = true) ∧
    (s0.hasQueue (QueueId.vf 0 0) = true ∧ s0.hub.responses = [] ∧ (s0.queue (QueueId.vf 0 0)).quiet = false) ∧
    (s0.hasQueue QueueId.mrq = true ∧ s0.hub.responses = [] ∧ (s0.queue QueueId.mrq).quiet = false) ∧
    (given8.hasQueue QueueId.mcq = true ∧ given8.hub.responses = [] ∧ given8.hub.linkUp = true ∧ given8.hub.ready = true ∧
     (given8.queue QueueId.mcq).arm = false ∧ minLog QueueId.mcq ≤ (given8.queue QueueId.mcq).log2 ∧
     (given8.queue QueueId.mcq).log2 ≤ 16) :=
  ⟨⟨rfl, rfl, rfl, rfl, rfl, (by decide), (by decide)⟩,
    ⟨rfl, rfl, rfl, rfl, rfl, (by decide)⟩,
    ⟨rfl, rfl, rfl, rfl, rfl, rfl⟩,
    ⟨rfl, rfl, rfl, rfl, rfl, rfl, (by decide)⟩,
    ⟨rfl, rfl, rfl, rfl, rfl, rfl⟩,
    ⟨rfl, rfl, rfl, rfl, rfl, rfl, (by decide)⟩,
    ⟨rfl, rfl, rfl, rfl, rfl, rfl⟩,
    ⟨rfl, rfl, rfl, rfl⟩,
    ⟨rfl, rfl, rfl, rfl, rfl⟩,
    ⟨rfl, rfl, rfl⟩,
    ⟨rfl, rfl, rfl⟩,
    ⟨rfl, rfl, rfl, rfl, rfl, (by decide), (by decide)⟩⟩

end Queues

namespace Carousel

def c0 := demoCell []
def onH (s : State) (f : Hub → Hub)  : State := { s with hub := f s.hub }
def sb (f : Chan → Chan) : State := demoPart (fun c => f { c with cell := none, queues := List.replicate 16 .blank }) c0
def s0 : State := sb id
def sq (n : Nat) (f : Queue → Queue) (g : Chan → Chan := id) : State := sb fun c => g { c with queues := updateAt c.queues n f }
def s11 : State := sq 11 (fun q => { q with arm := true, log2 := 4, prod := 17, cons := 2, base := 0x1000 }) fun c => { c with ntq := [⟨List.replicate 16 7, 0⟩] }
def s3 : State := sq 3 (fun q => { q with arm := true, log2 := 4, prod := 18, issued := 17, cons := 2, base := 0x1000 })
def ev : List Byte := [3,1,2,3,4,5,6,7,0,0,0,0,0,0,0,0]
def ev0 : List Byte := [4,1,2,3,4,5,6,7,0,0,0,0,0,0,0,0]
def ev1 : List Byte := [1,1,2,3,4,5,6,7,0,0,0,0,0,0,0,1]
def sr (x : Option Cell) : State := sq 0 (fun q => { q with arm := true, log2 := 4, prod := 18, issued := 18, reading := true, cons := 17 }) fun c => { c with cell := x }
def cV : Cell := demoCell [(0xEC09, 0x80)]
def given1 := onH s0 fun h => { h with d3hot := true }

theorem s11_idle (m : Nat) :
    (s11.queue (.vf 0 m)).inHand = none ∧ (m ≠ 11 → (s11.queue (.vf 0 m)).arm = false) := by
  by_cases h : m < 16
  · have e : ∀ k : Fin 16, (s11.queue (.vf 0 k)).inHand = none ∧ (k.val ≠ 11 → (s11.queue (.vf 0 k)).arm = false) := by
      decide
    exact e ⟨m, h⟩
  · have e : s11.queue (.vf 0 m) = .blank := by
      show (s11.chan 0).queues.getD m .blank = .blank
      rw [List.getD_eq_getElem?_getD, List.getElem?_eq_none (Nat.le_of_not_lt h)]
      rfl
    rw [e]
    exact ⟨rfl, fun _ => rfl⟩

theorem s3_idle (m : Nat) :
    (s3.queue (.vf 0 m)).inHand = none ∧ (m ≠ 3 → (s3.queue (.vf 0 m)).arm = false) := by
  by_cases h : m < 16
  · have e : ∀ k : Fin 16, (s3.queue (.vf 0 k)).inHand = none ∧ (k.val ≠ 3 → (s3.queue (.vf 0 k)).arm = false) := by
      decide
    exact e ⟨m, h⟩
  · have e : s3.queue (.vf 0 m) = .blank := by
      show (s3.chan 0).queues.getD m .blank = .blank
      rw [List.getD_eq_getElem?_getD, List.getElem?_eq_none (Nat.le_of_not_lt h)]
      rfl
    rw [e]
    exact ⟨rfl, fun _ => rfl⟩

theorem witness_CarouselMovesItems :
    (given1.offers 0 = true ∧ (given1.chan 0).queues.length = 16 ∧ (given1.hub.canSend = false ∨ given1.nextVisit ≠ some 0)) ∧
    (s11.offers 0 = true ∧ (s11.chan 0).queues.length = 16 ∧
     (s11.chan 0).ntq = [{ bytes := List.replicate 16 7#8, moved := 0 : Held }] ∧
     { bytes := List.replicate 16 7#8, moved := 0 : Held }.moved = 0 ∧
     { bytes := List.replicate 16 7#8, moved := 0 : Held }.bytes.length = 16 ∧ (s11.queue (QueueId.vf 0 11)).arm = true ∧
     (s11.queue (QueueId.vf 0 11)).issued = 0 ∧
     gap (s11.queue (QueueId.vf 0 11)).prod (s11.queue (QueueId.vf 0 11)).cons + 1 ≤ 2 ^ (s11.queue (QueueId.vf 0 11)).log2 ∧
     (s11.queue (QueueId.vf 0 11)).wbEn = false ∧ (s11.queue (QueueId.vf 0 11)).ie = false ∧
     ((s11.chan 0).cell = none ∧ (s11.chan 0).ntqLost = 0 ∧ s11.hub.panel.selected ≠ some 0 ∧ (s11.chan 0).deficit = 0 ∧
        1 ≤ (s11.chan 0).share ∧ s11.hub.canSend = true ∧ s11.nextVisit = some 0) ∧
     (∀ m, (s11.queue (.vf 0 m)).inHand = none) ∧ (∀ m, m ≠ 11 → (s11.queue (.vf 0 m)).arm = false)) ∧
    (s3.offers 0 = true ∧ (s3.chan 0).queues.length = 16 ∧ (s3.chan 0).ntq = [] ∧ (s3.queue (QueueId.vf 0 3)).arm = true ∧
     (s3.queue (QueueId.vf 0 3)).reading = false ∧ (s3.queue (QueueId.vf 0 3)).issued ≠ (s3.queue (QueueId.vf 0 3)).prod ∧
     ((s3.chan 0).cell = none ∧ (s3.chan 0).ntqLost = 0 ∧ s3.hub.panel.selected ≠ some 0 ∧ (s3.chan 0).deficit = 0 ∧ 1 ≤
        (s3.chan 0).share ∧ s3.hub.canSend = true ∧ s3.nextVisit = some 0) ∧
     (∀ m, (s3.queue (.vf 0 m)).inHand = none) ∧ (∀ m, m ≠ 3 → (s3.queue (.vf 0 m)).arm = false)) ∧
    ((sr none).offers 0 = true ∧ ((sr none).chan 0).queues.length = 16 ∧ ((sr none).queue (QueueId.vf 0 0)).reading = true ∧
     ((sr none).queue (QueueId.vf 0 0)).inHand = none ∧ ev0.length = 16 ∧
     (¬((1 ≤ BitVec.toNat (ev0.getD 0 0#8) ∧ BitVec.toNat (ev0.getD 0 0#8) ≤ 3 ∨ 128 ≤ BitVec.toNat (ev0.getD 0 0#8)) ∧
        ∀ (b : Byte), b ∈ List.drop 8 ev0 → b = 0#8)) ∧
     ev1.length = 16 ∧
     (¬((1 ≤ BitVec.toNat (ev1.getD 0 0#8) ∧ BitVec.toNat (ev1.getD 0 0#8) ≤ 3 ∨ 128 ≤ BitVec.toNat (ev1.getD 0 0#8)) ∧
        ∀ (b : Byte), b ∈ List.drop 8 ev1 → b = 0#8))) ∧
    ((sr (some c0)).offers 0 = true ∧ ((sr (some c0)).chan 0).queues.length = 16 ∧
     ((sr (some c0)).queue (QueueId.vf 0 0)).reading = true ∧ ((sr (some c0)).queue (QueueId.vf 0 0)).inHand = none ∧
     ev.length = 16 ∧
     ((1 ≤ BitVec.toNat (ev.getD 0 0#8) ∧ BitVec.toNat (ev.getD 0 0#8) ≤ 3 ∨ 128 ≤ BitVec.toNat (ev.getD 0 0#8)) ∧ ∀ (b
        : Byte), b ∈ List.drop 8 ev → b = 0#8) ∧
     ((sr (some c0)).chan 0).cell = some c0 ∧
     (c0.runs = false ∨ c0.nap.napping = true ∨ c0.io.bit 0xEC09 7 = false ∨ 64 ≤ c0.evf.length)) ∧
    ((sr (some cV)).offers 0 = true ∧ ((sr (some cV)).chan 0).queues.length = 16 ∧
     ((sr (some cV)).queue (QueueId.vf 0 0)).reading = true ∧ ((sr (some cV)).queue (QueueId.vf 0 0)).inHand = none ∧
     ev.length = 16 ∧
     ((1 ≤ BitVec.toNat (ev.getD 0 0#8) ∧ BitVec.toNat (ev.getD 0 0#8) ≤ 3 ∨ 128 ≤ BitVec.toNat (ev.getD 0 0#8)) ∧ ∀ (b
        : Byte), b ∈ List.drop 8 ev → b = 0#8) ∧
     ((sr (some cV)).chan 0).cell = some cV ∧ cV.runs = true ∧ cV.nap.napping = false ∧ cV.io.bit 0xEC09 7 = true ∧
     cV.evf.length < 64) :=
  ⟨⟨rfl, rfl, (by decide)⟩,
    ⟨rfl, rfl, rfl, rfl, rfl, rfl, rfl, (by decide), rfl, rfl, (by decide), fun m => (s11_idle m).1, fun m => (s11_idle m).2⟩,
    ⟨rfl, rfl, rfl, rfl, rfl, (by decide), (by decide), fun m => (s3_idle m).1, fun m => (s3_idle m).2⟩,
    ⟨rfl, rfl, rfl, rfl, rfl, (by decide), rfl, (by decide)⟩,
    ⟨rfl, rfl, rfl, rfl, rfl, (by decide), rfl, (by decide)⟩,
    ⟨rfl, rfl, rfl, rfl, rfl, (by decide), rfl, rfl, rfl, rfl, (by decide)⟩⟩

end Carousel

namespace Casting

def c0 := demoCell []
def onH (s : State) (f : Hub → Hub)  : State := { s with hub := f s.hub }
def ch (f : Chan → Chan) : State := demoPart f c0
def s0 : State := ch id
def un (f : Chan → Chan := id) : State :=
  { demoHub [f { Chan.blank 0 with epoch := 1, viewEpoch := 1 }] with dies := State.reset.dies.map fun d => { d with cells := d.cells.map fun u => { u with tested := true } } }
def wNI (s : State) (i : Option Image) : State := onH s fun h => { h with image := i }
def given1 := onH s0 fun h => {h with ready := false}
def given2 := onH s0 fun h => {h with part := 1}
def given3 := demoHub [{ Chan.blank 0 with epoch := 1 }]
def given4 := wNI un (some {demoImage with cards := []})
def given5 := ch fun c => {c with draining := true}
def given6 := ch fun c => {c with draining := true, pendingCast := some ⟨some 4, 0⟩ }
def given7 := ch fun c => { c with state := .casting, cell := none, castTag := some 5 }
def given8 := ch fun c => {c with draining := true, drainFault := true}

theorem witness_ChannelsAreCastAndStopped :
    (given1.manages = false) ∧
    (given2.manages = true ∧ given2.offers 559 = false) ∧
    (s0.manages = true ∧ s0.offers 0 = true ∧ 2 ≠ (s0.chan 0).epoch ∧ 1 = (s0.chan 0).epoch ∧
     (¬(((s0.chan 0).state = ChanState.uncast ∨ (s0.chan 0).state = ChanState.stopped ∨ (s0.chan 0).state =
        ChanState.safe) ∧ (s0.chan 0).draining = false)) ∧
     (s0.chan 0).draining = false ∧ (s0.chan 0).state ≠ ChanState.uncast ∧ (s0.chan 0).state ≠ ChanState.stopped) ∧
    (un.manages = true ∧ un.offers 0 = true ∧ 1 = (un.chan 0).epoch ∧
     (((un.chan 0).state = ChanState.uncast ∨ (un.chan 0).state = ChanState.stopped ∨ (un.chan 0).state =
        ChanState.safe) ∧ (un.chan 0).draining = false) ∧
     un.hub.image = some demoImage ∧ un.card 0 = some (demoCard 0 1) ∧
     ((if un.pinless 0 = true then 0 else (un.card 0).elim 0 fun x => x.die) = 0 ∨ un.populated (if un.pinless 0 = true
        then 0 else (un.card 0).elim 0 fun x => x.die) = true) ∧
     ((un.mould (if 0 = 255 then (un.card 0).elim 0 fun x => x.mould else 0)).isSome = true) ∧
     (un.castCell (if un.pinless 0 = true then 0 else (un.card 0).elim 0 fun x => x.die) none = some (1, 0)) ∧
     ((un.die (1, 0).fst).cell (1, 0).snd).role = CellRole.pool ∧
     ((un.mould (if 255 = 255 then (un.card 0).elim 0 fun x => x.mould else 255)).isSome = true) ∧
     (un.chan 0).draining = false ∧ ((un.chan 0).state = ChanState.uncast ∨ (un.chan 0).state = ChanState.stopped)) ∧
    (given3.manages = true ∧ given3.offers 0 = true ∧ 1 = (given3.chan 0).epoch ∧
     (((given3.chan 0).state = ChanState.uncast ∨ (given3.chan 0).state = ChanState.stopped ∨ (given3.chan 0).state =
        ChanState.safe) ∧ (given3.chan 0).draining = false) ∧
     given3.hub.image = some demoImage ∧ given3.card 0 = some (demoCard 0 1) ∧
     ((if given3.pinless 0 = true then 0 else (given3.card 0).elim 0 fun x => x.die) = 0 ∨ given3.populated (if given3.pinless 0
        = true then 0 else (given3.card 0).elim 0 fun x => x.die) = true) ∧
     ((given3.mould (if 255 = 255 then (given3.card 0).elim 0 fun x => x.mould else 255)).isSome = true) ∧
     (given3.castCell (if given3.pinless 0 = true then 0 else (given3.card 0).elim 0 fun x => x.die) none = none)) ∧
    (given4.manages = true ∧ given4.offers 0 = true ∧ 1 = (given4.chan 0).epoch ∧
     (((given4.chan 0).state = ChanState.uncast ∨ (given4.chan 0).state = ChanState.stopped ∨ (given4.chan 0).state =
        ChanState.safe) ∧ (given4.chan 0).draining = false) ∧
     given4.hub.image = some ({ device := demoImage.device, moulds := demoImage.moulds, cards := [] : Image }) ∧
     given4.card 0 = none) ∧
    ((wNI un none).manages = true ∧ (wNI un none).offers 0 = true ∧ 1 = ((wNI un none).chan 0).epoch ∧
     ((((wNI un none).chan 0).state = ChanState.uncast ∨ ((wNI un none).chan 0).state = ChanState.stopped ∨ ((wNI un
        none).chan 0).state = ChanState.safe) ∧ ((wNI un none).chan 0).draining = false) ∧
     (wNI un none).hub.image = none) ∧
    (given5.manages = true ∧ given5.offers 0 = true ∧ 1 = (given5.chan 0).epoch ∧ (given5.chan 0).draining = true ∧
     (given5.chan 0).pendingCast = none) ∧
    (given6.manages = true ∧ given6.offers 0 = true ∧ 1 = (given6.chan 0).epoch ∧ (given6.chan 0).draining = true ∧
     (given6.chan 0).pendingCast = some { tag := some 4, mould := 0 : Waiting }) ∧
    ((given7.chan 0).state = ChanState.casting ∧ (given7.chan 0).draining = false ∧ (given7.chan 0).place = some (1, 0) ∧
     given7.card 0 = some (demoCard 0 1)) ∧
    (given7.manages = true ∧ given7.offers 0 = true ∧ 1 = (given7.chan 0).epoch ∧ (given7.chan 0).draining = false ∧
     (given7.chan 0).state ≠ ChanState.uncast ∧ (given7.chan 0).state ≠ ChanState.stopped) ∧
    (((s0.chan 0).state ≠ ChanState.casting ∨ (s0.chan 0).draining = true)) ∧
    (((s0.chan 0).draining = false ∨ s0.drainWrites 0 = true)) ∧
    ((given5.chan 0).draining = true ∧ given5.drainWrites 0 = false ∧ (given5.chan 0).pendingCast = none ∧
     (given5.chan 0).stopTags = [] ∧ (given5.chan 0).place = some (1, 0)) ∧
    ((given8.chan 0).draining = true ∧ given8.drainWrites 0 = false ∧ (given8.chan 0).pendingCast = none ∧
     (given8.chan 0).stopTags = [] ∧ (given8.chan 0).place = some (1, 0)) :=
  ⟨rfl,
    ⟨rfl, rfl⟩,
    ⟨rfl, rfl, (by decide), rfl, (by decide), rfl, (by decide), (by decide)⟩,
    ⟨rfl, rfl, rfl, (by decide), rfl, rfl, (by decide), rfl, rfl, rfl, rfl, rfl, (by decide)⟩,
    ⟨rfl, rfl, rfl, (by decide), rfl, rfl, (by decide), rfl, rfl⟩,
    ⟨rfl, rfl, rfl, (by decide), rfl, rfl⟩,
    ⟨rfl, rfl, rfl, (by decide), rfl⟩,
    ⟨rfl, rfl, rfl, rfl, rfl⟩,
    ⟨rfl, rfl, rfl, rfl, rfl⟩,
    ⟨rfl, rfl, rfl, rfl⟩,
    ⟨rfl, rfl, rfl, rfl, (by decide), (by decide)⟩,
    (by decide),
    (by decide),
    ⟨rfl, rfl, rfl, rfl, rfl⟩,
    ⟨rfl, rfl, rfl, rfl, rfl⟩⟩

end Casting

namespace Managing

def c0 := demoCell []
def onH (s : State) (f : Hub → Hub)  : State := { s with hub := f s.hub }
def ch (f : Chan → Chan) : State := demoPart f c0
def s0 : State := ch id
def un : State := demoHub [{ Chan.blank 0 with epoch := 1, viewEpoch := 1 }]
def ar (s : State) : State := onH s fun h => { h with mrq := { Queue.blank with arm := true, log2 := 8, prod := 300, cons := 45 } }
def upd : State := onH s0 fun h => { h with update := some 1, flash := [.erased, {bytes := [], written := true, open_ := true}] }
def rec1 : LockupRecord := { epoch := 1, info := { time := 5, first := 1, second := 1, cycle := 1, savedPc := 0x100, ssp := 0, status := 0, cwp := 0, wres := 19, wsaved := 0 } }
def given1 := ch fun c => { c with state := .casting}
def given2 := ch fun c => {c with lockup := some rec1}
def given3 := onH s0 fun h => {h with part := 1}

theorem witness_ManagementAnswers :
    (s0.manages = true ∧ s0.offers 0 = true ∧ 2 ≠ (s0.chan 0).epoch ∧ 1 = (s0.chan 0).epoch ∧ (s0.chan 0).cellLess = false ∧
     (s0.chan 0).state ≠ ChanState.casting ∧ (s0.chan 0).state = ChanState.running ∧ (s0.chan 0).draining = false ∧
     (s0.chan 0).step = CatchStep.none ∧ 9#8 &&& 7#8 = 1#8 ∧ s0.offers 0xFFFE = false ∧ 0xFFFE ≠ 0xFFFF ∧
     s0.offers 560 = false ∧ 560 ≠ 0xFFFF ∧ s0.hub.update = none ∧ s0.hub.flash.length = 2 ∧ s0.hub.mrq.arm = false ∧
     (6#8 = 0#8 ∨ 5 < BitVec.toNat 6#8 ∧ BitVec.toNat 6#8 < 16 ∨ 23 < BitVec.toNat 6#8 ∧ BitVec.toNat 6#8 < 32 ∨ 34 <
        BitVec.toNat 6#8 ∧ BitVec.toNat 6#8 < 48 ∨ 53 < BitVec.toNat 6#8)) ∧
    (un.manages = true ∧ un.offers 0 = true ∧ 1 = (un.chan 0).epoch ∧ (un.chan 0).cellLess = true) ∧
    (given1.manages = true ∧ given1.offers 0 = true ∧ 1 = (given1.chan 0).epoch ∧ (given1.chan 0).cellLess = false ∧
     (given1.chan 0).state = ChanState.casting) ∧
    (upd.manages = true ∧ upd.hub.update = some 1 ∧
     upd.hub.flash[1]? = some { bytes := [], written := true, open_ := true : FlashSlot } ∧ [1#8, 2#8].length ≤ 0x100000 ∧
     (0x100000 < [1#8].length ∨ 20 * 0x400 * 0x400 < 0x1400000 + [1#8].length)) ∧
    ((ar given2).manages = true ∧ (ar given2).offers 0 = true ∧ ((ar given2).chan 0).lockup = some rec1) ∧
    (given3.manages = true ∧ given3.offers 559 = false) ∧
    ((ar s0).manages = true ∧
     (0xFF#8 = 0#8 ∨ 5 < BitVec.toNat 0xFF#8 ∧ BitVec.toNat 0xFF#8 < 16 ∨ 23 < BitVec.toNat 0xFF#8 ∧ BitVec.toNat 0xFF#8
        < 32 ∨ 34 < BitVec.toNat 0xFF#8 ∧ BitVec.toNat 0xFF#8 < 48 ∨ 53 < BitVec.toNat 0xFF#8) ∧
     (ar s0).hub.mcq.wbEn = false ∧ (ar s0).hub.mcq.ie = false ∧ (ar s0).hub.responses = [] ∧ (ar s0).hub.mrq.arm = true ∧
     (ar s0).hub.mrq.wbEn = false ∧ (ar s0).hub.mrq.ie = false ∧
     gap (ar s0).hub.mrq.prod (ar s0).hub.mrq.cons + 1 ≤ 2 ^ (ar s0).hub.mrq.log2 ∧
     (0#8 = 0#8 ∨ 5 < BitVec.toNat 0#8 ∧ BitVec.toNat 0#8 < 16 ∨ 23 < BitVec.toNat 0#8 ∧ BitVec.toNat 0#8 < 32 ∨ 34 <
        BitVec.toNat 0#8 ∧ BitVec.toNat 0#8 < 48 ∨ 53 < BitVec.toNat 0#8)) :=
  ⟨⟨rfl, rfl, (by decide), rfl, rfl, (by decide), rfl, rfl, rfl, rfl, rfl, (by decide), rfl, (by decide), rfl, rfl, rfl,
     (by decide)⟩,
    ⟨rfl, rfl, rfl, rfl⟩,
    ⟨rfl, rfl, rfl, rfl, rfl⟩,
    ⟨rfl, rfl, rfl, (by decide), (by decide)⟩,
    ⟨rfl, rfl, rfl⟩,
    ⟨rfl, rfl⟩,
    ⟨rfl, (by decide), rfl, rfl, rfl, rfl, rfl, rfl, (by decide), (by decide)⟩⟩

end Managing

namespace Debugging

def c0 := demoCell []
def ch (f : Chan → Chan) (c : Cell := c0) : State := demoPart f c
def s0 : State := ch id
def un : State := demoHub [{ Chan.blank 0 with epoch := 1, viewEpoch := 1 }]
def cH : Cell := { c0 with core := { c0.core with debugHalt := true }, breakpoints := [7], mem := [(0,1)] }
def cR : Cell := { c0 with core := { c0.core with haltRequest := true } }
def cB : Cell := { c0 with breakpoints := [0x100] }
def at' (c : Cell) : State := ch (fun c => { c with attached := true, netOff := [(.debug, 0)] }) c

theorem witness_DebugCommandsRun :
    (s0.manages = true ∧ s0.offers 0 = true ∧
     (((s0.chan 0).state = ChanState.running ∨ (s0.chan 0).state = ChanState.napping ∨ (s0.chan 0).state =
        ChanState.halted) ∧ (s0.chan 0).draining = false) ∧
     2 ≠ (s0.chan 0).epoch ∧ ((s0.chan 0).attached = false ∨ (s0.chan 0).draining = true ∨ (s0.chan 0).cell = none)) ∧
    (un.manages = true ∧ un.offers 0 = true ∧
     (¬(((un.chan 0).state = ChanState.running ∨ (un.chan 0).state = ChanState.napping ∨ (un.chan 0).state =
        ChanState.halted) ∧ (un.chan 0).draining = false)) ∧
     ((un.chan 0).attached = false ∨ (un.chan 0).draining = true ∨ (un.chan 0).cell = none)) ∧
    ((at' c0).manages = true ∧ (at' c0).offers 0 = true ∧ ((at' c0).chan 0).attached = true ∧
     ((at' c0).chan 0).draining = false ∧ ((at' c0).chan 0).cell = some c0 ∧
     (¬(c0.core.debugHalt = true ∨ c0.core.lockup = true)) ∧ ¬c0.core.debugHalt = true ∧ 0x7FFFC + 4 ≤ 0x80000 ∧
     236 + 4 ≤ 240 ∧ 0x80000 < 0x7FFFC + 5 ∧ [1#16, 2#16, 3#16, 4#16].length ≤ 4 ∧ 4 < [1#16, 2#16, 3#16, 4#16, 5#16].length) ∧
    ((at' cH).manages = true ∧ (at' cH).offers 0 = true ∧ ((at' cH).chan 0).attached = true ∧
     ((at' cH).chan 0).draining = false ∧ ((at' cH).chan 0).cell = some cH ∧
     (cH.core.debugHalt = true ∨ cH.core.lockup = true) ∧ 0 + [7#8, 0#8].length ≤ 0x80000 ∧ cH.core.debugHalt = true) ∧
    ((ch id cR).manages = true ∧ (ch id cR).offers 0 = true ∧ (ch id cR).runsOn 0 cR ∧ cR.coreOn = true ∧
     cR.core.haltRequest = true ∧ cR.core.slot = none ∧ cR.core.shadow = false ∧
     (cR.core.afterEntry = false ∨ cR.core.stepping = true) ∧ cR.core.lockup = false) ∧
    ((ch id cB).manages = true ∧ (ch id cB).offers 0 = true ∧ (ch id cB).runsOn 0 cB ∧
     (cB.core.haltRequest = false ∨ cB.core.slot.isSome = true ∨ cB.core.shadow = true ∨ cB.core.afterEntry = true ∧
        cB.core.stepping = false) ∧
     cB.executes = true ∧ cB.core.slot = none ∧ cB.core.shadow = false ∧ cB.interruptDue = false ∧
     cB.core.resumeAt ≠ some cB.core.pc ∧ cB.core.pc ∈ cB.breakpoints) ∧
    ((ch id).manages = true ∧ (ch id).offers 0 = true ∧ (ch id).runsOn 0 c0 ∧ c0.breakpoints = []) :=
  ⟨⟨rfl, rfl, (by decide), (by decide), (by decide)⟩,
    ⟨rfl, rfl, (by decide), (by decide)⟩,
    ⟨rfl, rfl, rfl, rfl, rfl, (by decide), (by decide), (by decide), (by decide), (by decide), (by decide), (by decide)⟩,
    ⟨rfl, rfl, rfl, rfl, rfl, (by decide), (by decide), rfl⟩,
    ⟨rfl, rfl, ⟨rfl, rfl, rfl⟩, rfl, rfl, rfl, rfl, (by decide), rfl⟩,
    ⟨rfl, rfl, ⟨rfl, rfl, rfl⟩, (by decide), rfl, rfl, rfl, rfl, (by decide), (by decide)⟩,
    ⟨rfl, rfl, ⟨rfl, rfl, rfl⟩, rfl⟩⟩

end Debugging

namespace Panels

def c0 := demoCell []
def onH (s : State) (f : Hub → Hub)  : State := { s with hub := f s.hub }
def ch (f : Chan → Chan) : State := demoPart f c0
def s0 : State := ch id
def pan (p : Panel) (s : State) : State := onH s fun h => { h with panel := p }
def P0 : Panel := { selected := some 0, awake := true, waiting := false, on := true, starting := false, startFrame := none, i2s := (0, 0), pushing := false, area := (0,0), heard := none, fade := 0 }
def te (s : State) : State := onH s fun h => { h with image := some { demoImage with device := { demoDevice with teEn := true } } }
def sl : Held := { bytes := [0,0,0,0x21] ++ List.replicate 12 0, moved := 16 }
def sherd : Held := { bytes := [0,0,0,0x11] ++ List.replicate 28 0, moved := 1000 }
def shw (l : List Held) : State := ch fun c => { c with svc := { c.svc with held := l } }
def given1 := pan {P0 with waiting := true} s0
def given2 := pan {P0 with starting := true, on := false, pushing := true} (te (shw [sl]))
def given3 := pan P0 (shw [{sl with moved := 0}])

theorem witness_PanelIsServed :
    (s0.manages = true ∧ s0.offers 0 = true ∧ 0 ≠ 0xFFFF ∧ s0.hub.panel.selected = none) ∧
    ((pan P0 (shw [sl])).manages = true ∧ (pan P0 (shw [sl])).hub.panel.selected = some 0) ∧
    (given1.hub.panel.waiting = true ∧ 0 < given1.device.panelW ∧ 0 < given1.device.panelH) ∧
    ((pan P0 s0).manages = true ∧ (pan P0 s0).offers 0 = true ∧ 0 ≠ 0xFFFF ∧ (pan P0 s0).hub.panel.selected = some 0) ∧
    ((pan P0 s0).hub.panel.waiting = false) ∧
    ((s0.hub.panel.selected = none ∨ s0.hub.panel.waiting = true)) ∧
    ((pan P0 (shw [sherd, sl])).hub.panel.selected = some 0 ∧ ((pan P0 (shw [sherd, sl])).chan 0).svc.held = [sherd, sl] ∧
     (pan P0 (shw [sherd, sl])).hub.panel.waiting = false ∧ sherd.size ≤ sherd.moved ∧
     ((pan P0 (shw [sherd, sl])).device.teEn = false ∨ (pan P0 (shw [sherd, sl])).hub.panel.pushing = true) ∧
     sherd.isSeal = false) ∧
    ((pan P0 (shw [sl])).hub.panel.selected = some 0 ∧ ((pan P0 (shw [sl])).chan 0).svc.held = [sl] ∧
     (pan P0 (shw [sl])).hub.panel.waiting = false ∧ sl.size ≤ sl.moved ∧
     ((pan P0 (shw [sl])).device.teEn = false ∨ (pan P0 (shw [sl])).hub.panel.pushing = true) ∧ sl.isSeal = true) ∧
    (given2.hub.panel.selected = some 0 ∧ (given2.chan 0).svc.held = [sl] ∧ given2.hub.panel.waiting = false ∧
     sl.size ≤ sl.moved ∧ (given2.device.teEn = false ∨ given2.hub.panel.pushing = true) ∧ sl.isSeal = true) ∧
    (given3.hub.panel.selected = some 0 ∧ (given3.chan 0).svc.held = [{ bytes := sl.bytes, moved := 0 : Held }] ∧
     ({ bytes := sl.bytes, moved := 0 : Held }).moved < ({ bytes := sl.bytes, moved := 0 : Held }).size) ∧
    ((pan P0 (te (shw [sl]))).hub.panel.selected = some 0 ∧ (pan P0 (te (shw [sl]))).device.teEn = true ∧
     (pan P0 (te (shw [sl]))).hub.panel.waiting = false ∧ sl ∈ ((pan P0 (te (shw [sl]))).chan 0).svc.held ∧ sl.isSeal = true ∧
     sl.size ≤ sl.moved) ∧
    ((pan P0 (shw [sl])).device.teEn = false) :=
  ⟨⟨rfl, rfl, (by decide), rfl⟩,
    ⟨rfl, rfl⟩,
    ⟨rfl, (by decide), (by decide)⟩,
    ⟨rfl, rfl, (by decide), rfl⟩,
    rfl,
    (by decide),
    ⟨rfl, rfl, rfl, (by decide), (by decide), rfl⟩,
    ⟨rfl, rfl, rfl, (by decide), (by decide), rfl⟩,
    ⟨rfl, rfl, rfl, (by decide), (by decide), rfl⟩,
    ⟨rfl, rfl, (by decide)⟩,
    ⟨rfl, rfl, rfl, (by decide), rfl, (by decide)⟩,
    rfl⟩

end Panels

namespace Faulting

def c0 := demoCell []
def allT (s : State) : State := { s with dies := s.dies.map fun d => { d with cells := d.cells.map fun u => { u with tested := true } } }
def un1 (s : State) (d n : Nat) (f : CellUnit → CellUnit) : State := s.onCellUnit d n f
def rol (r : CellRole) (s : State) := un1 s 1 0 fun u => { u with role := r }
def ch (f : Chan → Chan) (c : Cell := c0) : State := allT (demoPart f c)
def s0 : State := ch id
def noSpare : State := { s0 with dies := s0.dies.map fun d => { d with cells := d.cells.map fun u => if u.role = .pool then { u with role := .retired } else u } }
def given1 := ch fun c => { c with state := .catching, step := .replay }
def given2 := ch fun c => { c with draining := true }
def given3 := ch fun c => { c with state := .casting, cell := none }
def given4 := ch fun c => { c with netOff := [(.debug, 0)] }
def given5 := ch fun c => { c with netOff := [(.logFull, 0)] }
def given6 := ch fun c => { c with attached := true, netOff := [(.debug, 0)] }

theorem witness_FaultsAreCaught :
    (s0.populated 1 = true ∧ ((s0.die (1, 0).fst).cell (1, 0).snd).role = CellRole.hosting 0 ∧
     (s0.chan 0).place = some (1, 0) ∧ (s0.chan 0).draining = false ∧ (s0.chan 0).netOff = [] ∧
     (s0.chan 0).state ≠ ChanState.casting ∧ (s0.chan 0).state ≠ ChanState.testing ∧ (s0.chan 0).checkpoint.isSome = true ∧
     s0.catchCell 1 (s0.pinless 0) = some (1, 80)) ∧
    (given1.populated 1 = true ∧ ((given1.die (1, 0).fst).cell (1, 0).snd).role = CellRole.hosting 0 ∧
     (given1.chan 0).place = some (1, 0) ∧ (given1.chan 0).draining = false ∧ (given1.chan 0).netOff = [] ∧
     (given1.chan 0).state ≠ ChanState.casting ∧ (given1.chan 0).state ≠ ChanState.testing ∧
     (given1.chan 0).checkpoint.isSome = true ∧ given1.catchCell 1 (given1.pinless 0) = some (1, 80)) ∧
    (noSpare.populated 1 = true ∧ ((noSpare.die (1, 0).fst).cell (1, 0).snd).role = CellRole.hosting 0 ∧
     (noSpare.chan 0).place = some (1, 0) ∧ (noSpare.chan 0).draining = false ∧ (noSpare.chan 0).netOff = [] ∧
     (noSpare.chan 0).state ≠ ChanState.casting ∧ (noSpare.chan 0).state ≠ ChanState.testing ∧
     (noSpare.chan 0).checkpoint.isSome = true ∧ noSpare.catchCell 1 (noSpare.pinless 0) = none) ∧
    (given2.populated 1 = true ∧ ((given2.die (1, 0).fst).cell (1, 0).snd).role = CellRole.hosting 0 ∧
     (given2.chan 0).place.isSome = true ∧ (given2.chan 0).draining = true) ∧
    (given3.populated 1 = true ∧ ((given3.die (1, 0).fst).cell (1, 0).snd).role = CellRole.hosting 0 ∧
     (given3.chan 0).place = some (1, 0) ∧ (given3.chan 0).draining = false ∧ (given3.chan 0).state = ChanState.casting ∧
     (given3.castCell (if given3.pinless 0 = true then 0 else (given3.card 0).elim 0 fun x => x.die) (some (1, 0)) = some (1, 1))) ∧
    (given4.populated 1 = true ∧ ((given4.die (1, 0).fst).cell (1, 0).snd).role = CellRole.hosting 0 ∧
     (given4.chan 0).place.isSome = true ∧ (given4.chan 0).draining = false ∧ (given4.chan 0).state ≠ ChanState.casting ∧
     (given4.chan 0).state ≠ ChanState.testing ∧ (given4.chan 0).netOff ≠ []) ∧
    (given5.populated 1 = true ∧ ((given5.die (1, 0).fst).cell (1, 0).snd).role = CellRole.hosting 0 ∧
     (given5.chan 0).place.isSome = true ∧ (given5.chan 0).draining = false ∧ (given5.chan 0).state ≠ ChanState.casting ∧
     (given5.chan 0).state ≠ ChanState.testing ∧ (given5.chan 0).netOff ≠ []) ∧
    ((rol CellRole.pool s0).populated 1 = true ∧ (((rol CellRole.pool s0).die (1, 0).fst).cell (1, 0).snd).role = CellRole.pool) ∧
    ((rol CellRole.retired s0).populated 1 = true ∧
     ((((rol CellRole.retired s0).die (1, 0).fst).cell (1, 0).snd).role = CellRole.retired ∨ (((rol CellRole.retired
        s0).die (1, 0).fst).cell (1, 0).snd).role = CellRole.testing)) ∧
    (given6.populated 1 = true ∧ ((given6.die (1, 0).fst).cell (1, 0).snd).role = CellRole.hosting 0) :=
  ⟨⟨rfl, rfl, rfl, rfl, rfl, (by decide), (by decide), rfl, rfl⟩,
    ⟨rfl, rfl, rfl, rfl, rfl, (by decide), (by decide), rfl, rfl⟩,
    ⟨rfl, rfl, rfl, rfl, rfl, (by decide), (by decide), rfl, rfl⟩,
    ⟨rfl, rfl, rfl, rfl⟩,
    ⟨rfl, rfl, rfl, rfl, rfl, rfl⟩,
    ⟨rfl, rfl, rfl, rfl, (by decide), (by decide), (by decide)⟩,
    ⟨rfl, rfl, rfl, rfl, (by decide), (by decide), (by decide)⟩,
    ⟨rfl, rfl⟩,
    ⟨rfl, (by decide)⟩,
    ⟨rfl, rfl⟩⟩

end Faulting

namespace Catching

def c0 := demoCell []
def cB : Cell := { c0 with beam := { c0.beam with boundary := true } }
def onH (s : State) (f : Hub → Hub)  : State := { s with hub := f s.hub }
def allT (s : State) : State := { s with dies := s.dies.map fun d => { d with cells := d.cells.map fun u => { u with tested := true } } }
def ch (f : Chan → Chan) (c : Cell := c0) : State := allT (demoPart f c)
def s0 : State := ch id
def st (x : CatchStep) : State := ch fun c => { c with step := x, state := .catching, faultTime := 3, faultCause := 1, oldPlace := (1, 4) }
def cT : Cell := { c0 with beam := { c0.beam with ctime := 8 } }
def stT : State := ch (fun c => { c with step := .chase, state := .catching, faultTime := 3, faultCause := 1, oldPlace := (1, 4) }) cT
def pl (n : Nat) : State := ch (fun c => { c with planned := some n }) cB
def given1 := st .loading
def given2 := st .chase
def given3 := st .replay
def given4 := onH (st .chase) fun h => {h with standbyLost := true}
def given5 := onH (st .chase) fun h => {h with phase := 15}
def given6 := ch fun c => { c with planned := some 4 }

theorem witness_CatchesRunTheirSteps :
    ((given1.chan 0).step = CatchStep.loading) ∧
    ((given2.chan 0).step ≠ CatchStep.loading) ∧
    ((given3.chan 0).step = CatchStep.replay ∧ (given3.chan 0).cell = some c0) ∧
    ((given2.chan 0).step ≠ CatchStep.replay) ∧
    ((s0.chan 0).step ≠ CatchStep.chase) ∧
    ((stT.chan 0).step = CatchStep.chase ∧ (stT.chan 0).cell = some cT ∧ (stT.chan 0).place = some (1, 0) ∧
     cT.nap.napping = false ∧ cT.beam.ctime ≠ (stT.chan 0).faultTime + 6 ∧ cT.outq = []) ∧
    (((pl 4).chan 0).planned = some 4 ∧ ((pl 4).chan 0).place = some (1, 0) ∧ ((pl 4).chan 0).cell = some cB ∧
     ((pl 4).chan 0).mayPause = true ∧ (((pl 4).die (1, 0).fst).cell (1, 0).snd).role = CellRole.hosting 0 ∧
     (pl 4).catchCell (1, 0).fst (4 == 4 && (pl 4).pinless 0) = some (1, 80) ∧ 1 ≤ (1, 0).fst) ∧
    (((pl 5).chan 0).planned = some 5 ∧ ((pl 5).chan 0).place = some (1, 0) ∧ ((pl 5).chan 0).cell = some cB ∧
     ((pl 5).chan 0).mayPause = true ∧ (((pl 5).die (1, 0).fst).cell (1, 0).snd).role = CellRole.hosting 0 ∧
     (pl 5).catchCell (1, 0).fst (5 == 4 && (pl 5).pinless 0) = some (1, 80) ∧ 1 ≤ (1, 0).fst) ∧
    (1 ≤ s0.hub.phase ∧ s0.hub.phase ≤ 6 ∧ s0.hub.standbyLost = false) ∧
    (1 ≤ given2.hub.phase ∧ given2.hub.phase ≤ 6 ∧ given2.hub.standbyLost = false) ∧
    (1 ≤ given4.hub.phase ∧ given4.hub.phase ≤ 6 ∧ given4.hub.standbyLost = true) ∧
    ((given5.hub.phase = 0 ∨ 6 < given5.hub.phase)) ∧
    (s0.populated 1 = true ∧ ((s0.die (1, 0).fst).cell (1, 0).snd).role = CellRole.hosting 0) ∧
    (((s0.chan 0).planned = none ∨ (s0.chan 0).mayPause = false)) ∧
    (((given6.chan 0).planned = none ∨ (given6.chan 0).mayPause = false)) ∧
    ((s0.chan 0).cell = some c0 ∧ c0.pins.owned.getLsbD 0 = true ∧ (s0.chan 0).draining = false ∧
     (s0.chan 0).step = CatchStep.none ∧ (s0.chan 0).state ≠ ChanState.testing) ∧
    ((given2.chan 0).cell = some c0 ∧ c0.pins.owned.getLsbD 0 = true ∧ (given2.chan 0).draining = false ∧
     ((given2.chan 0).step ≠ CatchStep.none ∨ (given2.chan 0).state = ChanState.testing)) :=
  ⟨rfl,
    (by decide),
    ⟨rfl, rfl⟩,
    (by decide),
    (by decide),
    ⟨rfl, rfl, rfl, rfl, (by decide), rfl⟩,
    ⟨rfl, rfl, rfl, rfl, rfl, rfl, (by decide)⟩,
    ⟨rfl, rfl, rfl, rfl, rfl, rfl, (by decide)⟩,
    ⟨(by decide), (by decide), rfl⟩,
    ⟨(by decide), (by decide), rfl⟩,
    ⟨(by decide), (by decide), rfl⟩,
    (by decide),
    ⟨rfl, rfl⟩,
    (by decide),
    (by decide),
    ⟨rfl, rfl, rfl, rfl, (by decide)⟩,
    ⟨rfl, rfl, rfl, (by decide)⟩⟩

end Catching

namespace Snapshots

def c0 := demoCell []
def cK : Cell := { c0 with beam := { c0.beam with boundary := true, entered := false }, slots := List.replicate 8 (some {type := 1, usage := 0, fromUnwrap := false, bytes := [1], count := 0}) }
def ch (f : Chan → Chan) (c : Cell := c0) : State := (demoPart f c)
def s0 : State := ch id
def cL : Cell := { c0 with beam := { c0.beam with line := 4 } }
def l1 : LogRecord := ⟨0, 1, [1,2]⟩
def given1 := ch (fun c => {c with snapDue := true, log := [l1]}) cK
def given2 := ch (fun c => {c with sinceSnap := 4, log := [l1], logFull := true}) cK
def given3 := ch (fun c => {c with detached := true, log := [l1], logFull := true, netOff := [(.debug, 0), (.logFull, 0)]}) cK
def given4 := ch (fun c => {c with forced := true, log := [l1]}) cL
def given5 := ch (fun c => {c with snapshot := some cK, log := [l1, l1], logOld := 1}) cL
def given6 := ch (fun c => {c with draining := true}) cL

theorem witness_CheckpointsAreTaken :
    ((given1.chan 0).cell = some cK ∧ (given1.chan 0).maySnap = true ∧ cK.beam.boundary = true ∧ cK.beam.entered = false ∧
     ((given1.chan 0).snapDue = true ∨ (given1.chan 0).detached = true ∨ (given1.chan 0).interval ≤ (given1.chan 0).sinceSnap)) ∧
    ((given2.chan 0).cell = some cK ∧ (given2.chan 0).maySnap = true ∧ cK.beam.boundary = true ∧ cK.beam.entered = false ∧
     ((given2.chan 0).snapDue = true ∨ (given2.chan 0).detached = true ∨ (given2.chan 0).interval ≤ (given2.chan 0).sinceSnap)) ∧
    ((given3.chan 0).cell = some cK ∧ (given3.chan 0).maySnap = true ∧ cK.beam.boundary = true ∧ cK.beam.entered = false ∧
     ((given3.chan 0).snapDue = true ∨ (given3.chan 0).detached = true ∨ (given3.chan 0).interval ≤ (given3.chan 0).sinceSnap)) ∧
    (((s0.chan 0).snapDue = false ∧ (s0.chan 0).detached = false ∧ (s0.chan 0).sinceSnap < (s0.chan 0).interval)) ∧
    ((given4.chan 0).cell = some cL ∧ (given4.chan 0).maySnap = true ∧ (given4.chan 0).forced = true ∧ cL.beam.dot = 0) ∧
    (((s0.chan 0).forced = false ∨ (s0.chan 0).maySnap = false)) ∧
    ((given5.chan 0).snapshot = some cK ∧ (given5.chan 0).netEnds = [] ∧
     (List.foldr (fun x n => x.size + n) 0 (List.drop (given5.chan 0).logOld (given5.chan 0).log) < 0xA000)) ∧
    ((s0.chan 0).snapshot = none) ∧
    ((s0.chan 0).protected = true) ∧
    ((given6.chan 0).protected = false) :=
  ⟨⟨rfl, rfl, rfl, rfl, (by decide)⟩,
    ⟨rfl, rfl, rfl, rfl, (by decide)⟩,
    ⟨rfl, rfl, rfl, rfl, (by decide)⟩,
    (by decide),
    ⟨rfl, rfl, rfl, rfl⟩,
    (by decide),
    ⟨rfl, rfl, (by decide)⟩,
    rfl,
    rfl,
    rfl⟩

end Snapshots

namespace Testing

def c0 := demoCell []
def cB : Cell := { c0 with beam := { c0.beam with boundary := true } }
def onH (s : State) (f : Hub → Hub)  : State := { s with hub := f s.hub }
def allT (s : State) : State := { s with dies := s.dies.map fun d => { d with cells := d.cells.map fun u => { u with tested := true } } }
def ch0 (f : Chan → Chan) (c : Cell := c0) : State := (demoPart f c)
def ch (f : Chan → Chan) (c : Cell := c0) : State := allT (ch0 f c)
def s0 : State := ch id
def u (n : Nat) (f : CellUnit → CellUnit) (s : State := s0) : State := s.onCellUnit 1 n f
def tst (r : Bool) : State := u 3 fun u => { u with role := .testing, inTest := r, scope := 2 }
def res (o : TestOutcome) : TestResult := { demoResult with outcome := o, memory := 4, spare := 9 }
def hubT (b : Nat) : State := onH s0 fun h => { h with hubTests := [(b, true)] }
def td : State := ch (fun c => { c with testDue := true }) cB
def inP : State := ch (fun c => { c with state := .testing, cell := some { c0 with runs := false } })
def inPn : State := { inP with dies := inP.dies.map fun d => { d with cells := d.cells.map fun u => if u.role = .pool then { u with role := .retired } else u } }
def cS : Cell := { c0 with runs := false }
def rep : State := onH s0 fun h => { h with repairs := [⟨1, 1, 3, 4, 9, 0, 0, 0⟩, ⟨2, 1, 3, 4, 9, 0, 0, 0⟩] }
def given1 := onH s0 fun h => {h with ready := false, phase := 5}

theorem witness_KilnTestsUnits :
    (s0.populated 1 = true ∧ s0.hub.ready = true ∧ ((s0.die 1).cell 3).role = CellRole.pool ∧ s0.dieBusy 1 = false ∧
     s0.hubTestable 3 = true ∧ (∀ (x : Nat × Bool), x ∈ s0.hub.hubTests → x.fst ≠ 3) ∧
     ((s0.die 1).cell 87).role = CellRole.pool ∧ ((s0.die 1).cell 0).role = CellRole.hosting 0 ∧ s0.testedReserves 1 ≠ [] ∧
     (s0.chan 0).planned = none ∧ ((s0.chan 0).testDue = false ∨ (s0.chan 0).mayPause = false) ∧ s0.hub.repairs = []) ∧
    ((ch0 id).populated 1 = true ∧ (ch0 id).hub.ready = true ∧ (((ch0 id).die 1).cell 0).role = CellRole.hosting 0 ∧
     (ch0 id).testedReserves 1 = []) ∧
    ((tst false).populated 1 = true ∧ (tst false).hub.ready = true ∧ (((tst false).die 1).cell 4).role = CellRole.pool ∧
     (tst false).dieBusy 1 = true ∧ (((tst false).die 1).cell 3).role = CellRole.testing ∧
     ((((tst false).die 1).cells.any fun x => x.inTest) = false) ∧ (tst false).copyingOut (1, 3) = false ∧
     (((tst false).die 1).cell 4).role ≠ CellRole.testing) ∧
    (given1.populated 1 = true ∧ given1.hub.ready = false) ∧
    ((tst true).populated 1 = true ∧ (((tst true).die 1).cell 3).role = CellRole.testing ∧
     (((tst true).die 1).cell 3).inTest = true ∧ (res TestOutcome.pass).outcome = TestOutcome.pass ∧
     (res TestOutcome.repaired).outcome = TestOutcome.repaired ∧
     ((res TestOutcome.logic).outcome = TestOutcome.memory ∧ 3 = 2 ∨ (res TestOutcome.logic).outcome = TestOutcome.logic
        ∧ 3 = 3) ∧
     ((res TestOutcome.memory).outcome = TestOutcome.memory ∧ 2 = 2 ∨ (res TestOutcome.memory).outcome =
        TestOutcome.logic ∧ 2 = 3)) ∧
    ((hubT 3).populated 1 = true ∧ (3, true) ∈ (hubT 3).hub.hubTests ∧ (res TestOutcome.logic).outcome = TestOutcome.logic ∧
     (res TestOutcome.memory).outcome = TestOutcome.memory) ∧
    ((hubT 2).populated 1 = true ∧ (2, true) ∈ (hubT 2).hub.hubTests ∧ (2 = 1 ∨ 2 = 2) ∧
     ((res TestOutcome.logic).outcome = TestOutcome.logic ∨ (res TestOutcome.logic).outcome = TestOutcome.memory) ∧
     (res TestOutcome.pass).outcome = TestOutcome.pass) ∧
    ((hubT 1).populated 1 = true ∧ (1, true) ∈ (hubT 1).hub.hubTests ∧ (1 = 1 ∨ 1 = 2) ∧
     ((res TestOutcome.logic).outcome = TestOutcome.logic ∨ (res TestOutcome.logic).outcome = TestOutcome.memory) ∧
     (res TestOutcome.pass).outcome = TestOutcome.pass) ∧
    (td.populated 1 = true ∧ (td.chan 0).testDue = true ∧ (td.chan 0).mayPause = true ∧ (td.chan 0).cell = some cB) ∧
    (inP.populated 1 = true ∧ (inP.chan 0).place = some (1, 0) ∧ (inP.chan 0).state = ChanState.testing ∧
     (inP.chan 0).draining = false ∧ (inP.chan 0).cell = some cS ∧ ((inP.die 1).cell 0).role = CellRole.hosting 0 ∧
     ((res TestOutcome.pass).outcome = TestOutcome.pass ∨ (res TestOutcome.pass).outcome = TestOutcome.repaired) ∧
     ((res TestOutcome.logic).outcome = TestOutcome.logic ∨ (res TestOutcome.logic).outcome = TestOutcome.memory) ∧
     inP.catchCell 1 (inP.pinless 0) = some (1, 80)) ∧
    (inPn.populated 1 = true ∧ (inPn.chan 0).place = some (1, 0) ∧ (inPn.chan 0).state = ChanState.testing ∧
     (inPn.chan 0).draining = false ∧ (inPn.chan 0).cell = some cS ∧ ((inPn.die 1).cell 0).role = CellRole.hosting 0 ∧
     ((res TestOutcome.memory).outcome = TestOutcome.logic ∨ (res TestOutcome.memory).outcome = TestOutcome.memory) ∧
     inPn.catchCell 1 (inPn.pinless 0) = none) ∧
    (rep.populated 1 = true ∧
     rep.hub.repairs =
        [{ type := 1, die := 1, unit := 3, memory := 4, spare := 9, address := 0, bit := 0, uptime := 0 : RepairRecord },
        { type := 2, die := 1, unit := 3, memory := 4, spare := 9, address := 0, bit := 0, uptime := 0 : RepairRecord }]
        ∧
     rep.hub.repairArea.length < 0x8000) :=
  ⟨⟨rfl, rfl, rfl, rfl, rfl, (by decide), rfl, rfl, (by decide), rfl, (by decide), rfl⟩,
    ⟨rfl, rfl, rfl, rfl⟩,
    ⟨rfl, rfl, rfl, rfl, rfl, rfl, rfl, (by decide)⟩,
    ⟨rfl, rfl⟩,
    ⟨rfl, rfl, rfl, rfl, rfl, (by decide), (by decide)⟩,
    ⟨rfl, (by decide), rfl, rfl⟩,
    ⟨rfl, (by decide), (by decide), (by decide), rfl⟩,
    ⟨rfl, (by decide), (by decide), (by decide), rfl⟩,
    ⟨rfl, rfl, rfl, rfl⟩,
    ⟨rfl, rfl, rfl, rfl, rfl, rfl, (by decide), (by decide), rfl⟩,
    ⟨rfl, rfl, rfl, rfl, rfl, rfl, (by decide), rfl⟩,
    ⟨rfl, rfl, (by decide)⟩⟩

end Testing

namespace Whole

/-- A part that is READY, with an instruction of channel 0's core and then a hub command waiting. -/
def busy : State := { demo (demoCell []) with pending := [.mov 0 3 (.imm 7), .d3hot] }

/-- That part with its signing key in the key store. -/
def keyed : State :=
  { busy with hub := { busy.hub with keys := { busy.hub.keys with signingKey := some [1], floor := 9 } } }

theorem witness_HalfCarryAndFlags : (5 : Nat) ≤ 5 ∧ (5 : Nat) ≤ 7 := by decide

theorem witness_RasterOperations : (7 : Nat) < 8 ∧ (0 : Nat) < 1 := by decide

theorem witness_StepRunsTheFront : State.reset.pending = [] ∧ (demo (demoCell [])).pending = [] := ⟨rfl, rfl⟩

theorem witness_ResetLeaves : (1 : Nat) ≤ 7 ∧ (7 : Nat) ≤ 7 ∧ (87 : Nat) < 88 := by decide

theorem witness_HubStaysLegal : State.reset.hub.Legal ∧ step State.reset = .next State.reset ∧ busy.hub.Legal ∧
    ∃ t, step busy = .next t :=
  ⟨by unfold Hub.Legal; decide, rfl, by unfold Hub.Legal; decide, _, rfl⟩

theorem witness_FloorIsNeverLowered : Instr.d3hot ≠ .vbatAndMainPowerRemoved ∧ keyed.hub.keys.signingKey.isSome = true ∧
    ∃ t, exec .d3hot keyed = .next t :=
  ⟨by decide, rfl, _, rfl⟩

theorem witness_ChannelsAreIsolated :
    cellOf (.mov 0 3 (.imm 7)) = some 0 ∧ ∃ t, exec (.mov 0 3 (.imm 7)) busy = .next t :=
  ⟨rfl, _, rfl⟩

theorem reset_shaped : State.reset.Shaped :=
  { moulds := by intro i h; rcases h with h | h <;> cases h
    queues := fun _ => rfl
    cells := by intro ch c h; cases h }

theorem witness_ShapeIsKept : State.reset.Shaped ∧ step State.reset = .next State.reset := ⟨reset_shaped, rfl⟩

end Whole

end Sys2Proof.Tests
end

section
/-! PROOFS. The Voleth programming model: an instruction that starts unpaced, and loads and stores. -/

namespace Sys2Proof.ProgrammingModel

open Sys2Proof.Machine

/-! ### An instruction on a channel, and what its attempt gives -/

/-- An instruction command of a running channel leaves the cell that its instruction leaves. -/
theorem next_of_runInstr {s : State} {ch : Nat} {c c' : Cell} {v : VInstr} {stop : Option Nat}
    (h : s.runsOn ch c) (hr : c.runInstr v stop = c') :
    (.next (s.cellEvent ch fun c => c.runInstr v stop) : Host.Outcome State Fault Refusal) =
      .next (s.becomes ch c') :=
  congrArg Host.Outcome.next (State.cellEvent_congr h.1 hr)

theorem slot_of_plain {c : Cell} {v : VInstr} (h : c.plain v) : c.core.slot = none := h.1.2.2.2.2.1

theorem lend_of_plain {c : Cell} {v : VInstr} (h : c.plain v) : c.core.lend ≠ c.core.pc := h.1.2.2.2.2.2.1

section
variable {c : Cell} {v : VInstr} {stop : Option Nat} (hx : c.executes = true) (hh : c.haltDue v = false)
  (hi : c.interruptDue = false) (hp : c.paced = false)
include hx hh hi hp

/-- An instruction that starts unpaced and completes. -/
theorem runInstr_of_done {d : Done} (ha : c.begun.attempt v stop = .done d) :
    c.runInstr v stop = c.begun.complete (c.core.pc + BitVec.ofNat 16 (c.core.fetchLen v)) d := by
  unfold Cell.runInstr
  simp only [hx, hh, hi, Cell.begin_, hp, not_true, Bool.false_eq_true, or_self, if_false, false_and]
  rw [show ({ c with core := { c.core with resumeAt := none, afterEntry := false, repaced := false } } : Cell) =
    c.begun from rfl, ha]
  rfl

/-- An instruction that starts unpaced and faults. -/
theorem runInstr_of_fault {cf : Cell} {vec cycles charge : Nat}
    (ha : c.begun.attempt v stop = .fault cf vec cycles charge) :
    c.runInstr v stop =
      ({ cf with core := { cf.core with busy := cf.core.busy + cycles } } : Cell).takeFault c.core.pc vec := by
  unfold Cell.runInstr
  simp only [hx, hh, hi, Cell.begin_, hp, not_true, Bool.false_eq_true, or_self, if_false, false_and]
  rw [show ({ c with core := { c.core with resumeAt := none, afterEntry := false, repaced := false } } : Cell) =
    c.begun from rfl, ha]

end

/-! ### Loads and stores (R69, R78, R81, R82) -/

section
variable (c : Cell) (a : Half) (d : Nat) (upd : Core → Core) (next : Half)

theorem runLoad_granted (h : c.refusal .read a = none) :
    runLoad c a d upd next = .seq (c.load a).2 ((upd (c.load a).2.core).setReg d (c.load a).1) next 2 := by
  simp only [runLoad, h]

theorem runStore_granted (v : Byte) (h : c.refusal .write a = none) :
    runStore c a v upd next = .seq (c.store a v) (upd (c.store a v).core) next 2 := by
  simp only [runStore, h]

theorem runLoadPair_granted (h : c.refusalN .read a 2 = none) :
    runLoadPair c a d upd next =
      .seq (c.loadPair a).2 ((upd (c.loadPair a).2.core).setPair d (c.loadPair a).1) next 3 := by
  simp only [runLoadPair, h]

theorem runStorePair_granted (v : Half) (h : c.refusalN .write a 2 = none) :
    runStorePair c a v upd next = .seq (c.storePair a v) (upd (c.storePair a v).core) next 3 := by
  simp only [runStorePair, h]

end

section
variable {c : Cell} {v : VInstr} {a next : Half} {d len : Nat} {upd : Core → Core}
  (hp : c.plain v) (hlen : c.core.fetchLen v = len) (hu : ∀ k, (upd k).lend = k.lend)
include hp hlen hu

/-- A plain instruction that loads a byte (LD, POP). -/
theorem runInstr_load
    (he : c.begun.effect v none (c.core.pc + BitVec.ofNat 16 len) =
      runLoad c.begun a d upd (c.core.pc + BitVec.ofNat 16 len))
    (hr : c.refusal .read a = none) (hl : (c.begun.load a).2.core.lend ≠ c.core.pc) :
    c.runInstr v none =
      { (c.begun.load a).2 with
        core := ((upd (c.begun.load a).2.core).setReg d (c.begun.load a).1).after c.core.pc len 2 } :=
  Cell.runInstr_seq hp hlen (he.trans (runLoad_granted c.begun a d upd _ hr)) (by simpa [hu] using hl)

/-- A plain instruction that stores a byte (ST, PUSH). -/
theorem runInstr_store {x : Byte}
    (he : c.begun.effect v none (c.core.pc + BitVec.ofNat 16 len) =
      runStore c.begun a x upd (c.core.pc + BitVec.ofNat 16 len))
    (hr : c.refusal .write a = none) (hl : (c.begun.store a x).core.lend ≠ c.core.pc) :
    c.runInstr v none =
      { c.begun.store a x with core := (upd (c.begun.store a x).core).after c.core.pc len 2 } :=
  Cell.runInstr_seq hp hlen (he.trans (runStore_granted c.begun a upd _ x hr)) (by simpa [hu] using hl)

/-- A plain instruction that loads a pair (LDW, POPW). -/
theorem runInstr_loadPair
    (he : c.begun.effect v none (c.core.pc + BitVec.ofNat 16 len) =
      runLoadPair c.begun a d upd (c.core.pc + BitVec.ofNat 16 len))
    (hr : c.refusalN .read a 2 = none) (hl : (c.begun.loadPair a).2.core.lend ≠ c.core.pc) :
    c.runInstr v none =
      { (c.begun.loadPair a).2 with
        core := ((upd (c.begun.loadPair a).2.core).setPair d (c.begun.loadPair a).1).after c.core.pc len 3 } :=
  Cell.runInstr_seq hp hlen
    (he.trans (runLoadPair_granted c.begun a d upd _ ((Cell.begun_refusalN c .read 2 a).trans hr)))
    (by simpa [hu] using hl)

/-- A plain instruction that stores a pair (STW, PUSHW). -/
theorem runInstr_storePair {x : Half}
    (he : c.begun.effect v none (c.core.pc + BitVec.ofNat 16 len) =
      runStorePair c.begun a x upd (c.core.pc + BitVec.ofNat 16 len))
    (hr : c.refusalN .write a 2 = none) (hl : (c.begun.storePair a x).core.lend ≠ c.core.pc) :
    c.runInstr v none =
      { c.begun.storePair a x with core := (upd (c.begun.storePair a x).core).after c.core.pc len 3 } :=
  Cell.runInstr_seq hp hlen
    (he.trans (runStorePair_granted c.begun a upd _ x ((Cell.begun_refusalN c .write 2 a).trans hr)))
    (by simpa [hu] using hl)

end

/-! What each memory form loads or stores. -/

section
variable (c : Cell) (m : MemOp) {f : BitVec 5} {b1 : Byte} {x : Nat} {e : Ea} (stop : Option Nat) (next : Half)

theorem effect_ld (hx : regOf5 f = some x) (he : c.core.ea m 1 next = some e) :
    c.effect (.ld f m) stop next = runLoad c e.addr x (·.updateBase e) next := by
  simp only [Cell.effect, hx, he, Option.getD_some]

theorem effect_st (hx : regOf5 f = some x) (he : c.core.ea m 1 next = some e) :
    c.effect (.st m f) stop next = runStore c e.addr (c.core.reg x) (·.updateBase e) next := by
  simp only [Cell.effect, hx, he, Option.getD_some]

theorem effect_ldw (hx : pairOf5 f = some x) (he : c.core.ea m 2 next = some e) :
    c.effect (.ldw f m) stop next = runLoadPair c e.addr x (·.updateBase e) next := by
  simp only [Cell.effect, hx, he, Option.getD_some]

theorem effect_stw (hx : pairOf5 f = some x) (he : c.core.ea m 2 next = some e) :
    c.effect (.stw m f) stop next = runStorePair c e.addr (c.core.pair x) (·.updateBase e) next := by
  simp only [Cell.effect, hx, he, Option.getD_some]

theorem effect_push (hx : regOf b1 = some x) :
    c.effect (.push b1) stop next =
      runStore c (c.core.sp - 1) (c.core.reg x) (·.setSp (c.core.sp - 1)) next := by
  simp only [Cell.effect, hx, Option.getD_some]

theorem effect_pop (hx : regOf b1 = some x) :
    c.effect (.pop b1) stop next = runLoad c c.core.sp x (·.setSp (c.core.sp + 1)) next := by
  simp only [Cell.effect, hx, Option.getD_some]

theorem effect_pushw (hx : pairOf b1 = some x) :
    c.effect (.pushw b1) stop next =
      runStorePair c (c.core.sp - 2) (c.core.pair x) (·.setSp (c.core.sp - 2)) next := by
  simp only [Cell.effect, hx, Option.getD_some]

theorem effect_popw (hx : pairOf b1 = some x) :
    c.effect (.popw b1) stop next = runLoadPair c c.core.sp x (·.setSp (c.core.sp + 2)) next := by
  simp only [Cell.effect, hx, Option.getD_some]

end

/-- Settles O8: each form is a load or a store of its byte or pair, and its update comes after the access. -/
theorem loadsAndStores : Obligations.LoadsAndStores := by
  unfold Obligations.LoadsAndStores
  intro s ch c h
  refine ⟨?ld, ?st, ?ldw, ?stw, ?push, ?pop, ?pushw, ?popw⟩
  case ld =>
    intro rd m d e hd he hr hp _ hl
    exact next_of_runInstr h
      (runInstr_load (upd := (·.updateBase e)) hp rfl (Core.updateBase_lend · e)
        (effect_ld c.begun m none _ hd he) hr hl)
  case st =>
    intro rs m x e hx he hr hp _ hl
    exact next_of_runInstr h
      (runInstr_store (upd := (·.updateBase e)) hp rfl (Core.updateBase_lend · e)
        (effect_st c.begun m none _ hx he) hr hl)
  case ldw =>
    intro pd m d e hd he hr hp _ hl
    exact next_of_runInstr h
      (runInstr_loadPair (upd := (·.updateBase e)) hp rfl (Core.updateBase_lend · e)
        (effect_ldw c.begun m none _ hd he) hr hl)
  case stw =>
    intro ps m x e hx he hr hp _ hl
    exact next_of_runInstr h
      (runInstr_storePair (upd := (·.updateBase e)) hp rfl (Core.updateBase_lend · e)
        (effect_stw c.begun m none _ hx he) hr hl)
  case push =>
    intro b1 x hx hr hp _ hl
    exact next_of_runInstr h
      (runInstr_store (upd := (·.setSp (c.begun.core.sp - 1))) hp rfl (Core.setSp_lend · _)
        (effect_push c.begun none _ hx) hr hl)
  case pop =>
    intro b1 d hd hr hp _ hl
    exact next_of_runInstr h
      (runInstr_load (upd := (·.setSp (c.begun.core.sp + 1))) hp rfl (Core.setSp_lend · _)
        (effect_pop c.begun none _ hd) hr hl)
  case pushw =>
    intro b1 x hx hr hp _ hl
    exact next_of_runInstr h
      (runInstr_storePair (upd := (·.setSp (c.begun.core.sp - 2))) hp rfl (Core.setSp_lend · _)
        (effect_pushw c.begun none _ hx) hr hl)
  case popw =>
    intro b1 d hd hr hp _ hl
    exact next_of_runInstr h
      (runInstr_loadPair (upd := (·.setSp (c.begun.core.sp + 2))) hp rfl (Core.setSp_lend · _)
        (effect_popw c.begun none _ hd) hr hl)

end Sys2Proof.ProgrammingModel
end

section
/-! PROOFS. The Voleth programming model: accesses to cell memory, and a customer opcode that adds. -/

namespace Sys2Proof.ProgrammingModel

open Sys2Proof.Machine

/-! ### Accesses to cell memory (R71, R72, R76) -/

section
variable {c : Cell} {a : Half} {p q : Nat} (hp : c.place a = .mem p)
include hp

theorem load_of_mem : c.load a = (c.mem.rd p, c) := by rw [Cell.load, hp]; rfl

theorem store_of_mem (v : Byte) : c.store a v = { c with mem := c.mem.wr p v } := by rw [Cell.store, hp]; rfl

theorem loadPair_of_mem (hq : c.place (a + 1) = .mem q) : c.loadPair a = (c.mem.rd q ++ c.mem.rd p, c) := by
  simp only [Cell.loadPair, load_of_mem hp, load_of_mem hq]

theorem storePair_of_mem (hq : c.place (a + 1) = .mem q) (v : Half) :
    c.storePair a v = { c with mem := (c.mem.wr p (v.setWidth 8)).wr q (v.extractLsb' 8 8) } := by
  have hq' : ({ c with mem := c.mem.wr p (v.setWidth 8) } : Cell).place (a + 1) = .mem q := hq
  rw [Cell.storePair, store_of_mem hp, store_of_mem hq']

end

/-- Two accesses that are granted one by one are granted together (R78). -/
theorem refusalN_two {c : Cell} {kind : Access} {a : Half} (h : c.refusal kind a = none)
    (h' : c.refusal kind (a + 1) = none) : c.refusalN kind a 2 = none := by
  simp only [Cell.refusalN, h, h']

/-- The cell after an instruction of `len` bytes and `cycles` cycles that leaves the memory `mem` and the core `k`. -/
def leaves (c : Cell) (len cycles : Nat) (mem : Bytes) (k : Core) : Cell :=
  { c with mem := mem, core := k.after c.core.pc len cycles }

section
variable {c : Cell} {v : VInstr} {a next : Half} {d len m n : Nat} {upd : Core → Core}
  (hp : c.plain v) (hlen : c.core.fetchLen v = len) (hu : ∀ k, (upd k).lend = k.lend) (hm : c.place a = .mem m)
include hp hlen hu hm

theorem runInstr_load_mem
    (he : c.begun.effect v none (c.core.pc + BitVec.ofNat 16 len) =
      runLoad c.begun a d upd (c.core.pc + BitVec.ofNat 16 len))
    (hr : c.refusal .read a = none) :
    c.runInstr v none = leaves c len 2 c.mem ((upd c.begun.core).setReg d (c.mem.rd m)) := by
  have hx : c.begun.load a = (c.mem.rd m, c.begun) := load_of_mem (c := c.begun) hm
  rw [runInstr_load hp hlen hu he hr (by rw [hx]; exact lend_of_plain (c := c) hp), hx]
  rfl

theorem runInstr_store_mem {x : Byte}
    (he : c.begun.effect v none (c.core.pc + BitVec.ofNat 16 len) =
      runStore c.begun a x upd (c.core.pc + BitVec.ofNat 16 len))
    (hr : c.refusal .write a = none) :
    c.runInstr v none = leaves c len 2 (c.mem.wr m x) (upd c.begun.core) := by
  have hx : c.begun.store a x = { c.begun with mem := c.mem.wr m x } := store_of_mem (c := c.begun) hm x
  rw [runInstr_store hp hlen hu he hr (by rw [hx]; exact lend_of_plain (c := c) hp), hx]
  rfl

theorem runInstr_loadPair_mem (hn : c.place (a + 1) = .mem n)
    (he : c.begun.effect v none (c.core.pc + BitVec.ofNat 16 len) =
      runLoadPair c.begun a d upd (c.core.pc + BitVec.ofNat 16 len))
    (hr : c.refusal .read a = none) (hr' : c.refusal .read (a + 1) = none) :
    c.runInstr v none = leaves c len 3 c.mem ((upd c.begun.core).setPair d (c.mem.rd n ++ c.mem.rd m)) := by
  have hx : c.begun.loadPair a = (c.mem.rd n ++ c.mem.rd m, c.begun) := loadPair_of_mem (c := c.begun) hm hn
  rw [runInstr_loadPair hp hlen hu he (refusalN_two hr hr') (by rw [hx]; exact lend_of_plain (c := c) hp), hx]
  rfl

theorem runInstr_storePair_mem (hn : c.place (a + 1) = .mem n) {x : Half}
    (he : c.begun.effect v none (c.core.pc + BitVec.ofNat 16 len) =
      runStorePair c.begun a x upd (c.core.pc + BitVec.ofNat 16 len))
    (hr : c.refusal .write a = none) (hr' : c.refusal .write (a + 1) = none) :
    c.runInstr v none =
      leaves c len 3 ((c.mem.wr m (x.setWidth 8)).wr n (x.extractLsb' 8 8)) (upd c.begun.core) := by
  have hx : c.begun.storePair a x =
      { c.begun with mem := (c.mem.wr m (x.setWidth 8)).wr n (x.extractLsb' 8 8) } :=
    storePair_of_mem (c := c.begun) hm hn x
  rw [runInstr_storePair hp hlen hu he (refusalN_two hr hr') (by rw [hx]; exact lend_of_plain (c := c) hp), hx]
  rfl

end

/-! ### A microcoded addition (R142, R146, R147) -/

/-- The microinstruction ADD d, a, b with F = 0 (R146). -/
def microAddWord (d a b : Nat) : Word := BitVec.ofNat 32 (d * 0x40000 + a * 0x2000 + b * 0x100)

section
variable {d a b : Nat} (hd : d < 24) (ha : a < 24) (hb : b < 24)
include hd ha hb

/-- A field of that microinstruction. -/
theorem microAddWord_field (lo len : Nat) :
    ((microAddWord d a b).extractLsb' lo len).toNat =
      (d * 0x40000 + a * 0x2000 + b * 0x100) / 2 ^ lo % 2 ^ len := by
  have hlt : d * 0x40000 + a * 0x2000 + b * 0x100 < 2 ^ 32 := by omega
  rw [microAddWord, BitVec.extractLsb'_toNat, BitVec.toNat_ofNat, Nat.mod_eq_of_lt hlt, Nat.shiftRight_eq_div_pow]

/-- A bit of that microinstruction. -/
theorem microAddWord_bit (i : Nat) :
    (microAddWord d a b).getLsbD i = decide ((d * 0x40000 + a * 0x2000 + b * 0x100) / 2 ^ i % 2 = 1) := by
  have hlt : d * 0x40000 + a * 0x2000 + b * 0x100 < 2 ^ 32 := by omega
  rw [microAddWord, BitVec.getLsbD, BitVec.toNat_ofNat, Nat.mod_eq_of_lt hlt, Nat.testBit_eq_decide_div_mod_eq]

/-- That microinstruction is an addition in class 0h. -/
theorem microStep_microAddWord (u : MicroState) (upc : Nat) (self next : Half) :
    microStep u upc (microAddWord d a b) self next = microAluStep u upc false 0 d a (some b) 0#8 false := by
  have field := microAddWord_field hd ha hb
  have bit := microAddWord_bit hd ha hb
  have hclass : ((microAddWord d a b).extractLsb' 28 4).toNat = 0 := by rw [field]; omega
  have hlow : ((microAddWord d a b).extractLsb' 0 7).toNat = 0 := by rw [field]; omega
  have hop : ((microAddWord d a b).extractLsb' 23 4).toNat = 0 := by rw [field]; omega
  have hfd : ((microAddWord d a b).extractLsb' 18 5).toNat = d := by rw [field]; omega
  have hfa : ((microAddWord d a b).extractLsb' 13 5).toNat = a := by rw [field]; omega
  have hfb : ((microAddWord d a b).extractLsb' 8 5).toNat = b := by rw [field]; omega
  have hwide : (microAddWord d a b).getLsbD 27 = false := by rw [bit, decide_eq_false_iff_not]; omega
  have hf : (microAddWord d a b).getLsbD 7 = false := by rw [bit, decide_eq_false_iff_not]; omega
  simp only [microStep, hclass, hlow, hop, hfd, hfa, hfb, hwide, hf, ne_eq, not_true, if_false]

/-- An addition of registers with F = 0 writes the sum in one cycle, and of the flags the micro flags only (R147). -/
theorem microAluStep_add (u : MicroState) (upc : Nat) (imm : Byte) :
    ∃ u' : MicroState, microAluStep u upc false 0 d a (some b) imm false = .goto u' ((upc + 1) % 1024) ∧
      u'.cell = { u.cell with core := u.cell.core.setReg d (u.cell.core.reg a + u.cell.core.reg b) } ∧
      u'.cycles = u.cycles + 1 ∧ u'.charge = u.charge := by
  have hw : microWritable d = true := by
    rw [microWritable, Bool.or_eq_true, decide_eq_true_eq]
    omega
  have hsum (x y : Byte) : (addc x y false).val = x + y := by simp [addc, BitVec.ofNat_add]
  refine ⟨_, by simp only [microAluStep, hw]; rfl, ?_, ?_, ?_⟩ <;>
    simp [aluOp, MicroState.finishAlu, MicroState.setFlags, MicroState.set, MicroState.get, hd, ha, hb, hsum]

end

/-- END ends the UOP at the next instruction, in one cycle (R147). -/
theorem microStep_end (u : MicroState) (upc : Nat) (self next : Half) :
    microStep u upc 0x70000000#32 self next = .ends { u with cycles := u.cycles + 1 } next false := rfl

/-- Microcode that goes on once and then ends the UOP. -/
theorem microRun_goto_ends {code : Bytes} {self next nx : Half} {n upc upc' : Nat} {u u' u'' : MicroState} {tr : Bool}
    (h1 : microStep u upc (BitVec.ofNat 32 (code.rdN (4 * upc) 4)) self next = .goto u' upc')
    (h2 : microStep u' upc' (BitVec.ofNat 32 (code.rdN (4 * upc') 4)) self next = .ends u'' nx tr) :
    microRun code self next (n + 2) u upc = (.ends u'' nx tr, upc') := by
  simp only [microRun, h1, h2]

/-- Microcode that is ADD d, a, b and then END. -/
theorem microRun_add_end {code : Bytes} {d a b entry : Nat} (self next : Half) (u : MicroState) (hd : d < 24)
    (ha : a < 24) (hb : b < 24) (hadd : code.rdN (4 * entry) 4 = d * 0x40000 + a * 0x2000 + b * 0x100)
    (hend : code.rdN (4 * ((entry + 1) % 1024)) 4 = 0x70000000) :
    ∃ u' : MicroState, microRun code self next 4096 u entry = (.ends u' next false, (entry + 1) % 1024) ∧
      u'.cell = { u.cell with core := u.cell.core.setReg d (u.cell.core.reg a + u.cell.core.reg b) } ∧
      u'.cycles = u.cycles + 2 ∧ u'.charge = u.charge := by
  obtain ⟨u', hstep, hcell, hcycles, hcharge⟩ := microAluStep_add hd ha hb u entry 0#8
  refine ⟨{ u' with cycles := u'.cycles + 1 }, microRun_goto_ends (n := 4094) (u' := u') ?_ ?_, hcell, ?_, hcharge⟩
  · rw [hadd]
    exact (microStep_microAddWord hd ha hb u entry self next).trans hstep
  · rw [hend]
    exact microStep_end u' _ self next
  · exact congrArg (· + 1) hcycles

/-- The cell that a UOP of `len` bytes starts on: the free values of its missing operand bytes are taken (R145). -/
def uopCell (c : Cell) (len : Nat) : Cell := { c with free := if len < 4 then c.free + 4 else c.free }

/-- The state in which the microcode of a UOP of `len` bytes starts (R142, R145). -/
def uopState (c : Cell) (len : Nat) (b1 b2 b3 : Byte) : MicroState :=
  let opb (i : Nat) (b : Byte) : Byte := if i < len then b else Config.unfetchedOperand (c.free + i)
  { cell := uopCell c len, map := c.io
    temps := Bytes.wr (Bytes.wr (Bytes.wr [] 0x1C (opb 1 b1)) 0x1D (opb 2 b2)) 0x1E (opb 3 b3)
    mn := false, mz := false, mc := false, mv := false, mret := 0, charge := 0, cycles := 1, wrote := false }

/-- A customer opcode whose microcode ends in END, ENDJ or ENDR. -/
theorem runUop_of_ends {c : Cell} {n upc : Nat} {b1 b2 b3 : Byte} {next nx : Half} {u : MicroState} {tr : Bool}
    (h : microRun c.core.microcode c.core.pc next 4096
      (uopState c (((c.core.decodeEntry n).extractLsb' 12 2).toNat + 1) b1 b2 b3)
      ((c.core.decodeEntry n).extractLsb' 0 10).toNat = (.ends u nx tr, upc)) :
    runUop c n b1 b2 b3 next =
      .done { cell := u.cell, next := nx, transfer := tr, cycles := u.cycles, charge := u.charge
              shadow := c.core.supervisor && !u.cell.core.supervisor } := by
  have hcell (len : Nat) : uopCell c len = if len < 4 then { c with free := c.free + 4 } else c := by
    unfold uopCell
    split <;> rfl
  unfold uopState at h
  rw [hcell] at h
  unfold runUop
  simp only [h]

/-- A customer opcode whose microcode is ADD d, a, b and then END. -/
theorem runUop_add_end {c : Cell} {n d a b entry : Nat} (b1 b2 b3 : Byte) (next : Half) (hd : d < 24) (ha : a < 24)
    (hb : b < 24) (hentry : ((c.core.decodeEntry n).extractLsb' 0 10).toNat = entry)
    (hadd : c.core.microcode.rdN (4 * entry) 4 = d * 0x40000 + a * 0x2000 + b * 0x100)
    (hend : c.core.microcode.rdN (4 * ((entry + 1) % 1024)) 4 = 0x70000000) :
    runUop c n b1 b2 b3 next =
      .seq (uopCell c (((c.core.decodeEntry n).extractLsb' 12 2).toNat + 1))
        (c.core.setReg d (c.core.reg a + c.core.reg b)) next 3 := by
  subst hentry
  obtain ⟨u, hrun, hcell, hcycles, hcharge⟩ := microRun_add_end c.core.pc next
    (uopState c (((c.core.decodeEntry n).extractLsb' 12 2).toNat + 1) b1 b2 b3) hd ha hb hadd hend
  have hshadow : (c.core.supervisor && !u.cell.core.supervisor) = false := by
    have hst : u.cell.core.status = c.core.status := by rw [hcell]; exact Core.setReg_status _ _ _
    simp [Core.supervisor, hst]
  rw [runUop_of_ends hrun, hshadow, hcell, hcycles, hcharge]
  rfl

/-- The bytes of a customer opcode that is enabled (R139). -/
theorem fetchLen_uop {k : Core} {n : BitVec 5} {b1 b2 b3 : Byte} (h : k.illegal (.uop n b1 b2 b3) = false) :
    k.fetchLen (.uop n b1 b2 b3) = ((k.decodeEntry n.toNat).extractLsb' 12 2).toNat + 1 := by
  have hen : (k.decodeEntry n.toNat).getLsbD 15 = true := by simpa [Core.illegal] using h
  simp only [Core.fetchLen, hen, if_true]

/-- Settles O59: the memory forms by what their accesses to cell memory are, the customer opcode by its two
microinstructions. -/
theorem memoryFormsAndUopsComplete : Obligations.MemoryFormsAndUopsComplete := by
  unfold Obligations.MemoryFormsAndUopsComplete
  intro s ch c h
  refine ⟨?bytes, ?pairs, ?byteStack, ?pairStack, ?uop⟩
  case bytes =>
    intro r m x p e hx he hm
    constructor
    · intro hp hr
      exact next_of_runInstr h (runInstr_load_mem (upd := (·.updateBase e)) hp rfl (Core.updateBase_lend · e) hm
        (effect_ld c.begun m none _ hx he) hr)
    · intro hp hr
      exact next_of_runInstr h (runInstr_store_mem (upd := (·.updateBase e)) hp rfl (Core.updateBase_lend · e) hm
        (effect_st c.begun m none _ hx he) hr)
  case pairs =>
    intro r m x p q e hx he hm hn
    constructor
    · intro hp hr hr'
      exact next_of_runInstr h (runInstr_loadPair_mem (upd := (·.updateBase e)) hp rfl (Core.updateBase_lend · e) hm
        hn (effect_ldw c.begun m none _ hx he) hr hr')
    · intro hp hr hr'
      exact next_of_runInstr h (runInstr_storePair_mem (upd := (·.updateBase e)) hp rfl (Core.updateBase_lend · e) hm
        hn (effect_stw c.begun m none _ hx he) hr hr')
  case byteStack =>
    intro b1 x p hx
    constructor
    · intro hp hm hr
      exact next_of_runInstr h (runInstr_store_mem (upd := (·.setSp (c.begun.core.sp - 1))) hp rfl
        (Core.setSp_lend · _) hm (effect_push c.begun none _ hx) hr)
    · intro hp hm hr
      exact next_of_runInstr h (runInstr_load_mem (upd := (·.setSp (c.begun.core.sp + 1))) hp rfl
        (Core.setSp_lend · _) hm (effect_pop c.begun none _ hx) hr)
  case pairStack =>
    intro b1 x p q hx
    constructor
    · intro hp hm hn hr hr'
      have hnext : c.begun.core.sp - 2 + 1 = c.begun.core.sp - 1 := by bv_omega
      exact next_of_runInstr h (runInstr_storePair_mem (upd := (·.setSp (c.begun.core.sp - 2))) hp rfl
        (Core.setSp_lend · _) hm (hnext ▸ hn) (effect_pushw c.begun none _ hx) hr (hnext ▸ hr'))
    · intro hp hm hn hr hr'
      exact next_of_runInstr h (runInstr_loadPair_mem (upd := (·.setSp (c.begun.core.sp + 2))) hp rfl
        (Core.setSp_lend · _) hm hn (effect_popw c.begun none _ hx) hr hr')
  case uop =>
    intro n b1 b2 b3 d a b hp hd ha hb e entry len hadd hend
    have hlend : (c.begun.core.setReg d (c.begun.core.reg a + c.begun.core.reg b)).lend ≠ c.core.pc := by
      rw [Core.setReg_lend]
      exact lend_of_plain (c := c) hp
    have ⟨_, hlegal, _⟩ := hp
    exact next_of_runInstr h (Cell.runInstr_seq hp (fetchLen_uop hlegal)
      (runUop_add_end b1 b2 b3 _ hd ha hb rfl hadd hend) hlend)

end Sys2Proof.ProgrammingModel
end

section
/-! PROOFS. The Voleth programming model: the window spill and fill, and faults that change nothing. -/

namespace Sys2Proof.ProgrammingModel

open Sys2Proof.Machine

/-! ### The window spill and fill (R63) -/

theorem runSpill_granted {c : Cell} (b1 : Byte) (next : Half)
    (h : c.refusalN .write (c.core.stackOf b1 - 12) 12 = none) :
    runSpill c b1 next =
      let c' := spillStores c (c.core.stackOf b1 - 12) c.core.baseIndex 12
      let k := c'.core.setStackOf b1 (c.core.stackOf b1 - 12)
      .seq c' { k with wres := k.wres - 1, wsaved := k.wsaved + 1 } next 13 := by
  simp only [runSpill, h]

theorem runFill_granted {c : Cell} (b1 : Byte) (next : Half) (h : c.refusalN .read (c.core.stackOf b1) 12 = none) :
    runFill c b1 next =
      let c' := fillLoads c (c.core.stackOf b1) ((c.core.baseIndex + 228) % 240) 12
      let k := c'.core.setStackOf b1 (c.core.stackOf b1 + 12)
      .seq c' { k with wres := k.wres + 1, wsaved := k.wsaved - 1 } next 13 := by
  simp only [runFill, h]

theorem setStackOf_lend (k : Core) (b1 : Byte) (x : Half) : (k.setStackOf b1 x).lend = k.lend := by
  unfold Core.setStackOf
  split <;> rfl

/-- Settles O10: a spill or a fill that is granted goes on after its twelve accesses. -/
theorem windowSpillAndFill : Obligations.WindowSpillAndFill := by
  unfold Obligations.WindowSpillAndFill
  intro s ch c b1 h
  constructor
  · intro hp hr _ hl
    exact next_of_runInstr h (Cell.runInstr_seq hp rfl
      (runSpill_granted b1 _ ((Cell.begun_refusalN c _ _ _).trans hr))
      (fun e => hl ((setStackOf_lend _ _ _).symm.trans e)))
  · intro hp hr _ hl
    exact next_of_runInstr h (Cell.runInstr_seq hp rfl
      (runFill_granted b1 _ ((Cell.begun_refusalN c _ _ _).trans hr))
      (fun e => hl ((setStackOf_lend _ _ _).symm.trans e)))

/-! ### Faults that leave the instruction undone (R79, R87, R114, R116) -/

/-- A fault between the delay slot and LEND enters through its vector, with the vector as its cause. -/
theorem takeFault_enter {c : Cell} {pc : Half} (vec : Nat) (hs : c.core.slot = none) (hl : c.core.lend ≠ pc) :
    c.takeFault pc vec = c.enter pc vec (BitVec.ofNat 8 vec) := by
  simp [Cell.takeFault, hs, hl.symm]

/-- The cell from which an instruction that changes nothing enters its exception: its one cycle is busy. -/
def undone (c : Cell) : Cell := { c with core := { c.begun.core with busy := c.core.busy + 1 } }

section
variable {c : Cell} {v : VInstr} {stop : Option Nat}

theorem runInstr_of_refuse {vec : Nat} (h : c.reaches v) (ha : c.begun.attempt v stop = .refuse c.begun vec) :
    c.runInstr v stop = (undone c).enter c.core.pc vec (BitVec.ofNat 8 vec) := by
  obtain ⟨hx, hh, hi, hp, hs, hl, -⟩ := h
  rw [runInstr_of_fault hx hh hi hp ha]
  exact takeFault_enter vec hs hl

theorem attempt_of_illegal (h : c.reaches v) (hi : c.core.illegal v = true) :
    c.begun.attempt v stop = .refuse c.begun 1 := by
  obtain ⟨-, -, -, -, -, -, hf⟩ := h
  have hf' : c.begun.refusalN .fetch c.begun.core.pc (c.begun.core.fetchLen v) = none :=
    (Cell.begun_refusalN c _ _ _).trans hf
  simp only [Cell.attempt, hf', Cell.begun_illegal, hi, if_true]

theorem attempt_of_privileged (h : c.reaches v) (hi : c.core.illegal v = false) (hv : supervisorOnly v = true)
    (hu : c.core.supervisor = false) : c.begun.attempt v stop = .refuse c.begun 2 := by
  obtain ⟨-, -, -, -, -, -, hf⟩ := h
  have hf' : c.begun.refusalN .fetch c.begun.core.pc (c.begun.core.fetchLen v) = none :=
    (Cell.begun_refusalN c _ _ _).trans hf
  have hu' : c.begun.core.supervisor = false := hu
  simp [Cell.attempt, hf', Cell.begun_illegal, hi, hv, hu']

theorem attempt_of_plain (h : c.plain v) :
    c.begun.attempt v stop = c.begun.effect v stop (c.core.pc + BitVec.ofNat 16 (c.core.fetchLen v)) := by
  obtain ⟨⟨-, -, -, -, -, -, hf⟩, hi, hv, hb⟩ := h
  have hf' : c.begun.refusalN .fetch c.begun.core.pc (c.begun.core.fetchLen v) = none :=
    (Cell.begun_refusalN c _ _ _).trans hf
  have hv' : ¬ (supervisorOnly v = true ∧ ¬ c.begun.core.supervisor = true) := fun ⟨hs, hn⟩ => hn (hv hs)
  simp only [Cell.attempt, hf', Cell.begun_illegal, hi, Cell.begun_badContext, hb, hv', Bool.false_eq_true, if_false]
  rfl

theorem runInstr_illegal (h : c.reaches v) (hi : c.core.illegal v = true) :
    c.runInstr v stop = (undone c).enter c.core.pc 1 1#8 :=
  runInstr_of_refuse h (attempt_of_illegal h hi)

theorem runInstr_privileged (hu : c.core.supervisor = false) (hi : c.core.illegal v = false)
    (hv : supervisorOnly v = true) (h : c.reaches v) : c.runInstr v stop = (undone c).enter c.core.pc 2 2#8 :=
  runInstr_of_refuse h (attempt_of_privileged h hi hv hu)

end

/-- A stack selector of 0 or 1 is no reserved field (R63). -/
theorem stack_field_legal (k : Core) {b : Byte} (hb : b.toNat < 2) :
    k.illegal (.spillw b) = false ∧ k.illegal (.fillw b) = false := by
  have : ¬ 2 ≤ b.toNat := by omega
  simp [Core.illegal, this]

theorem runCall_overflow {c : Cell} (dst : JumpDst) (next : Half) (h : 18 ≤ c.core.wres) :
    runCall c dst next = .refuse c 5 := by
  simp only [runCall, h, if_true]

theorem effect_ret_underflow {c : Cell} (stop : Option Nat) (next : Half) (h : c.core.wres ≤ 1) :
    c.effect .ret stop next = .refuse c 6 := by
  simp only [Cell.effect, h, if_true]

/-- Settles O13: the checks of R116 in their order, and the window checks of CALL and RET. -/
theorem faultsChangeNothing : Obligations.FaultsChangeNothing := by
  unfold Obligations.FaultsChangeNothing
  intro s ch c h faulted
  refine ⟨?reserved, ?illegal, ?privileged, ?overflow, ?underflow⟩
  case reserved =>
    intro op b1 b2 b3 hr hi
    exact next_of_runInstr h (runInstr_illegal hr hi)
  case illegal =>
    intro v hr hi
    exact runInstr_illegal hr hi
  case privileged =>
    intro hu
    refine ⟨?_, ?_, ?_, ?_, ?_, ?_, ?_⟩
    · exact fun hr => next_of_runInstr h (runInstr_privileged hu rfl rfl hr)
    · exact fun hr => next_of_runInstr h (runInstr_privileged hu rfl rfl hr)
    · exact fun hr => next_of_runInstr h (runInstr_privileged hu rfl rfl hr)
    · exact fun hr => next_of_runInstr h (runInstr_privileged hu rfl rfl hr)
    · exact fun hr => next_of_runInstr h (runInstr_privileged hu rfl rfl hr)
    · exact fun b hb hr => next_of_runInstr h (runInstr_privileged hu (stack_field_legal _ hb).1 rfl hr)
    · exact fun b hb hr => next_of_runInstr h (runInstr_privileged hu (stack_field_legal _ hb).2 rfl hr)
  case overflow =>
    intro dst hw hp
    exact next_of_runInstr h
      (runInstr_of_refuse hp.1 ((attempt_of_plain hp).trans (runCall_overflow (c := c.begun) dst _ hw)))
  case underflow =>
    intro hw hp
    exact next_of_runInstr h
      (runInstr_of_refuse hp.1 ((attempt_of_plain hp).trans (effect_ret_underflow (c := c.begun) none _ hw)))

end Sys2Proof.ProgrammingModel
end

section
/-! PROOFS. The Voleth programming model: jumps and their delay slots, branches, and the hardware loop. -/

namespace Sys2Proof.ProgrammingModel

open Sys2Proof.Machine

/-! ### Jumps and their delay slots (R60, R100) -/

section
variable {c : Cell} {v : VInstr} {len : Nat} {k : Core} {t : Half} (hp : c.plain v) (hlen : c.core.fetchLen v = len)
include hp hlen

/-- A plain instruction that jumps opens its delay slot. -/
theorem runInstr_jump {kind : JumpKind}
    (he : c.begun.effect v none (c.core.pc + BitVec.ofNat 16 len) =
      .done { cell := { c.begun with core := k }, next := t, slot := some kind, cycles := 2 }) :
    c.runInstr v none =
      { c with core :=
        { k.after c.core.pc len 2 with slot := some { target := t, jumpPc := c.core.pc, kind := kind } } } := by
  rw [Cell.runInstr_plain hp, hlen, he]
  rfl

/-- A plain instruction that branches goes on at its target, with no loop action. -/
theorem runInstr_transfer {cycles : Nat}
    (he : c.begun.effect v none (c.core.pc + BitVec.ofNat 16 len) =
      .done { cell := c.begun, next := t, transfer := true, cycles := cycles }) :
    c.runInstr v none = { c with core := { c.begun.core.after c.core.pc len cycles with pc := t } } := by
  have hs : c.begun.core.slot = none := slot_of_plain (c := c) hp
  rw [Cell.runInstr_plain hp, hlen, he]
  simp only [Cell.complete, Core.after, hs, Bool.false_eq_true, if_false, if_true]
  rfl

end

/-- CALL outside the reserve window (R60, R61). -/
theorem runCall_granted {c : Cell} (dst : JumpDst) (next : Half) (h : c.core.wres < 18) :
    runCall c dst next =
      .done { cell := { c with core := (c.core.setPair 22 (next + BitVec.ofNat 16 (c.slotLen next))).windowUp }
              next := c.core.jumpTarget dst next, slot := some .call, cycles := 2 } := by
  simp only [runCall, Nat.not_le.mpr h, if_false]

/-- RET from an inner window (R60, R62). -/
theorem effect_ret_granted {c : Cell} (stop : Option Nat) (next : Half) (h : 1 < c.core.wres) :
    c.effect .ret stop next = .done { cell := c, next := c.core.pair 10, slot := some .ret, cycles := 2 } := by
  simp only [Cell.effect, Nat.not_le.mpr h, if_false]

theorem jumpTarget_pair {k : Core} {b1 : Byte} {r : Nat} (next : Half) (h : pairOf b1 = some r) :
    k.jumpTarget (.pair b1) next = k.pair r := by
  simp only [Core.jumpTarget, h, Option.getD_some]

/-- The context bars a NOP in one place only: in a delay slot at LEND (R105, R116). -/
theorem badContext_nop (k : Core) : k.badContext .nop = (k.looping && k.pc == k.lend && k.slot.isSome) := by
  have hcases : k.badContext .nop =
      ((k.slot.isSome && false) || (k.looping && k.pc == k.lend && (false || k.slot.isSome)) || false) := rfl
  rw [hcases, Bool.and_false, Bool.false_or, Bool.false_or, Bool.or_false]

/-- A NOP whose byte can be fetched and whose context does not bar it. -/
theorem attempt_nop {c : Cell} (hf : c.refusal .fetch c.core.pc = none) (hb : c.core.badContext .nop = false) :
    c.begun.attempt .nop none = .done { cell := c.begun, next := c.core.pc + 1, cycles := 1 } := by
  have hf' : c.begun.refusalN .fetch c.begun.core.pc 1 = none := by
    rw [Cell.begun_refusalN]
    simp only [Cell.refusalN, show c.refusal .fetch c.begun.core.pc = none from hf]
  have hb' : c.begun.core.badContext .nop = false := hb
  simp only [Cell.attempt, Core.fetchLen, hf', Core.illegal, supervisorOnly, hb', Bool.false_eq_true, false_and,
    if_false]
  rfl

/-- In a delay slot neither a debug halt nor an interrupt comes (R118, R134). -/
theorem nothing_due_in_slot {c : Cell} {t : Slot} (v : VInstr) (h : c.core.slot = some t) :
    c.haltDue v = false ∧ c.interruptDue = false := by
  simp [Cell.haltDue, Core.haltsHere, Cell.interruptDue, h]

/-- A NOP in a delay slot ends at the target, and after a RET with the window moved back. -/
theorem runInstr_nop_in_slot {c : Cell} {t : Slot} (hs : c.core.slot = some t) (hx : c.executes = true)
    (hp : c.paced = false) (hl : ¬ (c.core.looping = true ∧ c.core.pc = c.core.lend))
    (hf : c.refusal .fetch c.core.pc = none) :
    c.runInstr .nop none =
      { c with core := { (if t.kind = .ret then c.begun.core.windowDown else c.begun.core) with
          slot := none, pc := t.target, shadow := false, busy := c.begun.core.busy + 1 } } := by
  obtain ⟨hh, hi⟩ := nothing_due_in_slot .nop hs
  have hl' : (c.core.looping && c.core.pc == c.core.lend) = false := by
    rwa [Bool.eq_false_iff, ne_eq, Bool.and_eq_true, beq_iff_eq]
  have hb : c.core.badContext .nop = false := by rw [badContext_nop, hl', Bool.false_and]
  have hs' : c.begun.core.slot = some t := hs
  rw [runInstr_of_done hx hh hi hp (attempt_nop hf hb)]
  simp only [Cell.complete, hs', Bool.false_eq_true, if_false]
  split <;> rfl

/-! ### Branches (R102) -/

/-- The condition of a branch, by the number `i` of its code. -/
theorem condHolds_eq_table {cond : BitVec 4} {i : Nat} (hi : cond.toNat = i) (n v c z : Bool) :
    condHolds cond n v c z =
      [true, false, z, !z, c, !c, n, !n, v, !v, !c && !z, c || z, n == v, n != v, !z && (n == v),
        z || (n != v)].getD i false := by
  have hlt : i < 16 := hi ▸ cond.isLt
  unfold condHolds
  rw [hi]
  match i, hlt with
  | 0, _ | 1, _ | 2, _ | 3, _ | 4, _ | 5, _ | 6, _ | 7, _ | 8, _ | 9, _ | 10, _ | 11, _ | 12, _ | 13, _ | 14, _
  | 15, _ => rfl
  | _ + 16, hbig => exact absurd hbig (by omega)

/-- The condition code of a long branch stands in the upper half of its byte 1. -/
theorem upper_nibble_toNat (b : Byte) : (b.extractLsb' 4 4).toNat = b.toNat / 16 := by
  rw [BitVec.extractLsb'_toNat, Nat.shiftRight_eq_div_pow]
  omega

section
variable {c : Cell} {cond : BitVec 4} {t : Bool} (stop : Option Nat) (next : Half)

theorem effect_bcc (d : Byte)
    (ht : condHolds cond c.core.flagN c.core.flagV c.core.flagC c.core.flagZ = t) :
    c.effect (.bcc cond d) stop next =
      .done { cell := c, next := if t then next + d.signExtend 16 else next, transfer := t
              cycles := if t then 2 else 1 } := by
  subst ht
  rfl

theorem effect_bccL {b1 : Byte} (d : Half)
    (ht : condHolds (b1.extractLsb' 4 4) c.core.flagN c.core.flagV c.core.flagC c.core.flagZ = t) :
    c.effect (.bccL b1 d) stop next =
      .done { cell := c, next := if t then next + d else next, transfer := t, cycles := if t then 2 else 1 } := by
  subst ht
  rfl

end

/-! ### The hardware loop (R103, R104) -/

/-- LOOP puts LEND past itself. -/
theorem loop_end_ne_start (pc : Half) (u8 : Byte) {len : Nat} (h : 0 < len) (h' : len ≤ 4) :
    pc + BitVec.ofNat 16 len + u8.setWidth 16 ≠ pc := by
  intro heq
  have := congrArg BitVec.toNat heq
  simp only [BitVec.toNat_add, BitVec.toNat_ofNat, BitVec.toNat_setWidth] at this
  omega

section
variable {k : Core} {at_ : Half} (next : Half) (h : k.looping = true) (hat : at_ = k.lend)
include h hat

theorem loopAction_back (hn : k.lcnt ≠ 1#16) :
    loopAction k at_ next = ({ k with lcnt := k.lcnt - 1 }, k.lstart) := by
  have : k.lcnt - 1 ≠ 0#16 := by bv_omega
  simp only [loopAction, h, hat, and_self, if_true, this, if_false]

theorem loopAction_on (hn : k.lcnt = 1#16) :
    loopAction k at_ next = ({ k with lcnt := 0#16, status := k.status &&& 0xDF#8 }, next) := by
  simp [loopAction, h, hat, hn]

end

/-- A NOP at LEND with LP = 1 takes the loop action (R104). -/
theorem runInstr_nop_at_end {c : Cell} {k : Core} {next : Half} (hx : c.executes = true)
    (hh : c.haltDue .nop = false) (hi : c.interruptDue = false) (hp : c.paced = false) (hs : c.core.slot = none)
    (hf : c.refusal .fetch c.core.pc = none)
    (ha : loopAction { c.begun.core with shadow := false, busy := c.begun.core.busy + 1 } c.core.pc (c.core.pc + 1) =
      (k, next)) :
    c.runInstr .nop none = { c with core := { k with pc := next } } := by
  have hb : c.core.badContext .nop = false := by rw [badContext_nop, hs, Option.isSome_none, Bool.and_false]
  rw [runInstr_of_done hx hh hi hp (attempt_nop hf hb)]
  simp only [Cell.complete, Bool.false_eq_true, if_false]
  split
  · rename_i t ht
    exact absurd (hs.symm.trans ht) (Option.some_ne_none t).symm
  · exact congrArg (fun r : Core × Half => ({ c with core := { r.1 with pc := r.2 } } : Cell)) ha

/-- Settles O9: jumps by the slot that they open, branches by their condition, LOOP by its registers, and a NOP in the
slot or at LEND by the instruction's end. -/
theorem jumpsBranchesAndLoops : Obligations.JumpsBranchesAndLoops := by
  unfold Obligations.JumpsBranchesAndLoops
  refine ⟨?jumps, ?branches, ?loops⟩
  case jumps =>
    intro s ch c h
    refine ⟨?_, ?_, ?_, ?_, ?_, ?_, ?_, ?_⟩
    · exact fun d hp => next_of_runInstr h (runInstr_jump hp rfl rfl)
    · intro b1 r hr hp
      have ht := jumpTarget_pair (k := c.begun.core) (c.core.pc + 2#16) hr
      exact next_of_runInstr h (runInstr_jump hp rfl (by rw [← ht]; rfl))
    · exact fun a hp => next_of_runInstr h (runInstr_jump hp rfl rfl)
    · exact fun d hw hp => next_of_runInstr h (runInstr_jump hp rfl (runCall_granted (c := c.begun) _ _ hw))
    · intro b1 r hr hw hp
      have ht := jumpTarget_pair (k := c.begun.core) (c.core.pc + 2#16) hr
      exact next_of_runInstr h (runInstr_jump hp rfl (by rw [← ht]; exact runCall_granted (c := c.begun) _ _ hw))
    · exact fun a hw hp => next_of_runInstr h (runInstr_jump hp rfl (runCall_granted (c := c.begun) _ _ hw))
    · exact fun hw hp => next_of_runInstr h (runInstr_jump hp rfl (effect_ret_granted (c := c.begun) none _ hw))
    · exact fun t hs hx hu hl hf => next_of_runInstr h (runInstr_nop_in_slot hs hx hu hl hf)
  case branches =>
    intro s ch c h
    refine ⟨?_, ?_, ?_, ?_⟩
    · intro cond d hp ht
      have ht' := (condHolds_eq_table rfl _ _ _ _).trans ht
      exact next_of_runInstr h (runInstr_transfer hp rfl (effect_bcc none _ d ht'))
    · intro cond d hp ht
      have ht' := (condHolds_eq_table rfl _ _ _ _).trans ht
      exact next_of_runInstr h (Cell.runInstr_did (f := id) hp rfl (effect_bcc none _ d ht') rfl)
    · intro b1 d hp ht
      have ht' := (condHolds_eq_table (upper_nibble_toNat b1) _ _ _ _).trans ht
      exact next_of_runInstr h (runInstr_transfer hp rfl (effect_bccL none _ d ht'))
    · intro b1 d hp ht
      have ht' := (condHolds_eq_table (upper_nibble_toNat b1) _ _ _ _).trans ht
      exact next_of_runInstr h (Cell.runInstr_did (f := id) hp rfl (effect_bccL none _ d ht') rfl)
  case loops =>
    intro s ch c h
    refine ⟨?_, ?_, ?_⟩
    · exact fun n u8 hp => next_of_runInstr h
        (Cell.runInstr_seq hp rfl rfl (loop_end_ne_start c.core.pc u8 (by decide) (by decide)))
    · intro b1 u8 r hr hp
      exact next_of_runInstr h (Cell.runInstr_seq hp rfl (by simp only [Cell.effect, hr, Option.getD_some]; rfl)
        (loop_end_ne_start c.core.pc u8 (by decide) (by decide)))
    · intro hx hh hi hp hs hf hlp hat
      constructor
      · intro hn
        exact next_of_runInstr h (runInstr_nop_at_end hx hh hi hp hs hf (loopAction_back _ hlp hat.symm hn))
      · intro hn
        exact next_of_runInstr h (runInstr_nop_at_end hx hh hi hp hs hf (loopAction_on _ hlp hat.symm hn))

end Sys2Proof.ProgrammingModel
end

section
/-! PROOFS. Customer opcodes: how a UOP ends, and what it leaves. -/

namespace Sys2Proof.DecodeAndPace

open Sys2Proof.Machine Sys2Proof.ProgrammingModel

/-- A plain instruction that completes with no delay slot, no trap and no loop that ends at it goes on where it says. -/
theorem runInstr_completes {c : Cell} {v : VInstr} {len : Nat} {d : Done} (hp : c.plain v)
    (hlen : c.core.fetchLen v = len)
    (he : c.begun.effect v none (c.core.pc + BitVec.ofNat 16 len) = .done d)
    (hslot : d.slot = none) (hpart : d.partway = false) (htrap : d.trap = none)
    (hlend : d.cell.core.lend ≠ c.core.pc) :
    c.runInstr v none =
      { d.cell with core := { d.cell.core with
          pc := d.next, shadow := d.shadow, busy := d.cell.core.busy + d.cycles } } := by
  have hs : c.begun.core.slot = none := slot_of_plain (c := c) hp
  have hn : ¬ (c.begun.core.pc = d.cell.core.lend) := fun e => hlend e.symm
  rw [Cell.runInstr_plain hp, hlen, he]
  simp only [Cell.complete, hslot, hpart, htrap, hs, loopAction, hn, and_false, Bool.false_eq_true, if_false]
  split <;> rfl

/-- A UOP opens no delay slot, and none stops partway (R143). -/
theorem runUop_slot_partway {c : Cell} {n : Nat} {b1 b2 b3 : Byte} {next : Half} {d : Done}
    (h : runUop c n b1 b2 b3 next = .done d) : d.slot = none ∧ d.partway = false := by
  unfold runUop at h
  dsimp only at h
  split at h
  case h_1 =>
    obtain rfl := Ran.done.inj h
    exact ⟨rfl, rfl⟩
  case h_2 =>
    obtain rfl := Ran.done.inj h
    exact ⟨rfl, rfl⟩
  case h_3 =>
    split at h
    · obtain rfl := Ran.done.inj h
      exact ⟨rfl, rfl⟩
    · exact absurd h (by simp)

/-- Microcode that begins with END ends there. -/
theorem microRun_end {code : Bytes} {upc : Nat} (self next : Half) (fuel : Nat) (u : MicroState)
    (h : code.rdN (4 * upc) 4 = 0x70000000) :
    microRun code self next (fuel + 1) u upc = (.ends { u with cycles := u.cycles + 1 } next false, upc) := by
  simp only [microRun, h, microStep_end]

/-- A customer opcode whose microcode begins with END goes on at the next instruction in two cycles. -/
theorem runUop_end {c : Cell} {n : Nat} (b1 b2 b3 : Byte) (next : Half)
    (h : c.core.microcode.rdN (4 * ((c.core.decodeEntry n).extractLsb' 0 10).toNat) 4 = 0x70000000) :
    runUop c n b1 b2 b3 next =
      .seq (uopCell c (((c.core.decodeEntry n).extractLsb' 12 2).toNat + 1)) c.core next 2 := by
  rw [runUop_of_ends (microRun_end c.core.pc next 4095 _ h)]
  have hshadow : (c.core.supervisor && !c.core.supervisor) = false := Bool.and_not_self _
  simp only [uopState, uopCell, hshadow]
  rfl

/-- Settles O14: a UOP that completes goes on where its microcode says, and END alone falls through. -/
theorem customerOpcodesRun : Obligations.CustomerOpcodesRun := by
  unfold Obligations.CustomerOpcodesRun
  intro s ch c n b1 b2 b3 h hp
  have ⟨_, hlegal, _⟩ := hp
  have hlen := fetchLen_uop hlegal
  constructor
  case left =>
    intro d hrun htrap hlend
    obtain ⟨hslot, hpart⟩ := runUop_slot_partway hrun
    exact next_of_runInstr h (runInstr_completes hp hlen hrun hslot hpart htrap hlend)
  case right =>
    intro hend
    exact next_of_runInstr h
      (Cell.runInstr_seq hp hlen (runUop_end (c := c.begun) b1 b2 b3 _ hend) (lend_of_plain (c := c) hp))

end Sys2Proof.DecodeAndPace
end

section
/-! PROOFS. The registers of the decode table, the microcode, the pace table and the pace. -/

namespace Sys2Proof.DecodeAndPace

open Sys2Proof.Machine

/-! ### Where the registers lie (R139, R156) -/

/-- The top byte of DT_ENTRY. -/
def dtEntryTop : IoLoc := { reg := ⟨0xE042, 2, 1, 1, 0xB3FF, 0, 0, .imm, true, true⟩, start := 0xE042, off := 1 }

/-- A byte of UC_DATA. -/
def ucDataByte (off : Nat) : IoLoc :=
  { reg := ⟨0xE046, 4, 1, 1, 0xFFFFFFFF, 0, 0, .imm, true, true⟩, start := 0xE046, off := off }

/-- A register of one byte that is written through no hold, `rw` being the bits that a write sets. -/
def byteReg (a rw w1s : Nat) : IoLoc := { reg := ⟨a, 1, 1, 1, rw, 0, w1s, .imm, false, false⟩, start := a, off := 0 }

@[simp] theorem byteReg_start (a rw w1s : Nat) : (byteReg a rw w1s).start = a := rfl

theorem locate_dtEntryTop : locate 0xE043 = some dtEntryTop := rfl
theorem locate_ucData0 : locate 0xE046 = some (ucDataByte 0) := rfl
theorem locate_ucData1 : locate 0xE047 = some (ucDataByte 1) := rfl
theorem locate_ucData2 : locate 0xE048 = some (ucDataByte 2) := rfl
theorem locate_ucData3 : locate 0xE049 = some (ucDataByte 3) := rfl
theorem locate_ucCtl : locate 0xE040 = some (byteReg 0xE040 0 0x80) := rfl
theorem locate_paceCtl : locate 0xE080 = some (byteReg 0xE080 1 0) := rfl
theorem locate_paceNum : locate 0xE082 = some (byteReg 0xE082 0xFF 0) := rfl
theorem locate_paceDen : locate 0xE083 = some (byteReg 0xE083 0xFF 0) := rfl
theorem locate_ptData : locate 0xE097 = some (byteReg 0xE097 0xFF 0) := rfl

/-! ### Accesses to the registers -/

/-- A lower byte as a write of the register's top byte takes it: as held, or else as it is now (R500). -/
def heldByte (c : Cell) (a : Nat) (now : Byte) : Byte :=
  if c.holds.rd (2 * a + 1) = 0#8 then now else c.holds.rd (2 * a)

section
variable (c : Cell) (v : Byte)

/-- A write below 0E100h is one of the core's registers. -/
theorem ioStore_core {a : Nat} {l : IoLoc} (hl : locate a = some l) (ha : a < 0xE100) :
    c.ioStore a v = c.storeCore l a v := by
  have hdma : ¬ (0xE500 ≤ a ∧ a < 0xE600) := by omega
  have hblit : ¬ (0xE600 ≤ a ∧ a < 0xE700) := by omega
  simp only [Cell.ioStore, Cell.ioStoreBase, hl, ha, hdma, hblit, if_true, if_false]

/-- The entry's low byte as DT_ENTRY shows it. -/
theorem liveByte_dtEntry :
    c.liveByte 0xE042 = some (c.core.decodeTable.rd (2 * ((c.io.rd 0xE041).toNat % 32))) := rfl

/-- A byte of the microcode word as UC_DATA shows it. -/
theorem liveByte_ucData {i : Nat} (hi : i < 4) :
    c.liveByte (0xE046 + i) = some (c.core.microcode.rd (4 * (c.io.rdN 0xE044 2 % 1024) + i)) := by
  have h1 : 0xE046 + i < 0xE100 := by omega
  have h2 : ¬ (0xE046 + i = 0xE042 ∨ 0xE046 + i = 0xE043) := by omega
  have h3 : 0xE046 ≤ 0xE046 + i ∧ 0xE046 + i < 0xE04A := by omega
  simp only [Cell.liveByte, Cell.coreByte, h1, h2, h3, and_self, if_true, if_false, Nat.add_sub_cancel_left]

/-- While LOCK is 1 a write of a table or of the pace's rate is ignored (R139, R140). -/
theorem ioStore_locked {l : IoLoc} {a : Nat} (hlock : c.io.bit 0xE040 7 = true) (hl : locate a = some l)
    (ha : a < 0xE100) (hne : a ≠ 0xE040)
    (hreg : l.start = 0xE042 ∨ l.start = 0xE046 ∨ (0xE082 ≤ a ∧ a ≤ 0xE084) ∨ a = 0xE097) :
    c.ioStore a v = c := by
  rw [ioStore_core c v hl ha]
  simp only [Cell.storeCore, hlock, hne, hreg, and_self, if_true, if_false]

/-- A byte written to a register of which a write sets every bit. -/
theorem plainWrite_whole (a : Nat) :
    c.plainWrite (byteReg a 0xFF 0) a v = { c with io := c.io.wr a v } := by
  have hall : maskByte 0xFF 0 = BitVec.allOnes 8 := by decide
  have hnone : maskByte 0 0 = 0#8 := by decide
  simp only [Cell.plainWrite, byteReg, hall, hnone, BitVec.and_zero, BitVec.not_zero, BitVec.and_allOnes,
    BitVec.not_allOnes, BitVec.zero_or]

end

/-- A rate of R149 is not refused. -/
theorem paceRate_allowed {num den : Byte} (hnum : num ≠ 0#8) (hle : num.toNat ≤ den.toNat) :
    ¬ (num.toNat = 0 ∨ den.toNat < num.toNat) := by
  rintro (h0 | hlt)
  · exact hnum (BitVec.eq_of_toNat_eq h0)
  · omega

/-! ### Writes while LOCK is 0 -/

section
variable {c : Cell} (v : Byte) (hlock : c.io.bit 0xE040 7 = false)
include hlock

/-- A write of DT_ENTRY's top byte writes the entry (R140, R500). -/
theorem ioStore_dtEntry :
    c.ioStore 0xE043 v =
      let dt := 2 * ((c.io.rd 0xE041).toNat % 32)
      let entry := (heldByte c 0xE042 (c.core.decodeTable.rd dt)).toNat + 256 * v.toNat
      { c with
        holds := (c.holds.wr 0x1C084 0#8).wr 0x1C085 0#8
        core := { c.core with decodeTable := c.core.decodeTable.wrN dt 2 (Nat.land entry 0xB3FF) } } := by
  have hother : ¬ ((0xE043 : Nat) = 0xE040) := by decide
  rw [ioStore_core c v locate_dtEntryTop (by decide)]
  simp only [Cell.storeCore, hother, hlock, Bool.false_eq_true, false_and, if_false]
  rfl

/-- A write of UC_DATA's top byte writes the word and steps UC_ADDR (R140, R500). -/
theorem ioStore_ucData :
    c.ioStore 0xE049 v =
      let uc := c.io.rdN 0xE044 2 % 1024
      let low := heldByte c 0xE046 (c.core.microcode.rd (4 * uc))
      let second := heldByte c 0xE047 (c.core.microcode.rd (4 * uc + 1))
      let third := heldByte c 0xE048 (c.core.microcode.rd (4 * uc + 2))
      let word := low.toNat + 256 * (second.toNat + 256 * (third.toNat + 256 * v.toNat))
      { c with
        holds := (List.range 6).foldl (fun h i => h.wr (0x1C08C + i) 0#8) c.holds
        io := c.io.wrN 0xE044 2 ((uc + 1) % 1024)
        core := { c.core with microcode := c.core.microcode.wrN (4 * uc) 4 word } } := by
  have h0 := liveByte_ucData c (i := 0) (by decide)
  have h1 := liveByte_ucData c (i := 1) (by decide)
  have h2 := liveByte_ucData c (i := 2) (by decide)
  rw [ioStore_core c v locate_ucData3 (by decide)]
  simp [Cell.storeCore, ucDataByte, hlock, Cell.holdWrite, h0, h1, h2, heldByte, List.range_succ, leOf, leNat]

/-- A write of PT_DATA writes the entry and steps PT_INDEX (R156). -/
theorem ioStore_ptData :
    c.ioStore 0xE097 v =
      { c with
        io := c.io.wr 0xE096 (BitVec.ofNat 8 ((c.io.rd 0xE096).toNat + 1))
        core := { c.core with paceTable := c.core.paceTable.wr (c.io.rd 0xE096).toNat v } } := by
  rw [ioStore_core c v locate_ptData (by decide)]
  simp [Cell.storeCore, hlock, byteOf]

/-- PACE_NUM takes a value from 1 to PACE_DEN (R149, R150). -/
theorem ioStore_paceNum (hv : v ≠ 0#8) (hle : v.toNat ≤ (c.io.rd 0xE083).toNat) :
    c.ioStore 0xE082 v = { c with io := c.io.wr 0xE082 v, core := { c.core with paceRestart := true } } := by
  rw [ioStore_core c v locate_paceNum (by decide)]
  simp [Cell.storeCore, hlock, plainWrite_whole, paceRate_allowed hv hle]

/-- PACE_DEN takes a value from PACE_NUM up (R149, R150). -/
theorem ioStore_paceDen (hnum : c.io.rd 0xE082 ≠ 0#8) (hle : (c.io.rd 0xE082).toNat ≤ v.toNat) :
    c.ioStore 0xE083 v = { c with io := c.io.wr 0xE083 v, core := { c.core with paceRestart := true } } := by
  rw [ioStore_core c v locate_paceDen (by decide)]
  simp [Cell.storeCore, hlock, plainWrite_whole, paceRate_allowed hnum hle]

end

/-! ### PACE_CTL, UC_CTL and the reads of UC_DATA -/

/-- A read of a byte that a write has made other than 00h, in any list. -/
theorem rd_wr_of_ne_zero (m : Bytes) (a : Nat) {v : Byte} (hv : v ≠ 0#8) : (m.wr a v).rd a = v := by
  induction m with
  | nil => simp [Bytes.wr, Bytes.rd, hv]
  | cons p t ih =>
    obtain ⟨k, w⟩ := p
    by_cases hlt : a < k
    · simp [Bytes.wr, Bytes.rd, hv, hlt]
    · by_cases hk : a = k
      · simp [Bytes.wr, Bytes.rd, hv, hk]
      · simp [Bytes.wr, Bytes.rd, hlt, hk, ih]

section
variable (c : Cell)

/-- A write of PACED = 1 in unpaced mode restarts the schedule (R152). -/
theorem ioStore_paced {v : Byte} (hwas : c.io.bit 0xE080 0 = false) (hv : v.getLsbD 0 = true) :
    c.ioStore 0xE080 v =
      { c with
        io := (c.io.wr 0xE080 (c.io.rd 0xE080 ||| 1#8)).wrN 0xE088 2 0
        core := { c.core with sched := c.core.paceCount, slipOver := false, repaced := true } } := by
  have hbyte : ((c.io.rd 0xE080 &&& ~~~ maskByte 1 0) ||| (v &&& maskByte 1 0)) &&& ~~~ (v &&& maskByte 0 0) =
      c.io.rd 0xE080 ||| 1#8 := by
    have hset : v &&& 1#8 = 1#8 := by rw [BitVec.and_one_eq_setWidth_ofBool_getLsbD, hv]; rfl
    have hclear (x : Byte) : x &&& ~~~ 1#8 ||| 1#8 = x ||| 1#8 := by
      ext i
      simp only [BitVec.getElem_or, BitVec.getElem_and, BitVec.getElem_not]
      cases (1#8)[i] <;> simp
    rw [show maskByte 1 0 = 1#8 from rfl, show maskByte 0 0 = 0#8 from rfl, hset, hclear, BitVec.and_zero,
      BitVec.not_zero, BitVec.and_allOnes]
  have hon : ((c.io.wr 0xE080 (c.io.rd 0xE080 ||| 1#8)).bit 0xE080 0) = true := by
    have hne : c.io.rd 0xE080 ||| 1#8 ≠ 0#8 := by
      intro h
      simpa using congrArg (·.getLsbD 0) h
    rw [Bytes.bit, rd_wr_of_ne_zero _ _ hne]
    simp
  rw [ioStore_core c v locate_paceCtl (by decide)]
  simp [Cell.storeCore, byteReg, Cell.plainWrite, hbyte, Cell.paceCtl, hwas, hon, Cell.restartPace]

/-- LOCK is set (R139). -/
theorem ioStore_lock : c.ioStore 0xE040 0x80#8 = { c with io := c.io.setBit 0xE040 7 true } := by
  rw [ioStore_core c _ locate_ucCtl (by decide)]
  rfl

/-- A read of UC_DATA's byte 0 latches the other three (R140). -/
theorem ioLoad_ucData_first :
    let uc := c.io.rdN 0xE044 2 % 1024
    (c.ioLoad 0xE046).2 =
      { c with latched := ((c.latched.wr 0xE047 (c.core.microcode.rd (4 * uc + 1))).wr 0xE048
          (c.core.microcode.rd (4 * uc + 2))).wr 0xE049 (c.core.microcode.rd (4 * uc + 3)) } := by
  have hbyte {i : Nat} {l : IoLoc} (hi : i < 4) (hl : locate (0xE046 + i) = some l) :
      c.headByte (0xE046 + i) = c.core.microcode.rd (4 * (c.io.rdN 0xE044 2 % 1024) + i) := by
    have h1 : ¬ (0xEB9C ≤ 0xE046 + i ∧ 0xE046 + i < 0xEBA0) := by omega
    have h2 : ¬ 0xE424 ≤ 0xE046 + i := by omega
    simp only [Cell.headByte, h1, h2, false_and, if_false, Cell.ioPeek, hl, liveByte_ucData c hi]
  have h1 := hbyte (i := 1) (by decide) locate_ucData1
  have h2 := hbyte (i := 2) (by decide) locate_ucData2
  have h3 := hbyte (i := 3) (by decide) locate_ucData3
  simp [Cell.ioLoad, Cell.ioLoadBase, locate_ucData0, ucDataByte, Cell.latchReg, Cell.readHead, List.range_succ, h1,
    h2, h3]

/-- A read of UC_DATA's byte 3 steps UC_ADDR (R140). -/
theorem ioLoad_ucData_last :
    (c.ioLoad 0xE049).2 = { c with io := c.io.wrN 0xE044 2 ((c.io.rdN 0xE044 2 % 1024 + 1) % 1024) } := by
  rw [Nat.mod_add_mod]
  simp [Cell.ioLoad, Cell.ioLoadBase, locate_ucData3, ucDataByte]

end

/-- An event of a running channel's cell leaves the channel with the cell that it makes. -/
theorem next_of_cellEvent {s : State} {ch : Nat} {c c' : Cell} {f : Cell → Cell} (h : s.runsOn ch c)
    (hf : f c = c') :
    (.next (s.cellEvent ch f) : Host.Outcome State Fault Refusal) = .next (s.becomes ch c') :=
  congrArg Host.Outcome.next (State.cellEvent_congr h.1 hf)

/-- Settles O16: each register by its write, the lock by the one test that all the locked writes share. -/
theorem tablesAndPaceAreWritten : Obligations.TablesAndPaceAreWritten := by
  unfold Obligations.TablesAndPaceAreWritten
  intro s ch c v h held dt uc k entry word
  refine ⟨?tables, ?paceNum, ?paceDen, ?paced, ?lock, ?locked, ?readFirst, ?readLast⟩
  case tables =>
    intro hlock
    refine ⟨?_, ?_, ?_⟩
    · exact next_of_cellEvent h (ioStore_dtEntry v hlock)
    · exact next_of_cellEvent h (ioStore_ucData v hlock)
    · exact next_of_cellEvent h (ioStore_ptData v hlock)
  case paceNum => exact fun hlock hv hle => next_of_cellEvent h (ioStore_paceNum v hlock hv hle)
  case paceDen => exact fun hlock hnum hle => next_of_cellEvent h (ioStore_paceDen v hlock hnum hle)
  case paced => exact fun hwas hv => next_of_cellEvent h (ioStore_paced c hwas hv)
  case lock => exact next_of_cellEvent h (ioStore_lock c)
  case locked =>
    intro hlock
    refine ⟨?_, ?_, ?_, ?_, ?_⟩
    · exact next_of_cellEvent h (ioStore_locked c v hlock locate_dtEntryTop (by decide) (by decide) (by decide))
    · exact next_of_cellEvent h (ioStore_locked c v hlock locate_ucData3 (by decide) (by decide) (by decide))
    · exact next_of_cellEvent h (ioStore_locked c v hlock locate_ptData (by decide) (by decide) (by decide))
    · exact next_of_cellEvent h (ioStore_locked c v hlock locate_paceNum (by decide) (by decide) (by decide))
    · exact next_of_cellEvent h (ioStore_locked c v hlock locate_paceDen (by decide) (by decide) (by decide))
  case readFirst => exact next_of_cellEvent h (ioLoad_ucData_first c)
  case readLast => exact next_of_cellEvent h (ioLoad_ucData_last c)

end Sys2Proof.DecodeAndPace
end

section
/-! PROOFS. The beam and the raster: what the events of the beam share. -/

namespace Sys2Proof.BeamAndRaster

open Sys2Proof.Machine

/-! ### Raises (R360) -/

/-- Moderation changes the list of holds alone (R363). -/
theorem moderate_eq (c : Cell) (s : Nat) (was : Bool) :
    ∃ l, c.moderate s was = { c with intc := { c.intc with holds := l } } := by
  unfold Cell.moderate
  dsimp only
  split
  · exact ⟨_, rfl⟩
  · split
    · exact ⟨_, rfl⟩
    · split
      · exact ⟨_, rfl⟩
      · exact ⟨_, rfl⟩

/-- A raise sets its bit of PEND, and changes nothing outside the interrupt controller. -/
theorem raise_eq (c : Cell) (s : Nat) :
    ∃ i : Intc, c.raise s = { c with intc := i } ∧ i.pend = setBit48 c.intc.pend s true := by
  obtain ⟨l, hl⟩ := moderate_eq { c with intc := { c.intc with pend := setBit48 c.intc.pend s true } } s
    (c.intc.pend.getLsbD s)
  exact ⟨_, hl, rfl⟩

/-- The request of a level source changes nothing outside the interrupt controller. -/
theorem present_eq (c : Cell) (s : Nat) (req : Bool) : ∃ i : Intc, c.present s req = { c with intc := i } := by
  unfold Cell.present
  dsimp only
  split
  · obtain ⟨l, hl⟩ := moderate_eq { c with intc := { c.intc with request := setBit48 c.intc.request s req } } s false
    exact ⟨_, hl⟩
  · exact ⟨_, rfl⟩

section
variable (c : Cell) (s : Nat)

@[simp] theorem raise_io : (c.raise s).io = c.io := by obtain ⟨i, h, -⟩ := raise_eq c s; rw [h]
@[simp] theorem raise_eff : (c.raise s).eff = c.eff := by obtain ⟨i, h, -⟩ := raise_eq c s; rw [h]
@[simp] theorem raise_beam : (c.raise s).beam = c.beam := by obtain ⟨i, h, -⟩ := raise_eq c s; rw [h]
@[simp] theorem raise_seq : (c.raise s).seq = c.seq := by obtain ⟨i, h, -⟩ := raise_eq c s; rw [h]
@[simp] theorem raise_mem : (c.raise s).mem = c.mem := by obtain ⟨i, h, -⟩ := raise_eq c s; rw [h]
@[simp] theorem raise_core : (c.raise s).core = c.core := by obtain ⟨i, h, -⟩ := raise_eq c s; rw [h]
@[simp] theorem raise_pend : (c.raise s).intc.pend = setBit48 c.intc.pend s true := by
  obtain ⟨i, h, hp⟩ := raise_eq c s
  rw [h, hp]

/-- A raised source is pending. -/
theorem raise_pending (h : s < 48) : (c.raise s).intc.pend.getLsbD s = true := by
  rw [raise_pend, setBit48, if_pos rfl, BitVec.getLsbD_or, BitVec.getLsbD_ofNat, Nat.testBit_two_pow_self]
  simp [h]

end

/-! ### Status bits -/

/-- A bit that has been set reads 1, in any list. -/
theorem bit_setBit_same (m : Bytes) (a : Nat) {i : Nat} (hi : i < 8) : (m.setBit a i true).bit a i = true := by
  have hone : (m.rd a ||| BitVec.ofNat 8 (2 ^ i)).getLsbD i = true := by
    rw [BitVec.getLsbD_or, BitVec.getLsbD_ofNat, Nat.testBit_two_pow_self]
    simp [hi]
  have hne : m.rd a ||| BitVec.ofNat 8 (2 ^ i) ≠ 0#8 := by
    intro h
    rw [h] at hone
    simp at hone
  rw [Bytes.setBit, if_pos rfl, Bytes.orb, Bytes.bit, DecodeAndPace.rd_wr_of_ne_zero _ _ hne, hone]

/-- A bit of another byte leaves a byte as it was. -/
theorem rd_setBit_other (m : Bytes) {a b : Nat} (i : Nat) (v : Bool) (h : b ≠ a) : (m.setBit a i v).rd b = m.rd b := by
  unfold Bytes.setBit
  split
  · exact Bytes.rd_wr_other _ _ _ _ h
  · exact Bytes.rd_wr_other _ _ _ _ h

/-! ### Events at a beam position -/

section
variable {c c1 : Cell} {line dot ev : Nat}

/-- The cell with an event of its tick made. -/
def marked (c : Cell) (ev : Nat) : Cell := { c with beam := { c.beam with done := ev :: c.beam.done } }

theorem once_eq (h : c.beam.done.contains ev = false) : c.once ev = some (marked c ev) := by
  rw [Cell.once, h]
  rfl

/-- The beam comes to the event's position, where the event has not been made. -/
theorem eventAt_eq (f : Cell → Cell) (hrun : c.runTo line dot = some c1) (h : c1.beam.done.contains ev = false) :
    c.eventAt line dot ev f = f (marked c1 ev) := by
  rw [Cell.eventAt, hrun, Option.bind_some, once_eq h]

end

/-! ### What an event of a cell hands to the hub leaves of the beam -/

/-- A cell's beam, its registers in effect, and its UTIL. -/
def beamAndUtil (x : Cell) : Beam × Bytes × Byte := (x.beam, x.eff, x.io.rd 0xE094)

/-- Every channel's cell has in `t` the beam, the registers in effect and the UTIL that it has in `s`. -/
def KeepsBeams (s t : State) : Prop := ∀ n, (t.chan n).cell.map beamAndUtil = (s.chan n).cell.map beamAndUtil

/-- An update of a channel's cell that leaves what `beamAndUtil` names. -/
theorem onCell_keeps (c : Chan) (f : Cell → Cell) (hf : ∀ x, beamAndUtil (f x) = beamAndUtil x) :
    (c.onCell f).cell.map beamAndUtil = c.cell.map beamAndUtil := by
  rw [Chan.onCell, Option.map_map]
  exact congrArg (c.cell.map ·) (funext hf)

/-! What the channel shows of itself leaves its cell alone. -/

@[simp] theorem notify_cell (c : Chan) (code detail time : Nat) : (c.notify code detail time).cell = c.cell := by
  unfold Chan.notify
  dsimp only
  split
  · rfl
  · rfl

@[simp] theorem showView_cell (c : Chan) : c.showView.cell = c.cell := by
  unfold Chan.showView
  dsimp only
  split
  · rfl
  · exact notify_cell _ _ _ _

/-- NET_STAT is the one register that the hub sets in a cell. -/
theorem showNet_keeps (c : Chan) : c.showNet.cell.map beamAndUtil = c.cell.map beamAndUtil :=
  onCell_keeps c _ fun x => by
    rw [beamAndUtil, Bytes.rd_wr_other _ _ _ _ (by decide), beamAndUtil]

theorem refreshStream_keeps (x : Cell) (st : Stream) : beamAndUtil (x.refreshStream st) = beamAndUtil x := by
  unfold Cell.refreshStream
  split
  · rfl
  · rfl

theorem foldl_refresh_keeps (l : List Stream) (x : Cell) :
    beamAndUtil (l.foldl (fun x st => x.refreshStream st) x) = beamAndUtil x := by
  induction l generalizing x with
  | nil => rfl
  | cons st l ih =>
    rw [List.foldl_cons, ih, refreshStream_keeps]

/-- A record that enters a stream's holding leaves the cell, but for a refresh that it asks for. -/
theorem takeRecord_keeps (c : Chan) (st : Stream) (bytes : List Byte) :
    (c.takeRecord st bytes).cell.map beamAndUtil = c.cell.map beamAndUtil := by
  have hrenew (c : Chan) (n : Nat) :
      (if n = 0 then c else c.onCell fun x => x.refreshStream st).cell.map beamAndUtil = c.cell.map beamAndUtil := by
    split
    · rfl
    · exact onCell_keeps _ _ (refreshStream_keeps · st)
  unfold Chan.takeRecord
  cases st with
  | shq => exact hrenew _ _
  | clq => exact hrenew _ _
  | svc => exact hrenew _ _

namespace KeepsBeams

theorem same (s : State) : KeepsBeams s s := fun _ => rfl

section
variable {s t : State} (h : KeepsBeams s t)
include h

theorem onHub (f : Hub → Hub) : KeepsBeams s (t.onHub f) := h

theorem setChan (c : Chan) (hc : c.cell.map beamAndUtil = (t.chan c.n).cell.map beamAndUtil) :
    KeepsBeams s (t.setChan c) := by
  intro n
  by_cases hn : n = c.n
  · subst hn
    rw [State.setChan_chan_self, hc, h]
  · rw [State.setChan_chan_other _ _ _ hn, h]

theorem onChan (n : Nat) (g : Chan → Chan)
    (hg : (g (t.chan n)).cell.map beamAndUtil = (t.chan n).cell.map beamAndUtil) : KeepsBeams s (t.onChan n g) :=
  h.setChan _ hg

theorem send (x : Sent) : KeepsBeams s (t.send x) := h

theorem signal (fn vec : Nat) : KeepsBeams s (t.signal fn vec) := by
  unfold State.signal
  split
  · exact h
  · exact h

theorem catchEntry (kind cause : Nat) (c : Chan) (old new : Option (Nat × Nat)) (ctime block detail delay lag : Nat) :
    KeepsBeams s (t.catchEntry kind cause c old new ctime block detail delay lag) := (h.onHub _).signal 0 1

theorem onQueue (ch q : Nat) (f : Queue → Queue) : KeepsBeams s (t.onQueue (.vf ch q) f) := h.onChan _ _ rfl

theorem queueMessage (ch q : Nat) : KeepsBeams s (t.queueMessage (.vf ch q)) := (h.signal _ _).onQueue _ _ _

theorem advanced (ch q i : Nat) : KeepsBeams s (t.advanced (.vf ch q) i) := by
  unfold State.advanced
  extract_lets x u
  have hu : KeepsBeams s u := by
    unfold u
    split
    · exact h.send _
    · exact h
  split
  · exact hu
  · split
    · exact hu.onQueue _ _ _
    · exact hu.queueMessage _ _

theorem consume (ch q n : Nat) : KeepsBeams s (t.consume (.vf ch q) n) := (h.onQueue _ _ _).advanced _ _ _

theorem netBegins (ch : Nat) (cause : NetCause) : KeepsBeams s (t.netBegins ch cause) := by
  unfold State.netBegins
  dsimp only
  split
  · exact h
  · refine (h.onChan ch _ ?_).catchEntry _ _ _ _ _ _ _ _ _ _
    rw [showNet_keeps]

theorem logAt (ch time kind : Nat) (payload : List Byte) : KeepsBeams s (t.logAt ch time kind payload) := by
  unfold State.logAt
  dsimp only
  split
  · exact h
  · split
    · refine h.setChan _ ?_
      unfold Chan.mayForce
      split
      · rw [State.chan_n]
      · rw [State.chan_n]
    · exact (h.setChan _ (by rw [State.chan_n])).netBegins _ _

theorem retireLayers (ch l : Nat) : KeepsBeams s (t.retireLayers ch l) := by
  unfold State.retireLayers
  dsimp only
  split
  · exact h
  · exact (h.onQueue _ _ _).consume _ _ _

theorem layerTaken (ch l : Nat) (refused : Bool) : KeepsBeams s (t.layerTaken ch l refused) := by
  unfold State.layerTaken State.layerSettles
  refine retireLayers ?_ ch l
  split
  · exact h.onQueue _ _ _
  · exact (h.onQueue _ _ _).onQueue _ _ _

theorem hears (heard : Option Nat) (fade : Nat) : KeepsBeams s (t.hears heard fade) := h.onHub _

theorem playFrame (l r : Int) : KeepsBeams s (t.playFrame l r) := (h.send _).onHub _

theorem serviceFrame (ch : Nat) (l r : Int) : KeepsBeams s (t.serviceFrame ch l r) := by
  unfold State.serviceFrame
  dsimp only
  split
  · exact (h.playFrame _ _).hears _ _
  · split
    · split
      · exact (h.playFrame _ _).hears _ _
      · split
        · exact (h.playFrame _ _).hears _ _
        · refine ((h.playFrame _ _).hears _ _).onChan ch _ ?_
          exact onCell_keeps _ _ fun _ => rfl
    · exact h

theorem lockedUp (ch : Nat) (r : LockupInfo) : KeepsBeams s (t.lockedUp ch r) := by
  unfold State.lockedUp State.lockupPin
  refine (signal (h.onChan ch _ ?_) 0 1).onHub _
  rw [showView_cell, notify_cell, Option.map_map]
  rfl

theorem napChange (ch : Nat) (begins : Bool) : KeepsBeams s (t.napChange ch begins) := by
  unfold State.napChange
  refine h.onChan ch _ ?_
  cases begins with
  | true =>
    rw [if_pos rfl, showView_cell, Option.map_map]
    rfl
  | false =>
    rw [if_neg (by decide), showView_cell, Option.map_map]
    refine congrArg ((t.chan ch).cell.map ·) (funext fun x => ?_)
    exact foldl_refresh_keeps _ { x with picture := { x.picture with held := x.dry } }

theorem flushOne (ch : Nat) (e : Emit) : KeepsBeams s (t.flushOne ch e) := by
  unfold State.flushOne
  cases e with
  | lockup r => exact h.lockedUp ch r
  | notify code detail time => exact h.onChan ch _ (by rw [notify_cell])
  | logRecord kind payload => exact h.logAt ch _ kind payload
  | logAt time kind payload => exact h.logAt ch time kind payload
  | layerTaken l tag refused => exact h.layerTaken ch l refused
  | record st blocks bytes => exact h.onChan ch _ (takeRecord_keeps _ st bytes)
  | audio k stamp w24 bytes => exact h.onChan ch _ rfl
  | nap begins => exact h.napChange ch begins
  | service l r => exact h.serviceFrame ch l r

theorem showPads (ch : Nat) : KeepsBeams s (t.showPads ch) := by
  unfold State.showPads
  dsimp only
  split
  · split
    · exact h.setChan _ (by rw [State.chan_n])
    · exact h
  · exact h

theorem flushAll (ch : Nat) (l : List Emit) : KeepsBeams s (l.foldl (fun s e => s.flushOne ch e) t) := by
  induction l generalizing t with
  | nil => exact h
  | cons e l ih => exact ih (h.flushOne ch e)

theorem flush (ch : Nat) : KeepsBeams s (t.flush ch) := by
  unfold State.flush
  split
  · exact h
  · refine ((h.onChan ch _ ?_).flushAll ch _).showPads ch
    exact onCell_keeps _ _ fun _ => rfl

end

end KeepsBeams

/-- The level requests that follow an event leave the beam and the registers (R360, R366). -/
theorem settle_keeps (c : Cell) : beamAndUtil c.settle = beamAndUtil c := by
  have hfold (l : List (Nat × Bool)) (x : Cell) :
      beamAndUtil (l.foldl (fun c r => c.present r.1 r.2) x) = beamAndUtil x := by
    induction l generalizing x with
    | nil => rfl
    | cons r l ih =>
      obtain ⟨i, hi⟩ := present_eq x r.1 r.2
      rw [List.foldl_cons, ih, hi]
      rfl
  unfold Cell.settle
  split
  · rfl
  · exact hfold _ _

/-- After an event the channel has a cell with the beam that the event left. -/
theorem cell_of_becomes {s : State} {ch : Nat} {c : Cell} (h : s.runsOn ch c) (c' : Cell) :
    ∃ y, ((s.becomes ch c').chan ch).cell = some y ∧ beamAndUtil y = beamAndUtil c' := by
  obtain ⟨hcell, hruns, hoffers⟩ := h
  have hn : ¬ (¬ c.runs = true ∨ ¬ s.offers ch = true) := by simp [hruns, hoffers]
  have hk := (KeepsBeams.same (s.setChan { s.chan ch with cell := some c'.settle })).flush ch ch
  have hself : (s.setChan { s.chan ch with cell := some c'.settle }).chan ch =
      { s.chan ch with cell := some c'.settle } := by
    have := State.setChan_chan_self s { s.chan ch with cell := some c'.settle }
    rwa [State.chan_n] at this
  rw [hself, Option.map_some, settle_keeps] at hk
  have hb : s.becomes ch c' = (s.setChan { s.chan ch with cell := some c'.settle }).flush ch := by
    simp only [State.becomes, State.cellEvent, hcell, hn, if_false]
  rw [hb]
  exact Option.map_eq_some_iff.mp hk

end Sys2Proof.BeamAndRaster
end

section
/-! PROOFS. The writes of the palette and the tables through their ports. -/

namespace Sys2Proof.BeamAndRaster

open Sys2Proof.Machine Sys2Proof.DecodeAndPace

/-! ### Writes of the picture's registers (R167, R168, R500) -/

/-- A byte of a live register of two bytes that the core writes through a hold. -/
def livePair (a rw off : Nat) : IoLoc := { reg := ⟨a, 2, 1, 1, rw, 0, 0, .live, false, true⟩, start := a, off := off }

theorem locate_palHi : locate 0xE965 = some (livePair 0xE964 0x3FFF 1) := rfl
theorem locate_tblData : locate 0xE975 = some (livePair 0xE974 0xFFFF 1) := rfl

section
variable (c : Cell) (v : Byte)

/-- A write of 0E700h to 0EAFFh is one of the picture's registers. -/
theorem ioStore_video {a : Nat} {l : IoLoc} (hl : locate a = some l) (hlo : 0xE700 ≤ a) (hhi : a < 0xEB00) :
    c.ioStore a v = c.storeVideo l a v := by
  have h1 : ¬ a < 0xE100 := by omega
  have h2 : ¬ a < 0xE200 := by omega
  have h3 : ¬ a < 0xE300 := by omega
  have h4 : ¬ a < 0xE400 := by omega
  have h5 : ¬ a < 0xE500 := by omega
  have h6 : ¬ a < 0xE600 := by omega
  have h7 : ¬ a < 0xE700 := by omega
  simp only [Cell.ioStore, Cell.ioStoreBase, hl, h1, h2, h3, h4, h5, h6, h7, hhi, and_false, if_false, if_true]

/-- A write of the core's waits for the fetch boundary after its acceptance. -/
def coreWaits (op : LiveOp) : LiveWrite := { accepted := c.beam.ctime + 1, bySequencer := false, op := op }

/-- A live pair written whole by the core: both bytes wait for a fetch boundary. -/
def pairWritten (a : Nat) (low high : Byte) : Cell :=
  { c with
    holds := (c.holds.wr (2 * a) 0#8).wr (2 * a + 1) 0#8
    io := (c.io.wr a low).wr (a + 1) high
    beam := { c.beam with pendLive := c.beam.pendLive ++ [coreWaits c (.byte a low), coreWaits c (.byte (a + 1) high)] } }

/-- A write of a live pair's top byte takes its low byte from the hold, or as it is (R168). -/
theorem storeVideo_livePair {a rw : Nat} (hlive : c.liveByte a = none) :
    c.storeVideo (livePair a rw 1) (a + 1) v =
      (pairWritten c a (heldByte c a (c.io.rd a) &&& maskByte rw 0) (v &&& maskByte rw 1)).afterLive
        (c.beam.ctime + 1) false (a + 1) := by
  simp [Cell.storeVideo, livePair, Cell.holdWrite, hlive, Cell.liveBytes, pairWritten, coreWaits, heldByte,
    List.range_succ]

/-- The core's own write undoes no entry (R169). -/
theorem undoEntry_core (acc : Nat) (isPal : Bool) : c.undoEntry acc false isPal = c := by
  have hnone : c.beam.pendLive.find? (fun _ => false) = none := List.find?_eq_none.mpr (by simp)
  simp [Cell.undoEntry, hnone]

end

/-- The two bytes of a pair just written, as one value. -/
theorem rdN_pairWritten {c : Cell} (a : Nat) (low high : Byte) (hwf : c.io.wf = true) :
    (pairWritten c a low high).io.rdN a 2 = low.toNat + 256 * high.toNat := by
  have h1 : (c.io.wr a low).wf = true := Bytes.wr_wf _ _ _ hwf
  have hne : a ≠ a + 1 := by omega
  simp [pairWritten, Bytes.rdN, Bytes.rd_wr_same _ _ _ h1, Bytes.rd_wr_other _ _ _ _ hne, Bytes.rd_wr_same _ _ _ hwf]

/-- A pair leaves the other registers as they were. -/
theorem rd_pairWritten_other {c : Cell} {a b : Nat} (low high : Byte) (h : b < a ∨ a + 1 < b) :
    (pairWritten c a low high).io.rd b = c.io.rd b := by
  have h1 : b ≠ a + 1 := by omega
  have h2 : b ≠ a := by omega
  simp only [pairWritten, Bytes.rd_wr_other _ _ _ _ h1, Bytes.rd_wr_other _ _ _ _ h2]

/-! ### The entries (R213, R214) -/

section
variable {c : Cell} (v : Byte) (hwf : c.io.wf = true)
include hwf

/-- A write of PAL_HI writes the entry of PAL_INDEX and steps the index (R213). -/
theorem ioStore_palHi :
    let low := heldByte c 0xE964 (c.io.rd 0xE964)
    let top := v &&& 0x3F#8
    let colour := (low.toNat + 256 * top.toNat) * 0x10000 + c.io.rdN 0xE962 2
    c.ioStore 0xE965 v =
      { c with
        holds := (c.holds.wr 0x1D2C8 0#8).wr 0x1D2C9 0#8
        io := ((c.io.wr 0xE964 low).wr 0xE965 top).wr 0xE960 (c.io.rd 0xE960 + 1#8)
        beam := { c.beam with pendLive := c.beam.pendLive ++
          [coreWaits c (.byte 0xE964 low), coreWaits c (.byte 0xE965 top),
            coreWaits c (.palette (c.io.rd 0xE960).toNat (BitVec.ofNat 32 colour))] } } := by
  intro low top colour
  have hlow : low &&& maskByte 0x3FFF 0 = low := by
    rw [show maskByte 0x3FFF 0 = BitVec.allOnes 8 from by decide, BitVec.and_allOnes]
  have htop : top.toNat < 64 := by
    rw [show top = v &&& 0x3F#8 from rfl, BitVec.toNat_and]
    exact Nat.lt_of_le_of_lt Nat.and_le_right (by decide)
  have hindex : (pairWritten c 0xE964 low top).io.rd 0xE960 = c.io.rd 0xE960 := rd_pairWritten_other _ _ (by decide)
  have hlo : (pairWritten c 0xE964 low top).io.rdN 0xE962 2 = c.io.rdN 0xE962 2 := by
    simp only [Bytes.rdN, rd_pairWritten_other low top (show 0xE962 < 0xE964 ∨ _ from by decide),
      rd_pairWritten_other low top (show 0xE962 + 1 < 0xE964 ∨ _ from by decide)]
  have hhi : (pairWritten c 0xE964 low top).io.rdN 0xE964 2 % 0x4000 = low.toNat + 256 * top.toNat := by
    rw [rdN_pairWritten _ _ _ hwf]
    have := low.isLt
    omega
  have hnext : BitVec.ofNat 8 ((c.io.rd 0xE960).toNat + 1) = c.io.rd 0xE960 + 1#8 := by bv_omega
  rw [ioStore_video c v locate_palHi (by decide) (by decide), storeVideo_livePair c v rfl, hlow,
    show maskByte 0x3FFF 1 = 0x3F#8 from by decide]
  change (pairWritten c 0xE964 low top).paletteWrite (c.beam.ctime + 1) false = _
  simp only [Cell.paletteWrite, undoEntry_core, hindex, hlo, hhi, hnext]
  simp [pairWritten, coreWaits, colour]

/-- A write of TBL_DATA's top byte writes the entry of TBL_INDEX and steps the index, but in a reserved table
(R214). -/
theorem ioStore_tblData :
    let sel := (c.io.rd 0xE970).toNat
    let i := c.io.rdN 0xE972 2 % tableSize sel
    let low := heldByte c 0xE974 (c.io.rd 0xE974)
    let value := (low.toNat + 256 * v.toNat) % 2 ^ tableBits sel
    c.ioStore 0xE975 v =
      if tableSize sel = 0 then pairWritten c 0xE974 low v
      else
        { pairWritten c 0xE974 low v with
          io := ((c.io.wr 0xE974 low).wr 0xE975 v).wrN 0xE972 2 ((i + 1) % tableSize sel)
          beam := { c.beam with pendLive := c.beam.pendLive ++
            [coreWaits c (.byte 0xE974 low), coreWaits c (.byte 0xE975 v),
              coreWaits c (.table sel i (BitVec.ofNat 16 value))] } } := by
  intro sel i low value
  have hall (b : Byte) : b &&& 0xFF#8 = b := BitVec.and_allOnes
  have hsel : (pairWritten c 0xE974 low v).io.rd 0xE970 = c.io.rd 0xE970 := rd_pairWritten_other _ _ (by decide)
  have hindex : (pairWritten c 0xE974 low v).io.rdN 0xE972 2 = c.io.rdN 0xE972 2 := by
    simp only [Bytes.rdN, rd_pairWritten_other low v (show 0xE972 < 0xE974 ∨ _ from by decide),
      rd_pairWritten_other low v (show 0xE972 + 1 < 0xE974 ∨ _ from by decide)]
  rw [ioStore_video c v locate_tblData (by decide) (by decide), storeVideo_livePair c v rfl,
    show maskByte 0xFFFF 0 = 0xFF#8 from by decide, show maskByte 0xFFFF 1 = 0xFF#8 from by decide, hall, hall]
  change (pairWritten c 0xE974 low v).tableWrite (c.beam.ctime + 1) false = _
  simp only [Cell.tableWrite, undoEntry_core, hsel, hindex, rdN_pairWritten _ _ _ hwf]
  split
  · rfl
  · simp [pairWritten, coreWaits, value, i, sel]

end

/-- Settles O25: each port is a live pair, whose entry is written after its two bytes. -/
theorem paletteAndTableWrites : Obligations.PaletteAndTableWrites := by
  unfold Obligations.PaletteAndTableWrites
  intro s ch c v h hwf waits held top colour sel i value
  refine ⟨?palette, ?table, ?reserved⟩
  case palette => exact next_of_cellEvent h (ioStore_palHi v hwf)
  case table =>
    intro hsize
    exact next_of_cellEvent h ((ioStore_tblData v hwf).trans (if_neg hsize))
  case reserved =>
    intro hsize
    exact next_of_cellEvent h ((ioStore_tblData v hwf).trans (if_pos hsize))

end Sys2Proof.BeamAndRaster
end

section
/-! PROOFS. The entries of the raster sequencer. -/

namespace Sys2Proof.BeamAndRaster

open Sys2Proof.Machine Sys2Proof.DecodeAndPace

/-! ### One entry (R176 to R178) -/

section
variable {c c1 : Cell} {w : Word} {op : Nat} (f : Cell → Word → Cell) (he : c.seqEntry = some (c1, w))
include he

/-- An entry that is legal and within the limit has its effect. -/
theorem seqStep_of_fine (hop : w.toNat / 2 ^ 29 = op) (hcount : c1.seq.count ≤ 1024) (hok : seqEntryOk w = true) :
    c.seqStep op f = f c1 w := by
  have h1 : ¬ (w.toNat / 2 ^ 29 ≠ op ∧ w.toNat / 2 ^ 29 ≤ 4) := fun h => h.1 hop
  have h2 : ¬ 1024 < c1.seq.count := by omega
  simp only [Cell.seqStep, he, h1, h2, hok, not_true, if_false]

/-- The entry after the 1,024th stops the sequencer with LIMIT. -/
theorem seqStep_of_limit (hop : w.toNat / 2 ^ 29 = op ∨ 4 < w.toNat / 2 ^ 29) (hcount : 1024 < c1.seq.count) :
    c.seqStep op f = c1.seqStop 2 := by
  have h1 : ¬ (w.toNat / 2 ^ 29 ≠ op ∧ w.toNat / 2 ^ 29 ≤ 4) := by omega
  simp only [Cell.seqStep, he, h1, hcount, if_false, if_true]

/-- An entry that R176 does not allow stops the sequencer with BAD. -/
theorem seqStep_of_bad (hop : w.toNat / 2 ^ 29 = op ∨ 4 < w.toNat / 2 ^ 29) (hcount : c1.seq.count ≤ 1024)
    (hok : seqEntryOk w = false) : c.seqStep op f = c1.seqStop 3 := by
  have h1 : ¬ (w.toNat / 2 ^ 29 ≠ op ∧ w.toNat / 2 ^ 29 ≤ 4) := by omega
  have h2 : ¬ 1024 < c1.seq.count := by omega
  simp only [Cell.seqStep, he, h1, h2, hok, Bool.false_eq_true, not_false_iff, if_false, if_true]

end

/-! ### WAIT (R177) -/

section
variable {c c1 : Cell} {w : Word} (he : c.seqEntry = some (c1, w)) (hop : w.toNat / 2 ^ 29 = 0)
  (hcount : c1.seq.count ≤ 1024) (hok : seqEntryOk w = true)
include he hop hcount hok

theorem seqWait_unreachable (hr : c1.seq.reachable = false) : c.seqWait = c1 := by
  rw [Cell.seqWait, seqStep_of_fine _ he hop hcount hok]
  simp only [hr, Bool.false_eq_true, not_false_iff, if_true]

variable (hr : c1.seq.reachable = true)
include hr

theorem seqWait_present (hline : bitsOf w.toNat 25 16 = c1.seq.posLine) (hdot : bitsOf w.toNat 10 0 = c1.seq.posDot) :
    c.seqWait = c1.seqNext w (c1.seq.pc + 1) c1.seq.ready := by
  rw [Cell.seqWait, seqStep_of_fine _ he hop hcount hok]
  simp only [hr, hline, hdot, not_true, and_self, if_false, if_true]

theorem seqWait_earlier (hpos : bitsOf w.toNat 25 16 < c1.seq.posLine ∨
      (bitsOf w.toNat 25 16 = c1.seq.posLine ∧ bitsOf w.toNat 10 0 < c1.seq.posDot)) :
    c.seqWait =
      Cell.seqNext { c1 with io := c1.io.setBit 0xE764 1 true } w (c1.seq.pc + 1) c1.seq.ready := by
  have hne : ¬ (bitsOf w.toNat 25 16 = c1.seq.posLine ∧ bitsOf w.toNat 10 0 = c1.seq.posDot) := by omega
  rw [Cell.seqWait, seqStep_of_fine _ he hop hcount hok]
  simp only [hr, hne, hpos, not_true, if_false, if_true]

theorem seqWait_later {c2 : Cell} (hpos : c1.seq.posLine < bitsOf w.toNat 25 16 ∨
      (bitsOf w.toNat 25 16 = c1.seq.posLine ∧ c1.seq.posDot < bitsOf w.toNat 10 0))
    (hbeam : c1.beam.line < bitsOf w.toNat 25 16 ∨
      (c1.beam.line = bitsOf w.toNat 25 16 ∧ c1.beam.dot ≤ bitsOf w.toNat 10 0))
    (hrun : c1.runTo (bitsOf w.toNat 25 16) (bitsOf w.toNat 10 0) = some c2) :
    c.seqWait = c2.seqNext w (c1.seq.pc + 1) c2.beam.ctime := by
  have hne : ¬ (bitsOf w.toNat 25 16 = c1.seq.posLine ∧ bitsOf w.toNat 10 0 = c1.seq.posDot) := by omega
  have hnl : ¬ (bitsOf w.toNat 25 16 < c1.seq.posLine ∨
      (bitsOf w.toNat 25 16 = c1.seq.posLine ∧ bitsOf w.toNat 10 0 < c1.seq.posDot)) := by omega
  rw [Cell.seqWait, seqStep_of_fine _ he hop hcount hok]
  simp only [hr, hne, hnl, hbeam, hrun, not_true, if_false, if_true]

end

/-- The geometry in effect at the tick at which a WAIT is read decides whether its position exists (R177, R179). -/
theorem latchEntry_reachable {k : Cell} {x : Word} (hrun : k.seq.run = true) (hnone : k.seq.word = none)
    (hready : k.seq.ready ≤ k.beam.ctime) (hx : k.latchEntry.seq.word = some x) :
    k.latchEntry.seq.reachable = k.waitExists x := by
  have hdue : k.seq.run = true ∧ k.seq.word.isNone = true ∧ k.seq.ready ≤ k.beam.ctime := by simp [hrun, hnone, hready]
  rw [Cell.latchEntry, if_pos hdue] at hx ⊢
  rw [← Option.some.inj hx]

/-! ### The other entries -/

section
variable {c c1 : Cell} {w : Word} (he : c.seqEntry = some (c1, w)) (hcount : c1.seq.count ≤ 1024)
  (hok : seqEntryOk w = true)
include he hcount hok

theorem seqWrite_byte (hop : w.toNat / 2 ^ 29 = 1) (hw : w.toNat.testBit 27 = false) :
    c.seqWrite =
      let a := 0xE700 + bitsOf w.toNat 25 16
      let t := c1.beam.ctime
      let k := (c1.liveBytes t true [(a, BitVec.ofNat 8 w.toNat &&& liveMask a)]).afterLive t true a
      k.seqNext w (k.seq.pc + 1) t := by
  rw [Cell.seqWrite, seqStep_of_fine _ he hop hcount hok]
  simp only [hw, Bool.false_eq_true, if_false]

theorem seqWrite_pair (hop : w.toNat / 2 ^ 29 = 1) (hw : w.toNat.testBit 27 = true) :
    c.seqWrite =
      let a := 0xE700 + bitsOf w.toNat 25 16
      let t := c1.beam.ctime
      let k := (c1.liveBytes t true [(a, BitVec.ofNat 8 w.toNat &&& liveMask a),
        (a + 1, BitVec.ofNat 8 (w.toNat / 256) &&& liveMask (a + 1))]).afterLive t true (a + 1)
      k.seqNext w (k.seq.pc + 1) t := by
  rw [Cell.seqWrite, seqStep_of_fine _ he hop hcount hok]
  simp only [hw, if_true]

theorem seqSkip_fine (hop : w.toNat / 2 ^ 29 = 2) :
    c.seqSkip = c1.seqNext w
      (if (if w.toNat.testBit 16 then BitVec.ofNat 8 c1.beam.frame else c1.io.rd 0xE767) &&&
          BitVec.ofNat 8 (w.toNat / 256) = BitVec.ofNat 8 w.toNat then c1.seq.pc + 2 else c1.seq.pc + 1)
      c1.beam.ctime := by
  rw [Cell.seqSkip, seqStep_of_fine _ he hop hcount hok, ← apply_ite (c1.seq.pc + ·)]

end

/-! ### The end of an entry, and the stops (R177, R178) -/

section
variable (c : Cell) (w : Word) (pc t : Nat)

theorem seqNext_seq : (c.seqNext w pc t).seq = { c.seq with pc := pc % 1024, ready := t + 1, word := none } := by
  unfold Cell.seqNext
  split
  · exact raise_seq _ _
  · rfl

/-- I = 1 raises RASTER. -/
theorem seqNext_raises (h : w.getLsbD 28 = true) :
    (c.seqNext w pc t).intc.pend.getLsbD 11 = true ∧ (c.seqNext w pc t).io.bit 0xE764 0 = true := by
  simp only [Cell.seqNext, h, if_true]
  exact ⟨raise_pending _ 11 (by decide), by rw [raise_io]; exact bit_setBit_same _ _ (by decide)⟩

/-- Without I an entry ends silently. -/
theorem seqNext_silent (h : w.getLsbD 28 = false) :
    (c.seqNext w pc t).intc = c.intc ∧ (c.seqNext w pc t).io = c.io := by
  simp only [Cell.seqNext, h, Bool.false_eq_true, if_false, and_self]

end

/-- A stop ends the sequencer's frame, with its status bit and RASTER_ERR. -/
theorem seqStop_stops (c : Cell) {bit : Nat} (hbit : bit < 8) :
    (c.seqStop bit).seq.run = false ∧ (c.seqStop bit).intc.pend.getLsbD 12 = true ∧
    (c.seqStop bit).io.bit 0xE764 bit = true ∧ (c.seqStop bit).eff = c.eff ∧ (c.seqStop bit).beam = c.beam := by
  unfold Cell.seqStop
  refine ⟨by rw [raise_seq], raise_pending _ 12 (by decide), ?_, by rw [raise_eff], by rw [raise_beam]⟩
  rw [raise_io]
  exact bit_setBit_same _ _ hbit

/-- Settles O22: each entry by its operation, and the stops by the one step that the entries share. -/
theorem sequencerEntriesRun : Obligations.SequencerEntriesRun := by
  unfold Obligations.SequencerEntriesRun
  intro s ch c c1 w h he v op t a lo hi line dot fine
  refine ⟨?finish, ?branch, ?skip, ?byte, ?pair, ?unreachable, ?present, ?earlier, ?later, ?latched, ?limitEnd,
    ?limitWrite, ?badWait, ?badWrite, ?next, ?stop⟩
  case finish =>
    rintro ⟨hcount, hok⟩ hop
    exact next_of_cellEvent h (seqStep_of_fine _ he hop hcount hok)
  case branch =>
    rintro ⟨hcount, hok⟩ hop
    exact next_of_cellEvent h (seqStep_of_fine _ he hop hcount hok)
  case skip => exact fun ⟨hcount, hok⟩ hop => next_of_cellEvent h (seqSkip_fine he hcount hok hop)
  case byte => exact fun ⟨hcount, hok⟩ hop hw => next_of_cellEvent h (seqWrite_byte he hcount hok hop hw)
  case pair => exact fun ⟨hcount, hok⟩ hop hw => next_of_cellEvent h (seqWrite_pair he hcount hok hop hw)
  case unreachable =>
    exact fun ⟨hcount, hok⟩ hop hr => next_of_cellEvent h (seqWait_unreachable he hop hcount hok hr)
  case present =>
    exact fun ⟨hcount, hok⟩ hop hr hline hdot =>
      next_of_cellEvent h (seqWait_present he hop hcount hok hr hline hdot)
  case earlier =>
    exact fun ⟨hcount, hok⟩ hop hr hpos => next_of_cellEvent h (seqWait_earlier he hop hcount hok hr hpos)
  case later =>
    exact fun c2 ⟨hcount, hok⟩ hop hr hpos hbeam hrun =>
      next_of_cellEvent h (seqWait_later he hop hcount hok hr hpos hbeam hrun)
  case latched =>
    intro k x hrun hnone hready hx
    rw [latchEntry_reachable hrun hnone hready hx, Cell.waitExists, decide_eq_true_iff]
  case limitEnd => exact fun hcount hop => next_of_cellEvent h (seqStep_of_limit _ he hop hcount)
  case limitWrite => exact fun hcount hop => next_of_cellEvent h (seqStep_of_limit _ he hop hcount)
  case badWait => exact fun hcount hok hop => next_of_cellEvent h (seqStep_of_bad _ he hop hcount hok)
  case badWrite => exact fun hcount hok hop => next_of_cellEvent h (seqStep_of_bad _ he hop hcount hok)
  case next =>
    intro pc _ k
    have hseq : k.seq = { c1.seq with pc := pc % 1024, ready := t + 1, word := none } := seqNext_seq c1 w pc t
    rw [hseq]
    exact ⟨rfl, rfl, rfl, rfl, seqNext_raises c1 w pc t, seqNext_silent c1 w pc t⟩
  case stop => exact fun bit hbit _ => seqStop_stops c1 hbit

end Sys2Proof.BeamAndRaster
end

section
/-! PROOFS. Commits, the cut, the transfer and its install tick. -/

namespace Sys2Proof.BeamAndRaster

open Sys2Proof.Machine Sys2Proof.DecodeAndPace

/-! ### Commits (R171, R172) -/

/-- A commit that is placed at the transfer of frame `target`. -/
def placed (c : Cell) (target : Nat) : Cell :=
  { c with beam := { c.beam with commits := c.beam.commits ++ [target] } }

/-- A commit that is merged into one that is pending. -/
def merged (c : Cell) : Cell := { c with io := c.io.wrN 0xE702 2 (min 65535 (c.io.rdN 0xE702 2 + 1)) }

/-- A commit for the transfer of frame `target`. -/
def commitFor (c : Cell) (target : Nat) : Cell := if target ∈ c.beam.commits then merged c else placed c target

theorem commitFor_new {c : Cell} {target : Nat} (h : target ∉ c.beam.commits) :
    commitFor c target = placed c target := if_neg h

theorem commitFor_pending {c : Cell} {target : Nat} (h : target ∈ c.beam.commits) :
    commitFor c target = merged c := if_pos h

/-- The frame of the tick at which a commit is accepted. -/
def commitFrame (c : Cell) : Nat := if c.atFrameEnd then (c.beam.frame + 1) % 4294967296 else c.beam.frame

/-- The transfer of the frame in progress has ended the frame. -/
def transferEnded (c : Cell) : Prop :=
  c.beam.endFrame = true ∧ c.beam.installAt = none ∧ c.atFrameEnd = false

/-- A commit comes before the cut of its frame. -/
def beforeCut (c : Cell) : Prop := ¬ transferEnded c ∧ c.nextPos.1 < c.cutLine

/-- A commit comes between the cut and the end of the transfer. -/
def lateCommit (c : Cell) : Prop :=
  ¬ transferEnded c ∧ c.cutLine ≤ c.nextPos.1 ∧
    (c.nextPos.1 < c.commitLine ∨ (c.nextPos.1 = c.commitLine ∧ c.nextPos.2 ≤ 63))

theorem not_beforeCut_of_late {c : Cell} (h : lateCommit c) : ¬ beforeCut c := fun hb => by
  have := h.2.1
  have := hb.2
  omega


/-- Merged or placed, a commit changes COMMIT_MERGED and the pending commits alone. -/
theorem commitFor_eq (c : Cell) (target : Nat) :
    commitFor c target =
      { c with
        io := if c.beam.commits.contains target then c.io.count16 0xE702 1 else c.io
        beam := { c.beam with
          commits := if c.beam.commits.contains target then c.beam.commits else c.beam.commits ++ [target] } } := by
  by_cases h : target ∈ c.beam.commits
  · rw [commitFor_pending h, List.contains_iff_mem.mpr h]
    rfl
  · rw [commitFor_new h, Bool.eq_false_iff.mpr (mt List.contains_iff_mem.mp h)]
    rfl

/-- A commit by its place: the transfer that it is for, and whether it is late. -/
theorem commit_eq {c : Cell} {before late : Bool} (hb : before = true ↔ beforeCut c)
    (hl : late = true ↔ lateCommit c) :
    c.commit =
      let k := commitFor c (if before then commitFrame c else (commitFrame c + 1) % 4294967296)
      let k' := Cell.raise { k with io := k.io.setBit 0xE701 2 true } 9
      if late then (if c.io.bit 0xE701 2 then k' else k'.emit (.notify 4 0 (c.beam.ctime + 1))) else k := by
  obtain ⟨ended, hended⟩ : ∃ e : Bool, (c.beam.endFrame && c.beam.installAt.isNone && !c.atFrameEnd) = e := ⟨_, rfl⟩
  have he : ended = true ↔ transferEnded c := by simp [← hended, transferEnded, and_assoc]
  have hbefore : (!ended && decide (c.nextPos.1 < c.cutLine)) = before := by
    rw [Bool.eq_iff_iff, hb, beforeCut, ← he]
    simp
  have hlate : (!ended && !before &&
      (decide (c.nextPos.1 < c.commitLine) || (c.nextPos.1 == c.commitLine && decide (c.nextPos.2 ≤ 63)))) = late := by
    rw [Bool.eq_iff_iff, hl, lateCommit, ← he, ← hbefore]
    cases ended with
    | true => simp
    | false => simp
  simp only [Cell.commit, hended, hbefore, hlate]
  rw [commitFor_eq]
  rfl

section
variable {c : Cell}

theorem commit_before (h : beforeCut c) : c.commit = commitFor c (commitFrame c) :=
  commit_eq (before := true) (late := false) (by simp [h]) (by simpa using fun hl => not_beforeCut_of_late hl h)

theorem commit_after (h : ¬ beforeCut c) (hl : ¬ lateCommit c) :
    c.commit = commitFor c ((commitFrame c + 1) % 4294967296) :=
  commit_eq (before := false) (late := false) (by simp [h]) (by simp [hl])

/-- A late commit sets COMMIT_LATE and raises its source, and notifies the host when the bit was 0. -/
theorem commit_late (h : lateCommit c) :
    c.commit =
      let k := commitFor c ((commitFrame c + 1) % 4294967296)
      let k' := Cell.raise { k with io := k.io.setBit 0xE701 2 true } 9
      if c.io.bit 0xE701 2 then k' else k'.emit (.notify 4 0 (c.beam.ctime + 1)) :=
  commit_eq (before := false) (late := true) (by simp [not_beforeCut_of_late h]) (by simp [h])

end

/-! ### Copies between sparse memories -/

theorem rd_copyBytes_of_not_mem (src : Bytes) {l : List Nat} {a : Nat} (h : a ∉ l) (dst : Bytes) :
    (copyBytes src l dst).rd a = dst.rd a := by
  induction l generalizing dst with
  | nil => rfl
  | cons b l ih =>
    exact (ih (List.not_mem_of_not_mem_cons h) _).trans (Bytes.rd_wr_other _ _ _ _ (List.ne_of_not_mem_cons h))

theorem rd_copyBytes_of_mem (src : Bytes) {l : List Nat} {a : Nat} (h : a ∈ l) {dst : Bytes} (hwf : dst.wf = true) :
    (copyBytes src l dst).rd a = src.rd a := by
  induction l generalizing dst with
  | nil => exact absurd h List.not_mem_nil
  | cons b l ih =>
    by_cases hl : a ∈ l
    · exact ih hl (Bytes.wr_wf _ _ _ hwf)
    · obtain rfl : a = b := (List.mem_cons.mp h).resolve_right hl
      exact (rd_copyBytes_of_not_mem src hl _).trans (Bytes.rd_wr_same _ _ _ hwf)

/-- A run of addresses. -/
theorem mem_run {a base n : Nat} : a ∈ (List.range n).map (base + ·) ↔ base ≤ a ∧ a < base + n := by
  simp only [List.mem_map, List.mem_range]
  constructor
  · rintro ⟨i, hi, rfl⟩
    omega
  · intro h
    exact ⟨a - base, by omega, by omega⟩

theorem changes_run {old new : Bytes} {base n : Nat} :
    changes old new ((List.range n).map (base + ·)) = true ↔
      ∃ a, base ≤ a ∧ a < base + n ∧ old.rd a ≠ new.rd a := by
  simp only [changes, List.any_eq_true, mem_run, bne_iff_ne, and_assoc]

/-! ### The transfer and its install tick (R174) -/

/-- The transfer as it stands at (COMMIT_LINE, 0). -/
theorem transfer_eq {c c1 : Cell} {snap : Bytes} (hsnap : c.beam.snap = some snap)
    (hrun : c.runTo c.commitLine 0 = some c1) (hdone : c1.beam.done.contains 4 = false) :
    c.transfer.eff = copyBytes snap transferEarly c1.eff ∧
    c.transfer.beam.installAt = some (c1.beam.ctime + 64) ∧
    c.transfer.beam.endFrame = changes c1.eff snap ((List.range 12).map (0xE73C + ·)) ∧
    c.transfer.beam.line = c1.beam.line ∧ c.transfer.beam.dot = c1.beam.dot ∧ c.transfer.mem = c1.mem ∧
    c.transfer.io = c1.io ∧
    c.transfer.core = { c1.core with spent := c1.coreCycles c1.beam.ctime, spentFrom := c1.beam.ctime } := by
  unfold Cell.transfer
  simp only [hsnap, eventAt_eq _ hrun hdone]
  exact ⟨rfl, rfl, rfl, rfl, rfl, rfl, rfl, rfl⟩

/-- The sequencer's read of an entry changes the sequencer alone (R179). -/
theorem latchEntry_eq (c : Cell) : ∃ q, c.latchEntry = { c with seq := q } := by
  unfold Cell.latchEntry
  dsimp only
  split
  · exact ⟨_, rfl⟩
  · exact ⟨_, rfl⟩

/-- An install's restart or new read of the sequencer changes the sequencer alone (R175, R179). -/
theorem reread_eq (c : Cell) : ∃ q, c.reread = { c with seq := q } := by
  unfold Cell.reread
  dsimp only
  split
  · exact ⟨_, rfl⟩
  · split
    · obtain ⟨q, hq⟩ := latchEntry_eq { c with seq := { c.seq with word := none, count := c.seq.count - 1 } }
      exact ⟨q, hq⟩
    · exact ⟨_, rfl⟩

/-- What is logged of the guards at the end of an install joins what the cell hands over. -/
theorem emitGuard_eq (c : Cell) (p : Prop) [Decidable p] :
    ∃ l, (if p then c else c.emitGuard) = { c with outq := l } := by
  split
  · exact ⟨_, rfl⟩
  · exact ⟨_, rfl⟩

/-- The install tick: a cell `k` with every framed value in effect, in which DONE is set and raised. -/
theorem install_eq {c c1 : Cell} {snap : Bytes} {t : Nat} (hsnap : c.beam.snap = some snap)
    (hat : c.beam.installAt = some t) (hrun : c.runToTime t = some c1) (hdone : c1.beam.done.contains 5 = false) :
    ∃ (k : Cell) (l : List Emit), c.install = { (k.setStat 6).raise 8 with outq := l } ∧
      k.eff = copyBytes snap framedAddrs c1.eff ∧ k.beam.snap = none ∧ k.beam.installAt = none ∧ k.mem = c1.mem ∧
      k.core = c1.core ∧ k.beam.ctime = c1.beam.ctime := by
  unfold Cell.install
  simp only [hsnap, hat, hrun, Option.bind_some, once_eq hdone]
  generalize hx : ({ marked c1 5 with eff := _, io := _, picture := _, audio := _, beam := _ } : Cell) = x
  obtain ⟨q, hq⟩ := reread_eq x
  rw [hq]
  refine (@emitGuard_eq ((({ x with seq := q } : Cell).setStat 6).raise 8) _ _).elim
    fun l hl => ⟨{ x with seq := q }, l, hl, ?_⟩
  subst hx
  simp only [marked, and_self]

/-! ### The cut (R173) -/

/-- The beam stops where its condition holds. -/
theorem passUntil_holds {p : Cell → Bool} {n : Nat} {c c1 : Cell} (h : Cell.passUntil p n c = some c1) :
    p c1 = true := by
  induction n generalizing c with
  | zero =>
    unfold Cell.passUntil at h
    split at h
    · rename_i hp
      rwa [← Option.some.inj h]
    · exact absurd h (by simp)
  | succ n ih =>
    unfold Cell.passUntil at h
    split at h
    · rename_i hp
      rwa [← Option.some.inj h]
    · obtain ⟨d, -, hd⟩ := Option.bind_eq_some_iff.mp h
      exact ih hd

theorem runTo_at {c c1 : Cell} {line dot : Nat} (h : c.runTo line dot = some c1) :
    c1.beam.line = line ∧ c1.beam.dot = dot := by
  unfold Cell.runTo at h
  split at h
  · simpa [Cell.isAt] using passUntil_holds h
  · exact absurd h (by simp)

/-- `d` differs from `c` in what a cut makes of the video layers: their status, the picture, and what is handed over. -/
def LayersChanged (c d : Cell) : Prop :=
  ∃ (io : Bytes) (p : Picture) (l : List Emit), d = { c with io := io, picture := p, outq := l } ∧
    io.rd 0xE701 = c.io.rd 0xE701

theorem LayersChanged.refl (c : Cell) : LayersChanged c c := ⟨_, _, _, rfl, rfl⟩

theorem LayersChanged.trans {c d e : Cell} (h : LayersChanged c d) (k : LayersChanged d e) : LayersChanged c e := by
  obtain ⟨_, _, _, rfl, hd⟩ := h
  obtain ⟨_, _, _, rfl, he⟩ := k
  exact ⟨_, _, _, rfl, he.trans hd⟩

/-- A layer's descriptor at the cut (R216). -/
theorem cutLayer_changes (c : Cell) (s : Bytes) (L : Nat) : LayersChanged c (c.cutLayer s L) := by
  unfold Cell.cutLayer
  dsimp only
  split
  · exact LayersChanged.refl c
  · split
    · exact ⟨_, _, _, rfl, rfl⟩
    · split
      · exact ⟨_, _, _, rfl, rfl⟩
      · exact ⟨c.io.setBit (0xE9A0 + 0x20 * L + 10) 1 true, _, _, rfl, rd_setBit_other _ _ _ (by omega)⟩

/-- What the cut does after the commit. -/
def cutLayers (c : Cell) : Cell :=
  let view := c.beam.snap.getD c.eff
  let c := if c.dry then c else (c.cutLayer view 0).cutLayer view 1
  if c.beam.snap.isSome then c
  else
    { c with picture := { c.picture with layers := c.picture.layers.map fun l =>
        { l with effect := l.next.or l.effect, next := none } } }

theorem cutLayers_changes (c : Cell) : LayersChanged c (cutLayers c) := by
  unfold cutLayers
  extract_lets view d
  have hd : LayersChanged c d := by
    unfold d
    split
    · exact LayersChanged.refl c
    · exact (cutLayer_changes _ _ _).trans (cutLayer_changes _ _ _)
  split
  · exact hd
  · exact hd.trans ⟨_, _, _, rfl, rfl⟩

/-- Every limit that a snapshot has to hold at the cut (R173). -/
def WithinLimits (c : Cell) : Prop := snapshotOk c.shadowsNow = true ∧ c.shadowsNow.rdN 0xE730 4 ≤ 4 * c.ioFreq

/-- The commit pending for this frame is discarded. -/
def discarded (c : Cell) : Cell :=
  { c with beam := { c.beam with commits := c.beam.commits.filter (· ≠ c.beam.frame) } }

/-- The snapshot for the commit pending for this frame is taken. -/
def snapped (c : Cell) : Cell :=
  { c with beam := { c.beam with
      snap := some c.shadowsNow, commits := c.beam.commits.filter (· ≠ c.beam.frame) ++ [c.beam.frame] } }

/-- The cut with a commit pending whose snapshot holds every limit. -/
theorem cut_taken {c c1 : Cell} (hrun : c.runTo c.cutLine 0 = some c1) (hdone : c1.beam.done.contains 3 = false)
    (hp : c1.beam.frame ∈ c1.beam.commits) (hok : WithinLimits c1) :
    c.cut = cutLayers (snapped (marked c1 3)) := by
  have hp' : (marked c1 3).beam.commits.contains (marked c1 3).beam.frame = true := List.contains_iff_mem.mpr hp
  have hok' : snapshotOk (marked c1 3).shadowsNow = true ∧
      (marked c1 3).shadowsNow.rdN 0xE730 4 ≤ 4 * (marked c1 3).ioFreq := hok
  rw [Cell.cut, eventAt_eq _ hrun hdone]
  dsimp only
  rw [if_pos hp', if_pos hok']
  rfl

/-- The cut with a commit pending whose snapshot breaks a limit. -/
theorem cut_refused {c c1 : Cell} (hrun : c.runTo c.cutLine 0 = some c1) (hdone : c1.beam.done.contains 3 = false)
    (hp : c1.beam.frame ∈ c1.beam.commits) (hok : ¬ WithinLimits c1) :
    c.cut = cutLayers (((discarded (marked c1 3)).setStat 3).raise 10) := by
  have hp' : (marked c1 3).beam.commits.contains (marked c1 3).beam.frame = true := List.contains_iff_mem.mpr hp
  have hok' : ¬ (snapshotOk (marked c1 3).shadowsNow = true ∧
      (marked c1 3).shadowsNow.rdN 0xE730 4 ≤ 4 * (marked c1 3).ioFreq) := hok
  rw [Cell.cut, eventAt_eq _ hrun hdone]
  dsimp only
  rw [if_pos hp', if_neg hok']
  rfl

/-- The cut with no commit pending. -/
theorem cut_idle {c c1 : Cell} (hrun : c.runTo c.cutLine 0 = some c1) (hdone : c1.beam.done.contains 3 = false)
    (hp : c1.beam.frame ∉ c1.beam.commits) : c.cut = cutLayers (marked c1 3) := by
  have hp' : ¬ (marked c1 3).beam.commits.contains (marked c1 3).beam.frame = true := mt List.contains_iff_mem.mp hp
  rw [Cell.cut, eventAt_eq _ hrun hdone]
  dsimp only
  rw [if_neg hp']
  rfl

theorem LayersChanged.keeps {c d : Cell} (h : LayersChanged c d) :
    d.eff = c.eff ∧ d.mem = c.mem ∧ d.core = c.core ∧ d.beam = c.beam ∧ d.intc = c.intc ∧
    d.io.rd 0xE701 = c.io.rd 0xE701 := by
  obtain ⟨_, _, _, rfl, hio⟩ := h
  exact ⟨rfl, rfl, rfl, rfl, rfl, hio⟩

section
variable {c c1 : Cell} (hrun : c.runTo c.cutLine 0 = some c1) (hdone : c1.beam.done.contains 3 = false)
include hrun hdone

/-- The snapshot taken at the cut. -/
theorem cut_snap_of_taken (hp : c1.beam.frame ∈ c1.beam.commits) (hok : WithinLimits c1) :
    c.cut.beam.snap = some c1.shadowsNow ∧ c1.beam.frame ∈ c.cut.beam.commits := by
  rw [cut_taken hrun hdone hp hok]
  obtain ⟨-, -, -, hbeam, -⟩ := (cutLayers_changes (snapped (marked c1 3))).keeps
  rw [hbeam]
  exact ⟨rfl, List.mem_append_right _ List.mem_cons_self⟩

/-- A refused snapshot: the commit is discarded, and COMMIT_BAD is set and raised. -/
theorem cut_bad_of_refused (hp : c1.beam.frame ∈ c1.beam.commits) (hok : ¬ WithinLimits c1) :
    c.cut.beam.snap = c1.beam.snap ∧ c1.beam.frame ∉ c.cut.beam.commits ∧ c.cut.io.bit 0xE701 3 = true ∧
    c.cut.intc.pend.getLsbD 10 = true := by
  rw [cut_refused hrun hdone hp hok]
  obtain ⟨-, -, -, hbeam, hintc, hio⟩ :=
    (cutLayers_changes (((discarded (marked c1 3)).setStat 3).raise 10)).keeps
  rw [hbeam, hintc, Bytes.bit, hio, raise_beam, raise_io]
  refine ⟨rfl, ?_, bit_setBit_same _ _ (by decide), raise_pending _ 10 (by decide)⟩
  simp [Cell.setStat, discarded, marked]

/-- A cut with no commit pending. -/
theorem cut_commits_of_idle (hp : c1.beam.frame ∉ c1.beam.commits) :
    c.cut.beam.snap = c1.beam.snap ∧ c.cut.beam.commits = c1.beam.commits ∧ c.cut.intc.pend = c1.intc.pend := by
  rw [cut_idle hrun hdone hp]
  obtain ⟨-, -, -, hbeam, hintc, -⟩ := (cutLayers_changes (marked c1 3)).keeps
  rw [hbeam, hintc]
  exact ⟨rfl, rfl, rfl⟩

/-- What every cut leaves, and that it is made. -/
theorem cut_keeps :
    c.cut.eff = c1.eff ∧ c.cut.mem = c1.mem ∧ c.cut.core = c1.core ∧ c.cut.beam.line = c1.beam.line ∧
    c.cut.beam.dot = c1.beam.dot ∧ c.cut.beam.done = 3 :: c1.beam.done := by
  by_cases hp : c1.beam.frame ∈ c1.beam.commits
  · by_cases hok : WithinLimits c1
    · rw [cut_taken hrun hdone hp hok]
      obtain ⟨heff, hmem, hcore, hbeam, -⟩ := (cutLayers_changes (snapped (marked c1 3))).keeps
      rw [heff, hmem, hcore, hbeam]
      exact ⟨rfl, rfl, rfl, rfl, rfl, rfl⟩
    · rw [cut_refused hrun hdone hp hok]
      obtain ⟨heff, hmem, hcore, hbeam, -⟩ :=
        (cutLayers_changes (((discarded (marked c1 3)).setStat 3).raise 10)).keeps
      rw [heff, hmem, hcore, hbeam, raise_eff, raise_mem, raise_core, raise_beam]
      exact ⟨rfl, rfl, rfl, rfl, rfl, rfl⟩
  · rw [cut_idle hrun hdone hp]
    obtain ⟨heff, hmem, hcore, hbeam, -⟩ := (cutLayers_changes (marked c1 3)).keeps
    rw [heff, hmem, hcore, hbeam]
    exact ⟨rfl, rfl, rfl, rfl, rfl, rfl⟩

/-- The cell stands at its cut with the cut made, when the cut line in effect is still the one that it ran to. -/
theorem cut_cutMade (hline : c1.cutLine = c.cutLine) : c.cut.cutMade = true := by
  obtain ⟨heff, -, -, hl, hd, hmade⟩ := cut_keeps hrun hdone
  obtain ⟨hat, hat0⟩ := runTo_at hrun
  have hcut : c.cut.cutLine = c.cutLine := by rw [← hline, Cell.cutLine, Cell.cutLine, Cell.ef16, heff, Cell.ef16]
  simp [Cell.cutMade, Cell.isAt, hl, hd, hmade, hat, hat0, hcut]

end

/-- Whether the cut has been made depends on the beam and the registers in effect alone. -/
theorem cutMade_congr {x y : Cell} (h : beamAndUtil x = beamAndUtil y) : x.cutMade = y.cutMade := by
  obtain ⟨hbeam, hrest⟩ := Prod.mk.inj h
  obtain ⟨heff, -⟩ := Prod.mk.inj hrest
  simp only [Cell.cutMade, Cell.isAt, Cell.cutLine, Cell.ef16, hbeam, heff]

/-- A cut that is now made ends the layers' reads of the frame before (R386). -/
theorem cutEvent_eq {s : State} {ch : Nat} {c : Cell} (h : s.runsOn ch c) (hbefore : c.cutMade = false)
    (hafter : c.cut.cutMade = true) :
    s.cutEvent ch = (s.becomes ch c.cut).onChan ch Chan.dropReads := by
  obtain ⟨y, hy, hkeep⟩ := cell_of_becomes h c.cut
  have hmade : y.cutMade = true := (cutMade_congr hkeep).trans hafter
  simp only [State.cutEvent, State.cellEvent_congr (f := Cell.cut) h.1 rfl]
  rw [show (s.cellEvent ch fun _ => c.cut) = s.becomes ch c.cut from rfl, h.1, hy]
  simp [hbefore, hmade]

/-- Settles O21: commits by their place, and the cut, the transfer and the install tick by the cell that each leaves. -/
theorem commitsCutsAndTransfers : Obligations.CommitsCutsAndTransfers := by
  unfold Obligations.CommitsCutsAndTransfers
  refine ⟨?commit, ?cut, ?transfer⟩
  case commit =>
    intro s ch c h pos f next ended before placed' merged' late
    refine ⟨?_, ?_, ?_, ?_, ?_⟩
    · exact fun hb hn => next_of_cellEvent h ((commit_before hb).trans (commitFor_new hn))
    · exact fun hb hp => next_of_cellEvent h ((commit_before hb).trans (commitFor_pending hp))
    · exact fun hb hl hn => next_of_cellEvent h ((commit_after hb hl).trans (commitFor_new hn))
    · exact fun hb hl hp => next_of_cellEvent h ((commit_after hb hl).trans (commitFor_pending hp))
    · intro hl k hk
      have hfor : commitFor c next = k := by
        rcases hk with ⟨hn, rfl⟩ | ⟨hp, rfl⟩
        · exact commitFor_new hn
        · exact commitFor_pending hp
      have hcommit := commit_late hl
      rw [show (commitFrame c + 1) % 4294967296 = next from rfl, hfor] at hcommit
      constructor
      · exact fun hset => next_of_cellEvent h (hcommit.trans (if_pos hset))
      · intro hclear
        exact next_of_cellEvent h (hcommit.trans (if_neg (by rw [hclear]; exact Bool.false_ne_true)))
  case cut =>
    intro s ch c c1 h hrun hdone _ hbefore hline f ok
    have hmade : c.cutMade = false := by
      rw [Cell.cutMade, Bool.and_eq_false_iff]
      exact hbefore.imp (fun hat => Bool.eq_false_iff.mpr hat) (fun hd => Bool.eq_false_iff.mpr hd)
    obtain ⟨heff, hmem, hcore, hl, hd, -⟩ := cut_keeps hrun hdone
    exact ⟨c.cut, congrArg Host.Outcome.next (cutEvent_eq h hmade (cut_cutMade hrun hdone hline)), fun _ => rfl,
      cut_snap_of_taken hrun hdone, cut_bad_of_refused hrun hdone, cut_commits_of_idle hrun hdone,
      heff, hmem, hcore, hl, hd⟩
  case transfer =>
    intro s ch c c1 snap h hsnap heffwf _
    constructor
    · intro hrun hdone
      obtain ⟨heff, hat, hend, hl, hd, hmem, hio, hcore⟩ := transfer_eq hsnap hrun hdone
      refine ⟨c.transfer, next_of_cellEvent h rfl, ?_, ?_, hat, ?_, hl, hd, hmem, hio, hcore⟩
      · intro a hlo hhi
        rw [heff]
        exact rd_copyBytes_of_mem snap (mem_run.mpr ⟨hlo, hhi⟩) heffwf
      · intro a ha
        rw [heff]
        refine rd_copyBytes_of_not_mem snap (fun hmem' => ?_) _
        have := mem_run.mp hmem'
        omega
      · rw [hend]
        exact changes_run
    · intro t hat hrun hdone
      obtain ⟨k, l, hinstall, heff, hs, hi, hmem, hcore, ht⟩ := install_eq hsnap hat hrun hdone
      refine ⟨c.install, next_of_cellEvent h rfl, ?_⟩
      rw [hinstall]
      dsimp only
      rw [raise_eff, raise_beam, raise_io, raise_mem, raise_core]
      refine ⟨?_, ?_, hs, hi, bit_setBit_same _ _ (by decide), raise_pending _ 8 (by decide), hmem, hcore, ht⟩
      · intro a ha
        exact (congrArg (·.rd a) heff).trans (rd_copyBytes_of_mem snap ha heffwf)
      · intro a ha
        exact (congrArg (·.rd a) heff).trans (rd_copyBytes_of_not_mem snap ha _)

end Sys2Proof.BeamAndRaster
end

section
/-! PROOFS. The frame boundary, VBL, the blink phase and the beam compares. -/

namespace Sys2Proof.BeamAndRaster

open Sys2Proof.Machine Sys2Proof.DecodeAndPace

/-! ### The beam compares (R164) -/

section
variable {c c1 : Cell} {n : Nat}

/-- A match of the compare, where the beam stands for it. -/
theorem compareMatch_of_found
    (hfound : (c.compareOld n).orElse (fun _ => c.compareNext n (c.io.rdN (0xE708 + 4 * n) 4)) = some c1)
    (hdone : c1.beam.done.contains n = false) :
    c.compareMatch n = ((marked c1 n).setStat n).raise (4 + n) := by
  rw [Cell.compareMatch, hfound, Option.bind_some, once_eq hdone]

theorem compareMatch_of_not_found
    (hfound : (c.compareOld n).orElse (fun _ => c.compareNext n (c.io.rdN (0xE708 + 4 * n) 4)) = none) :
    c.compareMatch n = c := by
  rw [Cell.compareMatch, hfound, Option.bind_none]

/-- After its acceptance a value is compared alone. -/
theorem compareOld_accepted (hacc : c.beam.bcAccepted.getD n 0 < c.beam.ctime) : c.compareOld n = none := by
  simp only [Cell.compareOld, hacc, if_true]

/-- Up to the acceptance the value before is compared where the beam stands. -/
theorem compareOld_here (hacc : c.beam.ctime ≤ c.beam.bcAccepted.getD n 0)
    (hhere : c.compareHere (c.beam.bcOld.getD n 0) = true) (hdone : c.beam.done.contains n = false) :
    c.compareOld n = some c := by
  have hnot : ¬ c.beam.bcAccepted.getD n 0 < c.beam.ctime := Nat.not_lt.mpr hacc
  simp only [Cell.compareOld, hnot, hhere, hdone, Bool.false_eq_true, not_false_iff, and_self, if_false, if_true]

/-- A value with EN = 0 is not compared. -/
theorem compareNext_disabled {r : Nat} (hen : r.testBit 31 = false) : c.compareNext n r = none := by
  simp only [Cell.compareNext, hen, Bool.false_eq_true, false_and, if_false]

/-- The line on which an accepted value next matches: with EL = 1, the first on which the beam passes its dot. -/
def compareLine (c : Cell) (r : Nat) : Nat :=
  if r.testBit 26 then (if c.beam.dot < bitsOf r 10 0 then c.beam.line else c.beam.line + 1) else bitsOf r 25 16

/-- A value accepted before the present tick matches where the beam next comes to its position. -/
theorem compareNext_eq {r : Nat} (hacc : c.beam.bcAccepted.getD n 0 < c.beam.ctime) (hen : r.testBit 31 = true)
    (hne : r.testBit 26 = true → c.beam.dot ≠ bitsOf r 10 0) (hdot : bitsOf r 10 0 < c.hTotal)
    (hline : compareLine c r < c.vTotal) (hrun : c.runTo (compareLine c r) (bitsOf r 10 0) = some c1)
    (hacc1 : c.beam.bcAccepted.getD n 0 < c1.beam.ctime) : c.compareNext n r = some c1 := by
  have hl : (if ¬ r.testBit 26 then bitsOf r 25 16
      else if (c.beam.dot < bitsOf r 10 0 ∨ (c.beam.dot = bitsOf r 10 0 ∧ ¬ c.beam.done.contains n)) ∧
        c.beam.bcAccepted.getD n 0 < c.beam.ctime + (bitsOf r 10 0 - c.beam.dot) then c.beam.line
      else if c.beam.bcAccepted.getD n 0 < c.beam.ctime + (c.hTotal - c.beam.dot) + bitsOf r 10 0 then c.beam.line + 1
      else c.beam.line + 2) = compareLine c r := by
    cases hel : r.testBit 26 with
    | false => simp [compareLine, hel]
    | true =>
      have hnow : c.beam.bcAccepted.getD n 0 < c.beam.ctime + (bitsOf r 10 0 - c.beam.dot) := by omega
      have hthen : c.beam.bcAccepted.getD n 0 < c.beam.ctime + (c.hTotal - c.beam.dot) + bitsOf r 10 0 := by omega
      simp only [compareLine, hel, hne hel, hnow, hthen, false_and, or_false, and_true, not_true, if_false, if_true]
  simp only [Cell.compareNext, hl, hen, hdot, hline, hrun, and_self, if_true, Option.bind_some, hacc1]

end

/-! ### What the start of a tick leaves (R167, R179, R190, R194) -/

/-- What no start of a tick changes: the memory, the core, the beam's time and its commits. -/
structure EnterKeeps (c d : Cell) : Prop where
  mem : d.mem = c.mem
  core : d.core = c.core
  ctime : d.beam.ctime = c.beam.ctime
  frame : d.beam.frame = c.beam.frame
  commits : d.beam.commits = c.beam.commits

theorem EnterKeeps.refl (c : Cell) : EnterKeeps c c := ⟨rfl, rfl, rfl, rfl, rfl⟩

theorem EnterKeeps.trans {c d e : Cell} (h : EnterKeeps c d) (k : EnterKeeps d e) : EnterKeeps c e :=
  ⟨k.mem.trans h.mem, k.core.trans h.core, k.ctime.trans h.ctime, k.frame.trans h.frame, k.commits.trans h.commits⟩

theorem applyLive_keeps (c : Cell) (op : LiveOp) : EnterKeeps c (c.applyLive op) := by
  cases op with
  | byte a v => exact ⟨rfl, rfl, rfl, rfl, rfl⟩
  | palette i col => exact ⟨rfl, rfl, rfl, rfl, rfl⟩
  | table sel i v => exact ⟨rfl, rfl, rfl, rfl, rfl⟩

theorem promote_keeps (c : Cell) : EnterKeeps c c.promote := by
  have hfold (l : List LiveWrite) (d : Cell) (h : EnterKeeps c d) :
      EnterKeeps c (l.foldl (fun c w => c.applyLive w.op) d) := by
    induction l generalizing d with
    | nil => exact h
    | cons w l ih => exact ih _ (h.trans (applyLive_keeps d w.op))
  unfold Cell.promote
  split
  · exact EnterKeeps.refl c
  · exact hfold _ _ ⟨rfl, rfl, rfl, rfl, rfl⟩

theorem latchEntry_keeps (c : Cell) : EnterKeeps c c.latchEntry := by
  obtain ⟨q, hq⟩ := latchEntry_eq c
  rw [hq]
  exact ⟨rfl, rfl, rfl, rfl, rfl⟩

theorem spriteTick_eq (c : Cell) : ∃ sp, c.spriteTick = { c with sprites := sp } := by
  unfold Cell.spriteTick
  extract_lets b nextY target fill sprites d
  obtain ⟨sp, hd⟩ : ∃ sp, d = { c with sprites := sp } := by
    unfold d
    split
    · exact ⟨_, rfl⟩
    · exact ⟨_, rfl⟩
  rw [hd]
  dsimp only
  split
  · exact ⟨_, rfl⟩
  · exact ⟨_, rfl⟩

theorem composeGroup_eq (c : Cell) : ∃ p sp, c.composeGroup = { c with picture := p, sprites := sp } := by
  unfold Cell.composeGroup
  dsimp only
  split
  · exact ⟨_, _, rfl⟩
  · exact ⟨_, _, rfl⟩

theorem enterTick_keeps (c : Cell) : EnterKeeps c c.enterTick := by
  unfold Cell.enterTick
  split
  · exact EnterKeeps.refl c
  · have h := (promote_keeps c).trans (latchEntry_keeps _)
    obtain ⟨sp, hsp⟩ := spriteTick_eq c.promote.latchEntry
    obtain ⟨p, sp', hp⟩ := composeGroup_eq c.promote.latchEntry.spriteTick
    rw [hp, hsp]
    exact h.trans ⟨rfl, rfl, rfl, rfl, rfl⟩

/-! ### What the blocks that follow the beam leave (R149, R229, R278, R287, R351) -/

/-- What the blocks that follow the beam at a frame boundary leave of a cell. -/
structure TickKeeps (c d : Cell) : Prop where
  beam : d.beam = c.beam
  mem : d.mem = c.mem
  enable : d.eff.rd 0xE763 = c.eff.rd 0xE763
  pc : d.core.pc = c.core.pc
  g : d.core.g = c.core.g
  p : d.core.p = c.core.p
  busy : d.core.busy = c.core.busy

theorem TickKeeps.refl (c : Cell) : TickKeeps c c := ⟨rfl, rfl, rfl, rfl, rfl, rfl, rfl⟩

theorem TickKeeps.trans {c d e : Cell} (h : TickKeeps c d) (k : TickKeeps d e) : TickKeeps c e :=
  ⟨k.beam.trans h.beam, k.mem.trans h.mem, k.enable.trans h.enable, k.pc.trans h.pc, k.g.trans h.g, k.p.trans h.p,
    k.busy.trans h.busy⟩

theorem paceAdd_keeps (c : Cell) (n : Nat) : TickKeeps c (c.paceAdd n) := by
  unfold Cell.paceAdd
  dsimp only
  split
  · exact ⟨rfl, rfl, rfl, rfl, rfl, rfl, rfl⟩
  · exact ⟨rfl, rfl, rfl, rfl, rfl, rfl, rfl⟩

theorem restartPace_keeps (c : Cell) : TickKeeps c c.restartPace := by
  unfold Cell.restartPace
  split
  · exact ⟨rfl, rfl, rfl, rfl, rfl, rfl, rfl⟩
  · exact TickKeeps.refl c

theorem paceTick_keeps (c : Cell) : TickKeeps c c.paceTick := by
  have hanew : TickKeeps c { c with core := { c.core with paceAcc := 0, paceRestart := false } } :=
    ⟨rfl, rfl, rfl, rfl, rfl, rfl, rfl⟩
  unfold Cell.paceTick Cell.paceTicks
  split
  · exact (hanew.trans (restartPace_keeps _)).trans (paceAdd_keeps _ _)
  · exact paceAdd_keeps c 1

/-- No register of the chip domain is one of the sequencer's. -/
theorem not_mem_chipRegs (p : Nat → Bool) : 0xE763 ∉ chipRegs.filter p := by
  intro h
  exact absurd (List.mem_filter.mp h).1 (by decide)

theorem chipTick_keeps (c : Cell) : TickKeeps c c.chipTick := by
  have hput (p : Nat → Bool) (b : Bool) (e : Bytes) :
      (if b then copyBytes c.io (chipRegs.filter p) e else e).rd 0xE763 = e.rd 0xE763 := by
    split
    · exact rd_copyBytes_of_not_mem _ (not_mem_chipRegs p) e
    · rfl
  have hclick (e : Bytes) :
      (if c.audio.clickDirty then e.wr 0xEB50 (c.io.rd 0xEB50) else e).rd 0xE763 = e.rd 0xE763 := by
    split
    · exact Bytes.rd_wr_other _ _ _ _ (by decide)
    · rfl
  refine ⟨rfl, rfl, ?_, rfl, rfl, rfl, rfl⟩
  exact (hput _ _ _).trans ((hclick _).trans (hput _ _ _))

theorem chipDot_keeps (c : Cell) : TickKeeps c c.chipDot := by
  unfold Cell.chipDot
  split
  · exact chipTick_keeps c
  · exact ⟨rfl, rfl, rfl, rfl, rfl, rfl, rfl⟩

theorem timerSource_keeps (c : Cell) (e : TimerSource) : TickKeeps c (c.timerSource e) :=
  ⟨rfl, rfl, rfl, rfl, rfl, rfl, rfl⟩

theorem dmaEvent_keeps (c : Cell) (req : Nat) : TickKeeps c (c.dmaEvent req) := by
  unfold Cell.dmaEvent
  generalize List.range 4 = l
  suffices hfold : ∀ d, TickKeeps c d → TickKeeps c (l.foldl _ d) from hfold c (TickKeeps.refl c)
  induction l with
  | nil => exact fun d h => h
  | cons n l ih =>
    intro d h
    refine ih _ (h.trans ?_)
    dsimp only
    split
    · exact TickKeeps.refl d
    · split
      · exact ⟨rfl, rfl, rfl, rfl, rfl, rfl, rfl⟩
      · exact ⟨rfl, rfl, rfl, rfl, rfl, rfl, rfl⟩

theorem lineTick_keeps (c : Cell) (active : Bool) : TickKeeps c (c.lineTick active) := by
  unfold Cell.lineTick
  dsimp only
  split
  · exact (timerSource_keeps c .line).trans (dmaEvent_keeps _ _)
  · exact timerSource_keeps c .line

theorem encoderFrame_keeps (c : Cell) : TickKeeps c c.encoderFrame := by
  unfold Cell.encoderFrame
  extract_lets p k held freed clear cloneOn requested io d
  have hd : TickKeeps c d := ⟨rfl, rfl, rfl, rfl, rfl, rfl, rfl⟩
  split
  · exact hd
  · exact hd.trans ⟨rfl, rfl, rfl, rfl, rfl, rfl, rfl⟩

/-! ### The frame boundary (R161, R163, R175) -/

/-- The cell `d` is at the (0, 0) that follows the last tick of a frame, at which the cell was `c`. -/
structure FrameBegins (c d : Cell) : Prop where
  line : d.beam.line = 0
  dot : d.beam.dot = 0
  ctime : d.beam.ctime = c.beam.ctime + 1
  frame : d.beam.frame = (c.beam.frame + 1) % 4294967296
  commits : d.beam.commits = c.beam.commits
  boundary : d.beam.boundary = true
  mem : d.mem = c.mem
  enable : d.eff.rd 0xE763 = c.enterTick.eff.rd 0xE763
  pc : d.core.pc = c.core.pc
  g : d.core.g = c.core.g
  p : d.core.p = c.core.p
  busy : d.core.busy = 0

theorem FrameBegins.of_keeps {c d e : Cell} (h : FrameBegins c d) (k : TickKeeps d e) : FrameBegins c e where
  line := by rw [k.beam, h.line]
  dot := by rw [k.beam, h.dot]
  ctime := by rw [k.beam, h.ctime]
  frame := by rw [k.beam, h.frame]
  commits := by rw [k.beam, h.commits]
  boundary := by rw [k.beam, h.boundary]
  mem := k.mem.trans h.mem
  enable := k.enable.trans h.enable
  pc := k.pc.trans h.pc
  g := k.g.trans h.g
  p := k.p.trans h.p
  busy := k.busy.trans h.busy

/-- The blocks that follow the beam at a frame boundary. -/
theorem boundaryBlocks_keep (c : Cell) :
    TickKeeps c ((c.paceTick.chipDot.lineTick true).timerSource .frame).encoderFrame :=
  ((((paceTick_keeps c).trans (chipDot_keeps _)).trans (lineTick_keeps _ true)).trans
    (timerSource_keeps _ .frame)).trans (encoderFrame_keeps _)

/-- The frame boundary: at (0, 0) of the next frame the sequencer starts, and FRAME is set and raised. -/
theorem frameBoundary_eq {c c1 : Cell} (hpass : Cell.passUntil Cell.atFrameEnd c.dotsLeft c = some c1)
    (hruns : c1.beamRuns = true) :
    ∃ d, c.frameBoundary = (d.seqStart.setStat 5).raise 7 ∧ FrameBegins c1 d := by
  have he := enterTick_keeps c1
  have hcore {α : Type} (f : Core → α) : f c1.enterTick.core = f c1.core := congrArg f he.core
  rw [Cell.frameBoundary, hpass]
  dsimp only
  rw [if_neg (by simp [hruns])]
  refine ⟨_, rfl, FrameBegins.of_keeps ?_ (boundaryBlocks_keep _)⟩
  exact ⟨rfl, rfl, congrArg (· + 1) he.ctime, congrArg (fun f => (f + 1) % 4294967296) he.frame, he.commits, rfl,
    he.mem, rfl, hcore (·.pc), hcore (·.g), hcore (·.p), rfl⟩

/-- What the ringmaster notes of a frame that has ended with a UTIL of `util` (R412, R425). -/
def noteFrame (util : Byte) (k : Chan) : Chan :=
  { k with sinceSnap := k.sinceSnap + 1, u := if k.u.toNat < util.toNat then util else k.u }

/-- A frame boundary that the beam passes is noted by the ringmaster. -/
theorem frameEvent_eq {s : State} {ch : Nat} {c : Cell} (h : s.runsOn ch c)
    (hframe : c.frameBoundary.beam.frame ≠ c.beam.frame) :
    s.frameEvent ch =
      (s.becomes ch c.frameBoundary).onChan ch (noteFrame (c.frameBoundary.io.rd 0xE094)) := by
  obtain ⟨y, hy, hkeep⟩ := cell_of_becomes h c.frameBoundary
  obtain ⟨hbeam, hrest⟩ := Prod.mk.inj hkeep
  obtain ⟨-, hutil⟩ := Prod.mk.inj hrest
  have hne : ¬ y.beam.frame = c.beam.frame := by rwa [hbeam]
  simp only [State.frameEvent, State.cellEvent_congr (f := Cell.frameBoundary) h.1 rfl]
  rw [show (s.cellEvent ch fun _ => c.frameBoundary) = s.becomes ch c.frameBoundary from rfl, h.1, hy,
    Option.elim_some, Option.elim_some, if_neg hne]
  simp only [State.onChan, noteFrame, hy, Option.elim_some, hutil]

/-! ### VBL and the blink phase (R165, R189) -/

theorem vbl_eq {c c1 : Cell} (hrun : c.runTo c.vActive 0 = some c1) (hdone : c1.beam.done.contains 2 = false) :
    c.vbl = ((marked c1 2).setStat 4).raise 6 := eventAt_eq _ hrun hdone

theorem blinkToggle_inside {c : Cell} (h : c.beam.boundary = false) : c.blinkToggle = c := by
  simp only [Cell.blinkToggle, h, Bool.false_eq_true, false_and, if_false]

theorem blinkToggle_boundary {c : Cell} (h : c.beam.boundary = true) (he : c.beam.entered = false)
    (hhalf : c.eff.rd 0xE7C0 ≠ 0#8) (hcount : (c.eff.rd 0xE7C0).toNat ≤ c.beam.blinkCount) :
    c.blinkToggle =
      { c with
        beam := { c.beam with blinkCount := 0 }
        io := c.io.wr 0xE7C1 (c.io.rd 0xE7C1 ^^^ 1#8) } := by
  have hne : c.ef 0xE7C0 ≠ 0 := fun h0 => hhalf (BitVec.eq_of_toNat_eq h0)
  have hle : c.ef 0xE7C0 ≤ c.beam.blinkCount := hcount
  simp only [Cell.blinkToggle, h, he, hne, hle, Bool.false_eq_true, not_false_iff, ne_eq, and_self, if_true]

/-- Settles O20: the boundary by the blocks that follow the beam, and each other event by its position. -/
theorem frameAndBeamEvents : Obligations.FrameAndBeamEvents := by
  unfold Obligations.FrameAndBeamEvents
  constructor
  · intro s ch c c1 h
    refine ⟨?boundary, ?vbl, ?inside, ?toggle⟩
    case boundary =>
      intro hpass hruns hsame _ _
      obtain ⟨d, hd, hb⟩ := frameBoundary_eq hpass hruns
      have hne : c.frameBoundary.beam.frame ≠ c.beam.frame := by
        rw [hd, raise_beam, show (d.seqStart.setStat 5).beam = d.beam from rfl, hb.frame, hsame]
        omega
      refine ⟨c.frameBoundary, congrArg Host.Outcome.next (frameEvent_eq h hne), ?_⟩
      rw [hd]
      simp only [raise_beam, raise_io, raise_seq, raise_core, raise_mem]
      exact ⟨hb.line, hb.dot, hb.ctime, hb.frame, hb.commits, raise_pending _ 7 (by decide),
        bit_setBit_same _ _ (by decide), rfl, rfl, rfl, congrArg (·.getLsbD 0) hb.enable, hb.boundary, hb.busy, hb.pc,
        hb.g, hb.p, hb.mem⟩
    case vbl => exact fun hrun hdone => next_of_cellEvent h (vbl_eq hrun hdone)
    case inside => exact fun hb => next_of_cellEvent h (blinkToggle_inside hb)
    case toggle =>
      exact fun hb he hhalf hcount => next_of_cellEvent h (blinkToggle_boundary hb he hhalf hcount)
  · intro s ch n c c1 h hn r dot line acc old matched
    refine ⟨?accepted, ?before, ?disabled⟩
    case accepted =>
      intro hacc hen hne hdot hline hrun hacc1 hdone
      have hfound := compareNext_eq hacc hen hne hdot hline hrun hacc1
      exact next_of_cellEvent h
        (compareMatch_of_found (by rw [compareOld_accepted hacc]; exact hfound) hdone)
    case before =>
      intro hacc hhere hdone
      exact next_of_cellEvent h
        (compareMatch_of_found (by rw [compareOld_here hacc hhere hdone]; rfl) hdone)
    case disabled =>
      intro hacc hen
      exact next_of_cellEvent h
        (compareMatch_of_not_found (by rw [compareOld_accepted hacc]; exact compareNext_disabled hen))

end Sys2Proof.BeamAndRaster
end

section
/-! PROOFS. The sprite search of a line, and the collisions at a dot. -/

namespace Sys2Proof.TilesAndSprites

open Sys2Proof.Machine Sys2Proof.DecodeAndPace Sys2Proof.BeamAndRaster

theorem raise_sprites (c : Cell) (s : Nat) : (c.raise s).sprites = c.sprites := by
  obtain ⟨i, h, -⟩ := raise_eq c s
  rw [h]

/-! ### The allowance of a line (R198) -/

theorem cost_withinAllowance_le (b : Nat) (l : List SpriteHit) : ((withinAllowance b l).map (·.cost)).sum ≤ b := by
  induction l generalizing b with
  | nil => exact Nat.zero_le b
  | cons x l ih =>
    rw [withinAllowance]
    split
    case isTrue hx =>
      have hrest := ih (b - x.cost)
      rw [List.map_cons, List.sum_cons]
      omega
    case isFalse => exact Nat.zero_le b

theorem withinAllowance_isPrefix (b : Nat) (l : List SpriteHit) : withinAllowance b l <+: l := by
  induction l generalizing b with
  | nil => exact ⟨[], rfl⟩
  | cons x l ih =>
    rw [withinAllowance]
    split
    · obtain ⟨rest, hrest⟩ := ih (b - x.cost)
      exact ⟨rest, congrArg (x :: ·) hrest⟩
    · exact ⟨x :: l, rfl⟩

/-! ### Where the search of a line is resolved (R199) -/

/-- The line at whose dot 64 the beam next resolves a search. -/
def searchLine (c : Cell) : Nat :=
  if c.beam.dot < 64 ∨ (c.beam.dot = 64 ∧ ¬ c.beam.done.contains 7) then c.beam.line else c.beam.line + 1

theorem searchTick_eq {c : Cell} (hwide : 64 < c.hTotal) (hdue : c.sprites.due = none) :
    c.searchTick = c.runTo (searchLine c) 64 := by
  have hnot : ¬ c.hTotal ≤ 64 := Nat.not_le.mpr hwide
  simp only [Cell.searchTick, hdue, hnot, Option.isSome_none, Bool.false_eq_true, false_and, or_self, and_false,
    if_false]
  rfl

/-! ### The registers of the drops (R195, R198, R199) -/

theorem bit_orb {m : Bytes} (hwf : m.wf = true) (a i : Nat) (v : Byte) :
    (m.orb a v).bit a i = (m.bit a i || v.getLsbD i) := by
  rw [Bytes.bit, Bytes.orb, Bytes.rd_wr_same _ _ _ hwf, BitVec.getLsbD_or, Bytes.bit]

theorem rd_orb_other (m : Bytes) {a b : Nat} (v : Byte) (h : b ≠ a) : (m.orb a v).rd b = m.rd b :=
  Bytes.rd_wr_other _ _ _ _ h

theorem rd_wrN_two_other (m : Bytes) {a b : Nat} (v : Nat) (h : b < a ∨ a + 1 < b) : (m.wrN a 2 v).rd b = m.rd b := by
  have h0 : b ≠ a := by omega
  have h1 : b ≠ a + 1 := by omega
  simp only [Bytes.wrN, Bytes.rd_wr_other _ _ _ _ h1, Bytes.rd_wr_other _ _ _ _ h0]

/-- The sprite registers after `n` sprites of line `y` are dropped: by the count of 32, by the budget, or by both. -/
def dropsNoted (io : Bytes) (many budget : Bool) (n y : Nat) : Bytes :=
  ((io.orb 0xE7D8 (BitVec.ofNat 8 (budget.toNat * 2 + many.toNat))).count16 0xE7DA n).wrN 0xE7DC 2 y

section
variable {io : Bytes} (many budget : Bool) (n y : Nat)

/-- The drops join DROPS, which saturates (R199). -/
theorem dropsNoted_count (hwf : io.wf = true) :
    (dropsNoted io many budget n y).rdN 0xE7DA 2 = min 65535 (io.rdN 0xE7DA 2 + n) := by
  have hlow (m : Bytes) : (m.wrN 0xE7DC 2 y).rdN 0xE7DA 2 = m.rdN 0xE7DA 2 := by
    simp only [Bytes.rdN, rd_wrN_two_other m y (show 0xE7DA < 0xE7DC ∨ _ from .inl (by decide)),
      rd_wrN_two_other m y (show 0xE7DA + 1 < 0xE7DC ∨ _ from .inl (by decide))]
  have hflags (v : Byte) : (io.orb 0xE7D8 v).rdN 0xE7DA 2 = io.rdN 0xE7DA 2 := by
    simp only [Bytes.rdN, rd_orb_other io v (show 0xE7DA ≠ 0xE7D8 by decide),
      rd_orb_other io v (show 0xE7DA + 1 ≠ 0xE7D8 by decide)]
  rw [dropsNoted, hlow, Bytes.count16, Bytes.rdN_wrN_2 _ _ _ (Bytes.orb_wf _ _ _ hwf) (by omega), hflags]

/-- The causes of the drops join the flags of SPR_STAT (R195, R198). -/
theorem dropsNoted_bit (hwf : io.wf = true) (i : Nat) :
    (dropsNoted io many budget n y).bit 0xE7D8 i =
      (io.bit 0xE7D8 i || (BitVec.ofNat 8 (budget.toNat * 2 + many.toNat)).getLsbD i) := by
  rw [← bit_orb hwf, dropsNoted, Bytes.count16, Bytes.bit, rd_wrN_two_other _ _ (.inl (by decide)),
    rd_wrN_two_other _ _ (.inl (by decide)), Bytes.bit]

theorem dropsNoted_many (hwf : io.wf = true) : (dropsNoted io true budget n y).bit 0xE7D8 0 = true := by
  rw [dropsNoted_bit _ _ _ _ hwf]
  cases budget <;> simp

theorem dropsNoted_budget (hwf : io.wf = true) : (dropsNoted io many true n y).bit 0xE7D8 1 = true := by
  rw [dropsNoted_bit _ _ _ _ hwf]
  cases many <;> simp

end

/-! ### The search of a line (R194 to R199) -/

/-- The latched sprites that cover line `y`, in the order of their entries. -/
def found (c : Cell) (y : Nat) : List SpriteHit :=
  (List.range 128).filterMap fun i => spriteEntry c.sprites.latch i y

/-- Those among the first 32 that the allowance of the line admits. -/
def shown (c : Cell) (y : Nat) : List SpriteHit :=
  withinAllowance (c.hTotal - c.planeCost 0xE780 - c.planeCost 0xE7A0) ((found c y).take 32)

/-- The cell with the row of line `y` kept and the search resolved. -/
def rowKept (c : Cell) (y : Nat) : Cell :=
  { marked c 7 with
    sprites := { c.sprites with rows := c.sprites.rows ++ [{ y := y, hits := shown c y }], target := none } }

/-- The cell with that row kept and the drops of the line noted. -/
def dropped (c : Cell) (y : Nat) : Cell :=
  { rowKept c y with
    io := dropsNoted c.io (decide (32 < (found c y).length)) (decide ((shown c y).length < ((found c y).take 32).length))
      ((found c y).length - (shown c y).length) y }

section
variable {c c1 : Cell} {y : Nat}

/-- The search of a line that is resolved at dot 64: its row is kept, and a drop is noted and raised. -/
theorem spriteSearch_eq (hwide : 64 < c.hTotal) (hdue : c.sprites.due = none) (hdue1 : c1.sprites.due = none)
    (hrun : c.runTo (searchLine c) 64 = some c1) (hdone : c1.beam.done.contains 7 = false)
    (htarget : c1.sprites.target = some y) :
    c.spriteSearch =
      if (found c1 y).length - (shown c1 y).length = 0 then rowKept c1 y
      else (dropped c1 y).raise 13 := by
  have htick : c.searchTick.bind (·.once 7) = some (marked c1 7) := by
    rw [searchTick_eq hwide hdue, hrun, Option.bind_some, once_eq hdone]
  have hdot : (marked c1 7).beam.dot = 64 := (runTo_at hrun).2
  have hnext : ((marked c1 7).sprites.due.filter fun _ => (marked c1 7).beam.dot = 0).orElse
      (fun _ => (marked c1 7).sprites.target.map (·, (marked c1 7).sprites.latch)) = some (y, c1.sprites.latch) := by
    rw [show (marked c1 7).sprites = c1.sprites from rfl, hdue1, htarget]
    rfl
  have hfetched : (decide ((marked c1 7).beam.dot = 0) && (marked c1 7).beam.entered) = false := by rw [hdot]; rfl
  rw [Cell.spriteSearch, htick]
  dsimp only
  rw [hnext]
  dsimp only
  rw [hfetched]
  rfl

/-- `c'` is `c` after the search of line `y` is resolved: the row is kept, and what it leaves out is counted, marked by
its cause and raised. -/
structure Searched (c : Cell) (y : Nat) (c' : Cell) : Prop where
  rows : c'.sprites.rows = c.sprites.rows ++ [{ y := y, hits := shown c y }]
  target : c'.sprites.target = none
  whole : (found c y).length = (shown c y).length → c'.io = c.io ∧ c'.intc = c.intc
  raised : (shown c y).length < (found c y).length → c'.intc.pend.getLsbD 13 = true
  count : (shown c y).length < (found c y).length → c.io.wf = true →
    c'.io.rdN 0xE7DA 2 = min 65535 (c.io.rdN 0xE7DA 2 + ((found c y).length - (shown c y).length))
  many : (shown c y).length < (found c y).length → c.io.wf = true → 32 < (found c y).length →
    c'.io.bit 0xE7D8 0 = true
  budget : (shown c y).length < (found c y).length → c.io.wf = true →
    (shown c y).length < ((found c y).take 32).length → c'.io.bit 0xE7D8 1 = true
  mem : c'.mem = c.mem
  core : c'.core = c.core
  eff : c'.eff = c.eff

theorem rowKept_searched (hnone : (found c y).length - (shown c y).length = 0) : Searched c y (rowKept c y) := by
  have hno : ¬ (shown c y).length < (found c y).length := by omega
  exact ⟨rfl, rfl, fun _ => ⟨rfl, rfl⟩, (absurd · hno), (absurd · hno), (absurd · hno), (absurd · hno), rfl, rfl, rfl⟩

theorem dropped_searched (hsome : (found c y).length - (shown c y).length ≠ 0) :
    Searched c y ((dropped c y).raise 13) where
  rows := by rw [raise_sprites]; rfl
  target := by rw [raise_sprites]; rfl
  whole heq := absurd (Nat.sub_eq_zero_of_le (Nat.le_of_eq heq)) hsome
  raised _ := raise_pending _ 13 (by decide)
  count _ hwf := by rw [raise_io]; exact dropsNoted_count _ _ _ _ hwf
  many _ hwf h32 := by rw [raise_io, dropped, decide_eq_true h32]; exact dropsNoted_many _ _ _ hwf
  budget _ hwf hcut := by rw [raise_io, dropped, decide_eq_true hcut]; exact dropsNoted_budget _ _ _ hwf
  mem := raise_mem _ _
  core := raise_core _ _
  eff := raise_eff _ _

theorem spriteSearch_searched (hwide : 64 < c.hTotal) (hdue : c.sprites.due = none) (hdue1 : c1.sprites.due = none)
    (hrun : c.runTo (searchLine c) 64 = some c1) (hdone : c1.beam.done.contains 7 = false)
    (htarget : c1.sprites.target = some y) : Searched c1 y c.spriteSearch := by
  rw [spriteSearch_eq hwide hdue hdue1 hrun hdone htarget]
  split
  case isTrue hnone => exact rowKept_searched hnone
  case isFalse hsome => exact dropped_searched hsome

end

/-! ### The collisions of a dot (R200 to R202) -/

/-- `c'` is `c` after a collision whose flag is `bit` of SPR_STAT: the flag is set, and SPR_COLL is raised when it
was 0. -/
structure Collided (c : Cell) (bit : Nat) (c' : Cell) : Prop where
  flag : c'.io.bit 0xE7D8 bit = true
  raised : c.io.bit 0xE7D8 bit = false → c'.intc.pend.getLsbD 14 = true
  again : c.io.bit 0xE7D8 bit = true → c'.intc = c.intc
  mem : c'.mem = c.mem
  core : c'.core = c.core
  eff : c'.eff = c.eff

/-- The bits of the sprites in collision leave the flags to the collision itself. -/
theorem setCollision_collided {c : Cell} {io : Bytes} {bit : Nat} (hbit : bit < 8)
    (hio : io.rd 0xE7D8 = c.io.rd 0xE7D8) : Collided c bit (Cell.setCollision { c with io := io } bit) := by
  have hflag := bit_setBit_same io 0xE7D8 hbit
  have hwas : io.bit 0xE7D8 bit = c.io.bit 0xE7D8 bit := congrArg (·.getLsbD bit) hio
  unfold Cell.setCollision
  dsimp only
  split
  case isTrue hset =>
    exact ⟨hflag, fun h0 => absurd (hwas.symm.trans hset) (by simp [h0]), fun _ => rfl, rfl, rfl, rfl⟩
  case isFalse hclear =>
    exact ⟨by rw [raise_io]; exact hflag, fun _ => raise_pending _ 14 (by decide),
      fun h1 => absurd (hwas.trans h1) hclear, raise_mem _ _, raise_core _ _, raise_eff _ _⟩

/-- A collision's bits lie in bytes of their own, above the flags. -/
theorem rd_foldl_above {α : Type} (l : List α) (f : Bytes → α → Bytes)
    (hf : ∀ m x, (f m x).rd 0xE7D8 = m.rd 0xE7D8) (io : Bytes) : (l.foldl f io).rd 0xE7D8 = io.rd 0xE7D8 :=
  List.foldlRecOn (motive := fun m => m.rd 0xE7D8 = io.rd 0xE7D8) l f rfl fun m hm x _ => (hf m x).trans hm

/-- What shows at dot `dot` of the present group. -/
def hitsAt (c : Cell) (dot : Nat) : DotHits := c.sprites.group.getD (dot % 8) { sprites := [], plane := false }

section
variable {c c1 : Cell} {line dot : Nat} (hrun : c.runTo line dot = some c1) (hline : line < c1.vActive)
  (hdot : dot < c1.hActive)
include hrun hline hdot

theorem spriteCollision_collided (htwo : 2 ≤ (hitsAt c1.enterTick dot).sprites.length) :
    Collided c1.enterTick 2 (c.spriteCollision line dot) := by
  rw [Cell.spriteCollision, hrun]
  dsimp only
  rw [if_neg (show ¬ (c1.vActive ≤ line ∨ c1.hActive ≤ dot) by omega)]
  split
  case isTrue hfew => exact absurd htwo (Nat.not_le.mpr hfew)
  case isFalse =>
    have hown := rd_foldl_above (hitsAt c1.enterTick dot).sprites _ (fun m s => rd_orb_other m
      (BitVec.ofNat 8 (2 ^ (s.1 % 8))) (show 0xE7D8 ≠ 0xE800 + s.1 / 8 by omega)) c1.enterTick.io
    refine setCollision_collided (by decide) (.trans ?pairs hown)
    refine rd_foldl_above _ _ (fun m s => rd_foldl_above _ _ (fun m t => ?_) m) _
    split
    · rfl
    · exact rd_orb_other m _ (by omega)

theorem planeCollision_collided (hplane : (hitsAt c1.enterTick dot).plane = true)
    (hsome : (hitsAt c1.enterTick dot).sprites ≠ []) : Collided c1.enterTick 3 (c.planeCollision line dot) := by
  rw [Cell.planeCollision, hrun]
  dsimp only
  rw [if_neg (show ¬ (c1.vActive ≤ line ∨ c1.hActive ≤ dot) by omega)]
  split
  case isTrue hmiss => exact hmiss.elim (fun hno => absurd hplane hno) (fun hnil => absurd hnil hsome)
  case isFalse =>
    exact setCollision_collided (by decide) (rd_foldl_above _ _ (fun m s => rd_orb_other m _ (by omega)) _)

end

/-- Settles O23: the search by the row that it keeps and the drops that it notes, each collision by its flag. -/
theorem spritesAreSearched : Obligations.SpritesAreSearched := by
  unfold Obligations.SpritesAreSearched
  intro s ch c c1 h
  refine ⟨?search, ?collisions, fun b l => ⟨cost_withinAllowance_le b l, withinAllowance_isPrefix b l⟩⟩
  case search =>
    rintro line y hwide hdue hdue1 rfl hrun hdone htarget
    obtain ⟨rows, target, whole, raised, count, many, budget, mem, core, eff⟩ :=
      spriteSearch_searched hwide hdue hdue1 hrun hdone htarget
    exact ⟨_, next_of_cellEvent h rfl, rows, target, whole,
      fun hlt => ⟨raised hlt, fun hwf => ⟨count hlt hwf, many hlt hwf, budget hlt hwf⟩⟩, mem, core, eff⟩
  case collisions =>
    intro line dot hrun hline hdot c2 hits _
    constructor
    · intro htwo
      obtain ⟨flag, raised, again, mem, core, eff⟩ := spriteCollision_collided hrun hline hdot htwo
      exact ⟨_, next_of_cellEvent h rfl, flag, raised, again, mem, core, eff⟩
    · intro hplane hsome
      obtain ⟨flag, raised, again, mem, core, eff⟩ := planeCollision_collided hrun hline hdot hplane hsome
      exact ⟨_, next_of_cellEvent h rfl, flag, raised, again, mem, core, eff⟩

end Sys2Proof.TilesAndSprites
end

section
/-! PROOFS. The video layers' underruns, the guard comparison, the band close, and REFRESH_ALL. -/

namespace Sys2Proof.CompositionAndGuards

open Sys2Proof.Machine Sys2Proof.BeamAndRaster
open Sys2Proof.DecodeAndPace (next_of_cellEvent)
open Sys2Proof.TilesAndSprites (bit_orb rd_orb_other rd_wrN_two_other)

/-! ### An underrun of a layer (R221) -/

/-- Raises of one source, one for each element of a list, change nothing outside the interrupt controller. -/
theorem foldl_raise_eq {α : Type} {src : Nat} (hsrc : src < 48) (l : List α) (c : Cell) :
    ∃ i : Intc, l.foldl (fun c _ => c.raise src) c = { c with intc := i } ∧
      (c.intc.pend.getLsbD src = true ∨ l ≠ [] → i.pend.getLsbD src = true) := by
  induction l generalizing c with
  | nil => exact ⟨c.intc, rfl, fun h => h.elim id (absurd rfl)⟩
  | cons x l ih =>
    obtain ⟨i, hi, -⟩ := raise_eq c src
    obtain ⟨j, hj, hpend⟩ := ih (c.raise src)
    refine ⟨j, ?_, fun _ => hpend (.inl (raise_pending c src hsrc))⟩
    rw [List.foldl_cons, hj, hi]

/-- Messages that join what the cell hands over change nothing else. -/
theorem foldl_outq_eq {α : Type} {f : Cell → α → Cell} (hf : ∀ c x, ∃ q, f c x = { c with outq := q }) (l : List α)
    (c : Cell) : ∃ q, l.foldl f c = { c with outq := q } := by
  induction l generalizing c with
  | nil => exact ⟨_, rfl⟩
  | cons x l ih =>
    obtain ⟨q, hq⟩ := hf c x
    obtain ⟨q', hq'⟩ := ih (f c x)
    exact ⟨q', by rw [List.foldl_cons, hq', hq]⟩

theorem lineLog_eq (kind L : Nat) (lines : List Nat) (c : Cell) : ∃ q, lineLog kind L lines c = { c with outq := q } :=
  foldl_outq_eq (fun _ _ => ⟨_, rfl⟩) lines c

/-- The registers of layer `l` after `n` of its lines are counted as underruns. -/
def underrunNoted (io : Bytes) (l n : Nat) : Bytes :=
  (io.count16 (0xE9A0 + 0x20 * l + 12) n).setBit (0xE9A0 + 0x20 * l + 10) 0 true

/-- The lines join UNDERRUNS, which saturates. -/
theorem underrunNoted_count {io : Bytes} (hwf : io.wf = true) (l n : Nat) :
    (underrunNoted io l n).rdN (0xE9AC + 0x20 * l) 2 = min 65535 (io.rdN (0xE9AC + 0x20 * l) 2 + n) := by
  have hflag (m : Bytes) : (m.setBit (0xE9A0 + 0x20 * l + 10) 0 true).rdN (0xE9AC + 0x20 * l) 2 =
      m.rdN (0xE9AC + 0x20 * l) 2 := by
    simp only [Bytes.rdN, rd_setBit_other m 0 true (show 0xE9AC + 0x20 * l ≠ 0xE9A0 + 0x20 * l + 10 by omega),
      rd_setBit_other m 0 true (show 0xE9AC + 0x20 * l + 1 ≠ 0xE9A0 + 0x20 * l + 10 by omega)]
  rw [underrunNoted, hflag, Bytes.count16, show 0xE9A0 + 0x20 * l + 12 = 0xE9AC + 0x20 * l by omega,
    Bytes.rdN_wrN_2 _ _ _ hwf (by omega)]

theorem underrunNoted_flag (io : Bytes) (l n : Nat) : (underrunNoted io l n).bit (0xE9AA + 0x20 * l) 0 = true := by
  rw [underrunNoted, show 0xE9A0 + 0x20 * l + 10 = 0xE9AA + 0x20 * l by omega, bit_setBit_same _ _ (by decide)]

/-- The cell with the missing lines of layer `l` counted at line `y`. -/
def counted (c : Cell) (l y : Nat) : Cell :=
  { c with
    io := underrunNoted c.io l (c.missingLines l y).length
    picture := { c.picture with
      layers := updateAt c.picture.layers l fun x => { x with missing := x.missing ++ c.missingLines l y } } }

section
variable {c c1 : Cell} {l y : Nat} (hrun : c.runTo y 0 = some c1)
  (hdone : c1.beam.done.contains (12 + l) = false)
include hrun hdone

theorem layerUnderrun_eq :
    c.layerUnderrun l y =
      if c1.missingLines l y = [] ∨ 2 ≤ l ∨ c1.vActive ≤ y ∨ c1.dry = true then c
      else lineLog 0x0A l (c1.missingLines l y)
        ((c1.missingLines l y).foldl (fun c _ => c.raise (17 + l)) (counted (marked c1 (12 + l)) l y)) := by
  rw [Cell.layerUnderrun, hrun, Option.bind_some, once_eq hdone]
  rfl

/-- With every line in place there is no underrun. -/
theorem layerUnderrun_whole (hmiss : c1.missingLines l y = []) : c.layerUnderrun l y = c := by
  rw [layerUnderrun_eq hrun hdone, if_pos (.inl hmiss)]

/-- An underrun counts its lines and raises the source of the layer. -/
theorem layerUnderrun_counted (hl : l < 2) (hy : y < c1.vActive) (hdry : c1.dry = false)
    (hmiss : c1.missingLines l y ≠ []) :
    ∃ (i : Intc) (q : List Emit), c.layerUnderrun l y = { counted (marked c1 (12 + l)) l y with intc := i, outq := q } ∧
      i.pend.getLsbD (17 + l) = true := by
  have harises : ¬ (c1.missingLines l y = [] ∨ 2 ≤ l ∨ c1.vActive ≤ y ∨ c1.dry = true) := by
    simp only [hmiss, hdry, Bool.false_eq_true, or_false, false_or]
    omega
  obtain ⟨i, hi, hpend⟩ := foldl_raise_eq (show 17 + l < 48 by omega) (c1.missingLines l y)
    (counted (marked c1 (12 + l)) l y)
  obtain ⟨q, hq⟩ := lineLog_eq 0x0A l (c1.missingLines l y) { counted (marked c1 (12 + l)) l y with intc := i }
  refine ⟨i, q, ?_, hpend (.inr hmiss)⟩
  rw [layerUnderrun_eq hrun hdone, if_neg harises, hi, hq]

end

/-! ### A mismatching block (R228, R229) -/

/-- The guard registers after block `block`, in the regions `regions`, of which GUARD_HOLD in effect is `hold`,
mismatches. -/
def missNoted (io : Bytes) (hold : Byte) (block : Nat) (regions : Byte) : Bytes :=
  (((io.orb 0xEA82 regions).count16 0xEA84 1).wrN 0xEA86 2 block).orb 0xEA83 (regions &&& hold)

section
variable {io : Bytes} (hwf : io.wf = true) (hold : Byte) (block : Nat) (regions : Byte)
include hwf

theorem missNoted_wf : (missNoted io hold block regions).wf = true :=
  Bytes.orb_wf _ _ _ (Bytes.wrN_wf _ _ _ _ (Bytes.count16_wf _ _ _ (Bytes.orb_wf _ _ _ hwf)))

theorem missNoted_stat (r : Nat) :
    (missNoted io hold block regions).bit 0xEA82 r = (io.bit 0xEA82 r || regions.getLsbD r) := by
  rw [← bit_orb hwf, missNoted, Bytes.bit, rd_orb_other _ _ (by decide), rd_wrN_two_other _ _ (.inl (by decide)),
    Bytes.count16, rd_wrN_two_other _ _ (.inl (by decide)), Bytes.bit]

theorem missNoted_held (r : Nat) :
    (missNoted io hold block regions).bit 0xEA83 r = (io.bit 0xEA83 r || (regions.getLsbD r && hold.getLsbD r)) := by
  rw [missNoted, bit_orb (Bytes.wrN_wf _ _ _ _ (Bytes.count16_wf _ _ _ (Bytes.orb_wf _ _ _ hwf))), BitVec.getLsbD_and,
    Bytes.bit, rd_wrN_two_other _ _ (.inl (by decide)), Bytes.count16, rd_wrN_two_other _ _ (.inl (by decide)),
    rd_orb_other _ _ (by decide), Bytes.bit]

end

/-- A mismatch notes itself in the guard registers and raises GUARD; what else it does concerns the picture and what
the cell hands over. -/
theorem guardMiss_eq (c : Cell) (block : Nat) (regions : Byte) :
    ∃ (p : Picture) (i : Intc) (q : List Emit), c.guardMiss block regions =
      { c with io := missNoted c.io (c.eff.rd 0xEA81) block regions, picture := p, intc := i, outq := q } ∧
      i.pend = setBit48 c.intc.pend 15 true := by
  unfold Cell.guardMiss
  extract_lets old p fresh io noted raised
  obtain ⟨i, hi, hpend⟩ := raise_eq
    { c with io := noted, picture := { p with missed := p.missed ||| regions, notified := p.notified ||| fresh } } 15
  obtain ⟨q, hq⟩ := foldl_outq_eq (f := fun c r =>
    if fresh.getLsbD r then c.emit (.notify 0x03 (r * 4096 + block) c.beam.ctime) else c)
    (fun c r => by
      split
      · exact ⟨_, rfl⟩
      · exact ⟨_, rfl⟩) (List.range 8) raised
  exact ⟨{ p with missed := p.missed ||| regions, notified := p.notified ||| fresh }, i, q,
    hq.trans (congrArg (fun d : Cell => { d with outq := q }) hi), hpend⟩

/-- What the mismatches of a comparison keep: the memory, the core, the registers in effect, the canonical form of
the registers, and every guard bit and raise that has been made. -/
structure GuardKeeps (c d : Cell) : Prop where
  mem : d.mem = c.mem
  core : d.core = c.core
  eff : d.eff = c.eff
  wf : c.io.wf = true → d.io.wf = true
  stat : c.io.wf = true → ∀ r, c.io.bit 0xEA82 r = true → d.io.bit 0xEA82 r = true
  held : c.io.wf = true → ∀ r, c.io.bit 0xEA83 r = true → d.io.bit 0xEA83 r = true
  raised : c.intc.pend.getLsbD 15 = true → d.intc.pend.getLsbD 15 = true

theorem GuardKeeps.refl (c : Cell) : GuardKeeps c c :=
  ⟨rfl, rfl, rfl, id, fun _ _ => id, fun _ _ => id, id⟩

theorem GuardKeeps.trans {c d e : Cell} (h : GuardKeeps c d) (k : GuardKeeps d e) : GuardKeeps c e where
  mem := k.mem.trans h.mem
  core := k.core.trans h.core
  eff := k.eff.trans h.eff
  wf hwf := k.wf (h.wf hwf)
  stat hwf r hr := k.stat (h.wf hwf) r (h.stat hwf r hr)
  held hwf r hr := k.held (h.wf hwf) r (h.held hwf r hr)
  raised hr := k.raised (h.raised hr)

/-- The mismatch of the block of band `b` and column `x`. -/
def blockMiss (b : Nat) (c : Cell) (x : Nat) : Cell := c.guardMiss (b * c.blockCols + x) (c.regionsOf b x)

/-- The mismatch of the block of band `b` and column `x` of `c` stands in `d`. -/
structure GuardMarked (c : Cell) (b x : Nat) (d : Cell) : Prop where
  raised : d.intc.pend.getLsbD 15 = true
  stat : c.io.wf = true → ∀ r, (c.regionsOf b x).getLsbD r = true → d.io.bit 0xEA82 r = true
  held : c.io.wf = true → ∀ r, (c.regionsOf b x).getLsbD r = true → c.eff.bit 0xEA81 r = true →
    d.io.bit 0xEA83 r = true

/-- A later mismatch takes nothing of an earlier one back. -/
theorem GuardMarked.of_keeps {c d e : Cell} {b x : Nat} (h : GuardMarked c b x d) (hwf : c.io.wf = true → d.io.wf = true)
    (k : GuardKeeps d e) : GuardMarked c b x e where
  raised := k.raised h.raised
  stat hc r hr := k.stat (hwf hc) r (h.stat hc r hr)
  held hc r hr hh := k.held (hwf hc) r (h.held hc r hr hh)

theorem getLsbD_setBit48_same (w : BitVec 48) {i : Nat} (hi : i < 48) : (setBit48 w i true).getLsbD i = true := by
  rw [setBit48, if_pos rfl, BitVec.getLsbD_or, BitVec.getLsbD_ofNat, Nat.testBit_two_pow_self, decide_eq_true hi,
    Bool.and_self, Bool.or_true]

theorem blockMiss_keeps (b : Nat) (c : Cell) (x : Nat) : GuardKeeps c (blockMiss b c x) := by
  obtain ⟨p, i, q, heq, hpend⟩ := guardMiss_eq c (b * c.blockCols + x) (c.regionsOf b x)
  rw [blockMiss, heq]
  exact {
    mem := rfl
    core := rfl
    eff := rfl
    wf := fun hwf => missNoted_wf hwf _ _ _
    stat := fun hwf r hr => by rw [missNoted_stat hwf, hr, Bool.true_or]
    held := fun hwf r hr => by rw [missNoted_held hwf, hr, Bool.true_or]
    raised := fun _ => by rw [hpend, getLsbD_setBit48_same _ (by decide)] }

theorem blockMiss_marked (b : Nat) (c : Cell) (x : Nat) : GuardMarked c b x (blockMiss b c x) := by
  obtain ⟨p, i, q, heq, hpend⟩ := guardMiss_eq c (b * c.blockCols + x) (c.regionsOf b x)
  rw [blockMiss, heq]
  exact {
    raised := by rw [hpend, getLsbD_setBit48_same _ (by decide)]
    stat := fun hwf r hr => by rw [missNoted_stat hwf, hr, Bool.or_true]
    held := fun hwf r hr hh => by
      rw [missNoted_held hwf, hr, show (c.eff.rd 0xEA81).getLsbD r = true from hh, Bool.and_self, Bool.or_true] }

theorem foldl_blockMiss_keeps (b : Nat) (l : List Nat) (c : Cell) : GuardKeeps c (l.foldl (blockMiss b) c) :=
  List.foldlRecOn (motive := GuardKeeps c) l _ (.refl c) fun d h x _ => h.trans (blockMiss_keeps b d x)

/-- The regions that contain a block come from the registers in effect alone. -/
theorem regionsOf_congr {c d : Cell} (h : d.eff = c.eff) (b x : Nat) : d.regionsOf b x = c.regionsOf b x :=
  calc d.regionsOf b x = ({ c with eff := d.eff } : Cell).regionsOf b x := rfl
    _ = c.regionsOf b x := by rw [h]

theorem foldl_blockMiss_marked {b x : Nat} {l : List Nat} (hx : x ∈ l) (c : Cell) :
    GuardMarked c b x (l.foldl (blockMiss b) c) := by
  induction l generalizing c with
  | nil => cases hx
  | cons y l ih =>
    have hfirst := blockMiss_keeps b c y
    rcases List.mem_cons.mp hx with rfl | hl
    · exact (blockMiss_marked b c x).of_keeps hfirst.wf (foldl_blockMiss_keeps b l _)
    · obtain ⟨raised, stat, held⟩ := ih hl (blockMiss b c y)
      rw [regionsOf_congr hfirst.eff] at stat held
      rw [hfirst.eff] at held
      exact ⟨raised, fun hwf => stat (hfirst.wf hwf), fun hwf => held (hfirst.wf hwf)⟩

/-! ### The comparison of a band (R228) -/

/-- The block of band `b` and column `x` is guarded, and its two CRCs differ. -/
def Mismatch (c : Cell) (b x : Nat) : Prop :=
  x < c.blockCols ∧ c.regionsOf b x ≠ 0#8 ∧
    crc32c (pixelBytes ((blockDots (c.bandLines b) x).map (·.main))) ≠
      crc32c (pixelBytes ((blockDots (c.bandLines b) x).map (·.guarded)))

/-- The columns of the mismatching blocks of band `b`, in their order. -/
def mismatches (c : Cell) (b : Nat) : List Nat :=
  (List.range c.blockCols).filter fun x =>
    c.regionsOf b x != 0#8 &&
      (crc32c (pixelBytes ((blockDots (c.bandLines b) x).map (·.main))) !=
        crc32c (pixelBytes ((blockDots (c.bandLines b) x).map (·.guarded))))

theorem mem_mismatches {c : Cell} {b x : Nat} : x ∈ mismatches c b ↔ Mismatch c b x := by
  rw [mismatches, List.mem_filter, List.mem_range, Bool.and_eq_true, bne_iff_ne, bne_iff_ne, Mismatch]

section
variable {c c1 : Cell} {b : Nat} (hb : b < c.bandCount) (hdry : c.dry = false)
  (hrun : c.runTo (c.lastLine b) (c.hActive + 8) = some c1) (hdone : c1.beam.done.contains 8 = false)
include hb hdry hrun hdone

theorem guardCompare_eq :
    c.guardCompare b =
      if mismatches c1 b = [] then marked c1 8 else ((mismatches c1 b).foldl (blockMiss b) (marked c1 8)).emitGuard := by
  have harises : ¬ (c.bandCount ≤ b ∨ c.dry = true) := by
    simp only [hdry, Bool.false_eq_true, or_false]
    omega
  rw [Cell.guardCompare, if_neg harises, eventAt_eq _ hrun hdone]
  rfl

theorem guardCompare_matching (hnone : ∀ x, ¬ Mismatch c1 b x) : c.guardCompare b = marked c1 8 := by
  rw [guardCompare_eq hb hdry hrun hdone]
  exact if_pos (List.eq_nil_iff_forall_not_mem.mpr fun x hx => hnone x (mem_mismatches.mp hx))

/-- A comparison with a mismatch: it keeps what a mismatch keeps, and every mismatch stands. -/
theorem guardCompare_marked (hsome : ∃ x, Mismatch c1 b x) :
    GuardKeeps c1 (c.guardCompare b) ∧ ∀ x, Mismatch c1 b x → GuardMarked c1 b x (c.guardCompare b) := by
  have hne : mismatches c1 b ≠ [] := by
    obtain ⟨x, hx⟩ := hsome
    exact List.ne_nil_of_mem (mem_mismatches.mpr hx)
  rw [guardCompare_eq hb hdry hrun hdone, if_neg hne]
  obtain ⟨mem, core, eff, wf, stat, held, raised⟩ := foldl_blockMiss_keeps b (mismatches c1 b) (marked c1 8)
  refine ⟨⟨mem, core, eff, wf, stat, held, raised⟩, fun x hx => ?_⟩
  obtain ⟨raised, stat, held⟩ := foldl_blockMiss_marked (mem_mismatches.mpr hx) (marked c1 8)
  exact ⟨raised, stat, held⟩

end

/-! ### The hash store (R238, R239) -/

section
variable {α : Type}

theorem lookupNat_insertNat_same (m : List (Nat × α)) (a : Nat) (v : α) : lookupNat (insertNat m a v) a = some v := by
  induction m with
  | nil => exact if_pos rfl
  | cons e m ih =>
    obtain ⟨k, w⟩ := e
    rw [insertNat]
    split
    · exact if_pos rfl
    · split
      · exact if_pos rfl
      · next hne => exact (if_neg hne).trans ih

theorem lookupNat_insertNat_other (m : List (Nat × α)) {a b : Nat} (v : α) (h : b ≠ a) :
    lookupNat (insertNat m a v) b = lookupNat m b := by
  induction m with
  | nil => exact if_neg h
  | cons e m ih =>
    obtain ⟨k, w⟩ := e
    rw [insertNat]
    split
    · exact if_neg h
    · split
      · next hk => rw [lookupNat, lookupNat, if_neg h, if_neg (hk ▸ h)]
      · rw [lookupNat, lookupNat, ih]

end

/-- The hash store after a block of a band whose first block is number `first` takes its new hash. -/
def hashTaken (first : Nat) (m : List (Nat × BitVec 64)) (v : BlockView) : List (Nat × BitVec 64) :=
  if v.held then m else insertNat m (first + v.col) v.hash

theorem lookup_hashTaken_other (first : Nat) (m : List (Nat × BitVec 64)) {v w : BlockView} (h : v.col ≠ w.col) :
    lookupNat (hashTaken first m w) (first + v.col) = lookupNat m (first + v.col) := by
  unfold hashTaken
  split
  · rfl
  · exact lookupNat_insertNat_other _ _ (by omega)

/-- Blocks of other columns leave a block's stored hash. -/
theorem lookup_foldl_hashTaken_other (first : Nat) (l : List BlockView) {v : BlockView} (h : ∀ w ∈ l, v.col ≠ w.col)
    (m : List (Nat × BitVec 64)) :
    lookupNat (l.foldl (hashTaken first) m) (first + v.col) = lookupNat m (first + v.col) :=
  List.foldlRecOn (motive := fun n => lookupNat n (first + v.col) = lookupNat m (first + v.col)) l _ rfl
    fun n hn w hw => (lookup_hashTaken_other first n (h w hw)).trans hn

/-- Every block that is not held has its new hash in the store. -/
theorem lookup_foldl_hashTaken {first : Nat} {l : List BlockView} (hcols : (l.map (·.col)).Nodup) {v : BlockView}
    (hv : v ∈ l) (hfree : v.held = false) (m : List (Nat × BitVec 64)) :
    lookupNat (l.foldl (hashTaken first) m) (first + v.col) = some v.hash := by
  induction l generalizing m with
  | nil => cases hv
  | cons w l ih =>
    obtain ⟨hw, hrest⟩ := List.nodup_cons.mp hcols
    rcases List.mem_cons.mp hv with rfl | hl
    · have hothers : ∀ w ∈ l, v.col ≠ w.col := fun w hwl heq =>
        hw (List.mem_map.mpr ⟨w, hwl, heq.symm⟩)
      rw [List.foldl_cons, lookup_foldl_hashTaken_other first l hothers, hashTaken, hfree]
      exact lookupNat_insertNat_same _ _ _
    · exact ih hrest hl _

theorem bandBlocks_cols (c : Cell) (b : Nat) : ((c.bandBlocks b).map (·.col)).Nodup := by
  rw [Cell.bandBlocks, List.map_map]
  exact (List.map_id _).symm ▸ List.nodup_range

/-! ### The band close (R237, R239) -/

/-- What the encoder keeps as it publishes: the memory, the core, the registers in effect and the hash store; and
what it publishes joins what the cell hands over. -/
structure EncoderKeeps (c d : Cell) : Prop where
  mem : d.mem = c.mem
  core : d.core = c.core
  eff : d.eff = c.eff
  hashes : d.picture.hashes = c.picture.hashes
  handed : c.outq <+: d.outq

theorem EncoderKeeps.refl (c : Cell) : EncoderKeeps c c := ⟨rfl, rfl, rfl, rfl, List.prefix_rfl⟩

theorem EncoderKeeps.trans {c d e : Cell} (h : EncoderKeeps c d) (k : EncoderKeeps d e) : EncoderKeeps c e :=
  ⟨k.mem.trans h.mem, k.core.trans h.core, k.eff.trans h.eff, k.hashes.trans h.hashes, h.handed.trans k.handed⟩

theorem EncoderKeeps.emit {c d : Cell} (h : EncoderKeeps c d) (e : Emit) : EncoderKeeps c (d.emit e) :=
  h.trans ⟨rfl, rfl, rfl, rfl, List.prefix_append _ _⟩

theorem EncoderKeeps.raise {c d : Cell} (h : EncoderKeeps c d) (src : Nat) : EncoderKeeps c (d.raise src) := by
  obtain ⟨i, hi, -⟩ := raise_eq d src
  rw [hi]
  exact h.trans ⟨rfl, rfl, rfl, rfl, List.prefix_rfl⟩

theorem EncoderKeeps.foldl {α : Type} {f : Cell → α → Cell} (hf : ∀ c x, EncoderKeeps c (f c x)) (l : List α)
    (c : Cell) : EncoderKeeps c (l.foldl f c) :=
  List.foldlRecOn (motive := EncoderKeeps c) l _ (.refl c) fun d h x _ => h.trans (hf d x)

theorem publishBand_keeps (b : Nat) (blocks : List BlockView) (st : Stream) (c : Cell) :
    EncoderKeeps c (c.publishBand b blocks st) := by
  unfold Cell.publishBand
  extract_lets k full set runs n n' pic c'
  have hcounted : EncoderKeeps c c' := ⟨rfl, rfl, rfl, rfl, List.prefix_rfl⟩
  exact hcounted.trans (.foldl (fun d run => (EncoderKeeps.refl d).emit _) runs c')

theorem sealFrame_keeps (st : Stream) (c : Cell) : EncoderKeeps c (c.sealFrame st) := (EncoderKeeps.refl c).emit _

/-- The signatures and the freeze comparison touch the registers of their own (R231, R232). -/
theorem signFrame_keeps (c : Cell) : EncoderKeeps c c.signFrame := by
  unfold Cell.signFrame
  extract_lets fs rs io ctl pick n prev was pic signed counted frozen compared
  have hsigned (m : Bytes) : EncoderKeeps c { signed with io := m } := ⟨rfl, rfl, rfl, rfl, List.prefix_rfl⟩
  have hfrozen : EncoderKeeps c frozen := (hsigned _).raise 16
  have hcompared : EncoderKeeps c compared := by
    unfold compared
    split
    case isTrue hdisabled => exact hsigned io
    case isFalse henabled =>
      clear_value prev
      cases prev with
      | none => exact hsigned _
      | some old =>
        dsimp only
        split
        case isTrue hdiffers => exact hsigned _
        case isFalse hequal =>
          split
          case isTrue hreached =>
            split
            case isTrue hset => exact hfrozen
            case isFalse hclear => exact hfrozen.emit _
          case isFalse hbelow => exact hsigned counted
  split
  case isTrue hsame => exact hcompared
  case isFalse hlogged => exact hcompared.emit _

section
variable {c c1 : Cell} {b : Nat}

/-- The band close of a band that is encoded. -/
theorem bandClose_closed (hb : b < c.bandCount) (hwide : c.hActive + 16 < c.hTotal)
    (hrun : c.runTo (c.lastLine b) (c.hActive + 16) = some c1) (hdone : c1.beam.done.contains 9 = false)
    (hheld : c1.picture.held = false) (hfirst : c1.picture.firstBand ≤ b) :
    ∃ p : Cell, EncoderKeeps c1 p ∧ EncoderKeeps
      { p with picture := { p.picture with
        hashes := (c1.bandBlocks b).foldl (hashTaken (b * c1.blockCols)) p.picture.hashes } } (c.bandClose b) := by
  rw [Cell.bandClose, if_neg (Nat.not_le.mpr hb)]
  extract_lets wrap
  have hwrap : ¬ wrap := Nat.not_le.mpr hwide
  rw [if_neg hwrap, if_neg hwrap, eventAt_eq _ hrun hdone]
  extract_lets blocks encode crcs pic taken published pic' stored signed
  have hencode : encode = true := by
    unfold encode
    rw [show (marked c1 9).picture = c1.picture from rfl, hheld, decide_eq_true hfirst]
    rfl
  have hpublished : EncoderKeeps c1 published := by
    have htaken : EncoderKeeps c1 taken := ⟨rfl, rfl, rfl, rfl, List.prefix_rfl⟩
    unfold published
    rw [if_pos hencode]
    exact htaken.trans (.foldl (fun d st => publishBand_keeps b blocks st d) _ _)
  have hcols : published.blockCols = c1.blockCols := by
    rw [Cell.blockCols, Cell.hActive, Cell.ef16, hpublished.eff]
    rfl
  have hstored : stored = { published with picture := { published.picture with
      hashes := (c1.bandBlocks b).foldl (hashTaken (b * c1.blockCols)) published.picture.hashes } } := by
    unfold stored
    rw [if_pos hencode, ← hcols]
    rfl
  refine ⟨published, hpublished, hstored ▸ ?_⟩
  rw [if_pos hencode]
  split
  · exact (signFrame_keeps stored).trans (.foldl (fun d st => sealFrame_keeps st d) _ _)
  · exact .refl stored

end

/-! ### REFRESH_ALL (R242) -/

section
variable {c : Cell}

/-- In mid-frame the next frame is the first that begins after the acceptance. -/
theorem refreshAll_inside (h : c.atFrameEnd = false) :
    c.refreshAll = { c with
      io := c.io.setBit 0xEA04 0 true
      picture := { c.picture with refreshNext := [.shq, .clq, .svc] } } :=
  if_neg (Bool.eq_false_iff.mp h)

/-- At the last dot of a frame the acceptance falls at the boundary, and the request waits in the log
of writes of that tick. -/
theorem refreshAll_boundary (h : c.atFrameEnd = true) :
    c.refreshAll = { c with
      io := c.io.setBit 0xEA04 0 true
      beam := { c.beam with shadowLog := c.beam.shadowLog ++
        [{ accepted := c.beam.ctime + 1, addr := 0xEA04, old := 1#8 }] } } :=
  if_pos h

end

/-- Settles O24: an underrun by the lines that it counts, a comparison by its mismatches, a band close by the hash store
that it leaves, and REFRESH_ALL by where in the frame it is accepted. -/
theorem layersGuardsAndBands : Obligations.LayersGuardsAndBands := by
  unfold Obligations.LayersGuardsAndBands
  intro s ch c c1 h
  refine ⟨?underrun, ?guard, ?band, ?inside, ?boundary⟩
  case underrun =>
    intro l y hl hrun hdone hy hdry hwf miss
    refine ⟨fun hwhole => next_of_cellEvent h (layerUnderrun_whole hrun hdone hwhole), fun hmiss => ?_⟩
    obtain ⟨i, q, hnoted, hpend⟩ := layerUnderrun_counted hrun hdone hl hy hdry hmiss
    exact ⟨_, next_of_cellEvent h hnoted, underrunNoted_count hwf l _, underrunNoted_flag _ _ _, hpend, rfl, rfl, rfl⟩
  case guard =>
    intro b hb hdry hrun hdone miss
    refine ⟨fun hnone => next_of_cellEvent h (guardCompare_matching hb hdry hrun hdone hnone), fun hsome => ?_⟩
    obtain ⟨hkeeps, hmarked⟩ := guardCompare_marked hb hdry hrun hdone hsome
    obtain ⟨x, hx⟩ := hsome
    exact ⟨_, next_of_cellEvent h rfl, (hmarked x hx).raised, hkeeps.mem, hkeeps.core, hkeeps.eff,
      fun hwf x hx r hr => ⟨(hmarked x hx).stat hwf r hr, (hmarked x hx).held hwf r hr⟩⟩
  case band =>
    intro b hb hwide hrun hdone hheld hfirst
    obtain ⟨p, hpublished, hended⟩ := bandClose_closed hb hwide hrun hdone hheld hfirst
    refine ⟨_, next_of_cellEvent h rfl, fun v hv hfree => ?_, hpublished.handed.trans hended.handed,
      hended.mem.trans hpublished.mem, hended.core.trans hpublished.core, hended.eff.trans hpublished.eff⟩
    rw [hended.hashes]
    exact lookup_foldl_hashTaken (bandBlocks_cols c1 b) hv hfree _
  case inside => exact fun hinside => next_of_cellEvent h (refreshAll_inside hinside)
  case boundary => exact fun hlast => next_of_cellEvent h (refreshAll_boundary hlast)

end Sys2Proof.CompositionAndGuards
end

section
/-! PROOFS. Audio: the voices at a chip tick, and the PCM voice. -/

namespace Sys2Proof.AudioBlock

open Sys2Proof.Machine Sys2Proof.DecodeAndPace Sys2Proof.BeamAndRaster

/-! ### The beam runs to a chip tick (R290 to R293) -/

section
variable {c c1 : Cell} {en : Nat} {v : Audio → Option Voice}

theorem runToReload_found (h : Cell.passToChip (Cell.reloads en v) c.dotsLeft c = some c1) :
    c.runToReload en v = c1 := by
  rw [Cell.runToReload, h]
  rfl

theorem runToReload_none (h : Cell.passToChip (Cell.reloads en v) c.dotsLeft c = none) : c.runToReload en v = c := by
  rw [Cell.runToReload, h]
  rfl

theorem clickAccept_clean (h : c.audio.clickDirty = false) : c.clickAccept = c := by
  rw [Cell.clickAccept, h]
  rfl

theorem clickAccept_found (h : c.audio.clickDirty = true)
    (hrun : Cell.passUntil (fun x => x.audio.chipTicks != c.audio.chipTicks) 2048 c = some c1) :
    c.clickAccept = c1 := by
  simp only [Cell.clickAccept, h, not_true, if_false, hrun, Option.getD_some]

end

/-! ### What a chip tick accepts (R288, R292, R293) -/

theorem copyBytes_wf (src : Bytes) (l : List Nat) {dst : Bytes} (h : dst.wf = true) :
    (copyBytes src l dst).wf = true :=
  List.foldlRecOn (motive := fun m => Bytes.wf m = true) l _ h fun m hm a _ => Bytes.wr_wf m a _ hm

/-- The chip-domain registers but the wave RAM as written, where a write of one waits (R288). -/
def regsAccepted (c : Cell) : Bytes :=
  if c.audio.chipDirty then copyBytes c.io (chipRegs.filter fun x => x < 0xEB30) c.eff else c.eff

/-- The registers by which a chip tick counts its voices: the wave RAM is accepted after their outputs (R292). -/
def countedBy (c : Cell) : Bytes :=
  if c.audio.clickDirty then (regsAccepted c).wr 0xEB50 (c.io.rd 0xEB50) else regsAccepted c

/-- The wave RAM. -/
def ramRegs : List Nat := chipRegs.filter fun x => 0xEB30 ≤ x

section
variable (c : Cell)

theorem chipTick_eff :
    c.chipTick.eff = if c.audio.chipDirty then copyBytes c.io ramRegs (countedBy c) else countedBy c := rfl

/-- Outside the wave RAM a register in effect after a chip tick is what the tick counted by. -/
theorem chipTick_eff_rd {a : Nat} (h : a ∉ ramRegs) : c.chipTick.eff.rd a = (countedBy c).rd a := by
  rw [chipTick_eff]
  split
  · exact rd_copyBytes_of_not_mem _ h _
  · rfl

theorem lt_not_mem_ramRegs {a : Nat} (h : a < 0xEB30) : a ∉ ramRegs := fun hm => by
  have := of_decide_eq_true (List.mem_filter.mp hm).2
  omega

theorem chipTick_eff_bit {a : Nat} (i : Nat) (h : a < 0xEB30) :
    c.chipTick.eff.bit a i = (countedBy c).bit a i := by
  rw [Bytes.bit, chipTick_eff_rd c (lt_not_mem_ramRegs h), Bytes.bit]

theorem chipTick_eff_pair {a : Nat} (h : a + 1 < 0xEB30) : c.chipTick.eff.rdN a 2 = (countedBy c).rdN a 2 := by
  simp only [Bytes.rdN, chipTick_eff_rd c (lt_not_mem_ramRegs h),
    chipTick_eff_rd c (lt_not_mem_ramRegs (Nat.lt_of_succ_lt h))]

/-- A chip tick accepts a written CLICK (R293). -/
theorem chipTick_click (hwf : c.eff.wf = true) (hdirty : c.audio.clickDirty = true) :
    c.chipTick.eff.rd 0xEB50 = c.io.rd 0xEB50 := by
  have hregs : (regsAccepted c).wf = true := by
    unfold regsAccepted
    split
    · exact copyBytes_wf _ _ hwf
    · exact hwf
  rw [chipTick_eff_rd c (by decide), countedBy, if_pos hdirty, Bytes.rd_wr_same _ _ _ hregs]

/-! ### The counters at a chip tick (R290 to R292) -/

/-- A voice after a chip tick that leaves cell `c`, by its EN at `en` and its period at `per`. -/
def ticked (c : Cell) (en per size : Nat) (x : Voice) : Voice := x.tick (c.eff.bit en 7) (c.eff.rdN per 2) size

theorem ticked_eq (en per size : Nat) (x : Voice) :
    ticked c en per size x =
      if c.eff.bit en 7 = false then x
      else if x.count = 0 then { count := c.eff.rdN per 2, phase := (x.phase + 1) % size }
      else { x with count := x.count - 1 } := by
  simp only [ticked, Voice.tick, Bool.not_eq_true]

theorem tick_countedBy {en per : Nat} (size : Nat) (x : Voice) (hen : en < 0xEB30) (hper : per + 1 < 0xEB30) :
    x.tick ((countedBy c).bit en 7) ((countedBy c).rdN per 2) size = ticked c.chipTick en per size x := by
  rw [ticked, chipTick_eff_bit c 7 hen, chipTick_eff_pair c hper]

/-- An element of a list that is mapped with its places. -/
theorem getElem?_map_zipIdx {α β : Type} (l : List α) (f : α × Nat → β) (v : Nat) :
    (l.zipIdx.map f)[v]? = (l[v]?).map fun x => f (x, v) := by
  simp [List.getElem?_zipIdx, Function.comp_def]

theorem chipTick_tone {v : Nat} (hv : v < 4) :
    c.chipTick.audio.tones[v]? =
      (c.audio.tones[v]?).map (ticked c.chipTick (0xEB13 + 4 * v) (0xEB10 + 4 * v) 16) := by
  refine (getElem?_map_zipIdx c.audio.tones _ v).trans (congrArg (Option.map · _) (funext fun x => ?_))
  exact tick_countedBy c 16 x (by omega) (by omega)

theorem chipTick_noise : c.chipTick.audio.noise = ticked c.chipTick 0xEB22 0xEB20 1 c.audio.noise :=
  tick_countedBy c 1 c.audio.noise (by decide) (by decide)

theorem chipTick_wave {w : Nat} (hw : w < 2) :
    c.chipTick.audio.waves[w]? =
      (c.audio.waves[w]?).map (ticked c.chipTick (0xEB26 + 4 * w) (0xEB24 + 4 * w) 32) := by
  refine (getElem?_map_zipIdx c.audio.waves _ w).trans (congrArg (Option.map · _) (funext fun x => ?_))
  exact tick_countedBy c 32 x (by omega) (by omega)

/-- The shift register steps where the noise counter reloads (R291). -/
theorem chipTick_shift :
    c.chipTick.audio.shift =
      if c.chipTick.eff.bit 0xEB22 7 = true ∧ c.audio.noise.count = 0 then
        noiseNext (c.chipTick.eff.bit 0xEB22 6) c.audio.shift
      else c.audio.shift := by
  rw [chipTick_eff_bit c 7 (by decide), chipTick_eff_bit c 6 (by decide)]
  rfl

end

/-! ### The PCM voice (R294) -/

/-- PCM_DATA sets no byte of its own. -/
theorem locate_pcmData : locate 0xEB59 = some (byteReg 0xEB59 0 0) := rfl

section
variable (c : Cell) (v : Byte)

/-- A write of 0EB00h to 0EBFFh is one of the audio registers. -/
theorem ioStore_audio {a : Nat} {l : IoLoc} (hl : locate a = some l) (hlo : 0xEB00 ≤ a) (hhi : a < 0xEC00) :
    c.ioStore a v = c.storeAudio l a v := by
  have h1 : ¬ a < 0xE100 := by omega
  have h2 : ¬ a < 0xE200 := by omega
  have h3 : ¬ a < 0xE300 := by omega
  have h4 : ¬ a < 0xE400 := by omega
  have h5 : ¬ a < 0xE500 := by omega
  have h6 : ¬ a < 0xE600 := by omega
  have h7 : ¬ a < 0xE700 := by omega
  have h8 : ¬ a < 0xEB00 := by omega
  simp only [Cell.ioStore, Cell.ioStoreBase, hl, h1, h2, h3, h4, h5, h6, h7, h8, hhi, and_false, if_false, if_true]

theorem ioStore_pcmData : c.ioStore 0xEB59 v = c.pcmPush v := by
  rw [ioStore_audio c v locate_pcmData (by decide) (by decide)]
  rfl

end

theorem pcmPush_room {c : Cell} (v : Byte) (h : c.audio.pcmFifo.length < 32) :
    c.pcmPush v = { c with audio := { c.audio with pcmFifo := c.audio.pcmFifo ++ [v] } } :=
  if_neg (Nat.not_le.mpr h)

theorem pcmPush_full {c : Cell} (v : Byte) (h : 32 ≤ c.audio.pcmFifo.length) :
    c.pcmPush v = { c with io := c.io.setBit 0xEB5B 3 true } :=
  if_pos h

/-- The timer whose triggers the PCM voice takes. -/
def pcmTimer (c : Cell) : Nat := bitsOf (c.io.rd 0xEB58).toNat 3 2

/-- The audio block with the waiting trigger of that timer taken away. -/
def triggerGone (c : Cell) : Audio := { c.audio with pcmTrigger := c.audio.pcmTrigger ^^^ (1 <<< pcmTimer c) }

/-- The audio block with that trigger accepted, `clocks` I/O clocks after the last one. -/
def triggerAccepted (c : Cell) (clocks : Nat) : Audio :=
  { triggerGone c with pcmInterval := clocks, pcmSlow := false, pcmAt := some c.beam.ctime }

section
variable {c : Cell} {clocks : Nat} (hwaits : c.audio.pcmTrigger.testBit (pcmTimer c) = true)
  (hon : (c.io.rd 0xEB58).getLsbD 7 = true) (hnap : c.nap.napping = false)
include hwaits hon hnap

/-- A waiting trigger of the PCM voice's timer, while the voice is enabled outside a nap. -/
theorem pcmTriggered_waiting :
    c.pcmTriggered clocks =
      if clocks * 48000 * 0x100000000 < 400000000 * c.ioFreq then
        { c with audio := triggerGone c, io := c.io.setBit 0xEB5B 1 true }
      else if c.audio.pcmFifo.length < c.pcmWidth then
        { c with
          audio := { triggerAccepted c clocks with
            pcmSamples := (c.audio.pcmSamples.headD 0 :: c.audio.pcmSamples).take 4 }
          io := countOpen (c.io.setBit 0xEB5B 0 true) 0xEB5C }
      else
        { c with audio := { triggerAccepted c clocks with
            pcmSamples := (pcmValue (bitsOf (c.io.rd 0xEB58).toNat 6 5) (c.audio.pcmFifo.take c.pcmWidth) ::
              c.audio.pcmSamples).take 4
            pcmFifo := c.audio.pcmFifo.drop c.pcmWidth } } := by
  have hen : (c.io.rd 0xEB58).toNat.testBit 7 = true := hon
  have hbit : c.audio.pcmTrigger.testBit (bitsOf (c.io.rd 0xEB58).toNat 3 2) = true := hwaits
  simp only [Cell.pcmTriggered, hbit, hen, hnap, not_true, Bool.false_eq_true, or_self, if_false]
  rfl

/-- A trigger that comes too early is dropped. -/
theorem pcmTriggered_early (hearly : clocks * 48000 * 0x100000000 < 400000000 * c.ioFreq) :
    c.pcmTriggered clocks = { c with audio := triggerGone c, io := c.io.setBit 0xEB5B 1 true } := by
  rw [pcmTriggered_waiting hwaits hon hnap, if_pos hearly]

/-- A trigger takes a sample that waits in the FIFO. -/
theorem pcmTriggered_sample (hlate : ¬ clocks * 48000 * 0x100000000 < 400000000 * c.ioFreq)
    (hfull : c.pcmWidth ≤ c.audio.pcmFifo.length) :
    c.pcmTriggered clocks =
      { c with audio := { triggerAccepted c clocks with
          pcmSamples := (pcmValue (bitsOf (c.io.rd 0xEB58).toNat 6 5) (c.audio.pcmFifo.take c.pcmWidth) ::
            c.audio.pcmSamples).take 4
          pcmFifo := c.audio.pcmFifo.drop c.pcmWidth } } := by
  rw [pcmTriggered_waiting hwaits hon hnap, if_neg hlate, if_neg (Nat.not_lt.mpr hfull)]

/-- A trigger that finds less than a sample repeats the last one, and counts the underrun. -/
theorem pcmTriggered_underrun (hlate : ¬ clocks * 48000 * 0x100000000 < 400000000 * c.ioFreq)
    (hdry : c.audio.pcmFifo.length < c.pcmWidth) :
    c.pcmTriggered clocks =
      { c with
        audio := { triggerAccepted c clocks with
          pcmSamples := (c.audio.pcmSamples.headD 0 :: c.audio.pcmSamples).take 4 }
        io := countOpen (c.io.setBit 0xEB5B 0 true) 0xEB5C } := by
  rw [pcmTriggered_waiting hwaits hon hnap, if_neg hlate, if_pos hdry]

end

/-- The cell with its PCM voice noted as slow. -/
def slowNoted (c : Cell) : Cell :=
  { c with io := c.io.setBit 0xEB5B 2 true, audio := { c.audio with pcmSlow := true } }

section
variable {c : Cell} {t : Nat}

/-- A voice without a trigger, disabled, napping or slow already is not noted as slow. -/
theorem pcmSlows_idle (h : c.audio.pcmAt = none ∨ (c.io.rd 0xEB58).getLsbD 7 = false ∨ c.nap.napping = true ∨
    c.audio.pcmSlow = true) : c.pcmSlows = c := by
  unfold Cell.pcmSlows
  split
  case h_1 => rfl
  case h_2 t hat =>
    refine if_pos ?_
    obtain hnone | hoff | hnap | hslow := h
    · exact absurd (hat.symm.trans hnone) (by simp)
    · exact .inl (by rw [Bytes.bit, hoff]; decide)
    · exact .inr (.inl hnap)
    · exact .inr (.inr hslow)

section
variable (hat : c.audio.pcmAt = some t) (hon : (c.io.rd 0xEB58).getLsbD 7 = true) (hnap : c.nap.napping = false)
  (hslow : c.audio.pcmSlow = false)
include hat hon hnap hslow

/-- Such a voice is noted as slow at the tick at which its trigger is overdue, when this frame has it. -/
theorem pcmSlows_due : c.pcmSlows =
    ((if c.slowTime t ≤ c.beam.ctime then some c else c.runToTime (c.slowTime t)).map slowNoted).getD c := by
  have hen : c.io.bit 0xEB58 7 = true := hon
  simp only [Cell.pcmSlows, hat, hen, hnap, hslow, not_true, Bool.false_eq_true, or_self, if_false]
  generalize (if c.slowTime t ≤ c.beam.ctime then some c else c.runToTime (c.slowTime t)) = r
  cases r <;> rfl

theorem pcmSlows_past (hdue : c.slowTime t ≤ c.beam.ctime) : c.pcmSlows = slowNoted c := by
  rw [pcmSlows_due hat hon hnap hslow, if_pos hdue]
  rfl

theorem pcmSlows_ahead (hdue : c.beam.ctime < c.slowTime t) :
    c.pcmSlows = ((c.runToTime (c.slowTime t)).map slowNoted).getD c := by
  rw [pcmSlows_due hat hon hnap hslow, if_neg (Nat.not_le.mpr hdue)]

theorem pcmSlows_found {x : Cell} (hdue : c.beam.ctime < c.slowTime t) (hrun : c.runToTime (c.slowTime t) = some x) :
    c.pcmSlows = slowNoted x := by
  rw [pcmSlows_ahead hat hon hnap hslow hdue, hrun]
  rfl

theorem pcmSlows_not_found (hdue : c.beam.ctime < c.slowTime t) (hrun : c.runToTime (c.slowTime t) = none) :
    c.pcmSlows = c := by
  rw [pcmSlows_ahead hat hon hnap hslow hdue, hrun]
  rfl

end

end

end Sys2Proof.AudioBlock
end

section
/-! PROOFS. Audio: the mixer's writes, the mix tick and the outputs. -/

namespace Sys2Proof.AudioBlock

open Sys2Proof.Machine Sys2Proof.DecodeAndPace

/-! ### Writes that wait for the mix tick (R288, R298 to R300) -/

/-- The cell with writes that wait for its mix tick. -/
def queued (c : Cell) (l : List MixWrite) : Cell :=
  { c with audio := { c.audio with mixWrites := c.audio.mixWrites ++ l } }

theorem foldl_queueMix (l : List MixWrite) (c : Cell) : l.foldl Cell.queueMix c = queued c l := by
  induction l generalizing c with
  | nil => simp [queued]
  | cons w l ih =>
    rw [List.foldl_cons, ih]
    simp [queued, Cell.queueMix]

/-- A byte of a mixer register of two bytes that is written through a hold. -/
def mixPair (a rw off : Nat) : IoLoc := { reg := ⟨a, 2, 1, 1, rw, 0, 0, .imm, false, true⟩, start := a, off := off }

section
variable (a rw off : Nat)

@[simp] theorem mixPair_start : (mixPair a rw off).start = a := rfl
@[simp] theorem mixPair_rw : (mixPair a rw off).reg.rw = rw := rfl
@[simp] theorem mixPair_hold : (mixPair a rw off).reg.hold = true := rfl
@[simp] theorem mixPair_rl : (mixPair a rw off).reg.rl = false := rfl

end

theorem locate_nodeGainLow : locate 0xEB62 = some (mixPair 0xEB62 0xFFFF 0) := rfl
theorem locate_nodeGainHigh : locate 0xEB63 = some (mixPair 0xEB62 0xFFFF 1) := rfl
theorem locate_routeMoveLow : locate 0xEB68 = some (mixPair 0xEB68 0 0) := rfl
theorem locate_routeMoveHigh : locate 0xEB69 = some (mixPair 0xEB68 0 1) := rfl
theorem locate_bqApply : locate 0xEB7B = some (byteReg 0xEB7B 0 0xFF) := rfl

/-- The low byte of a pair in its hold (R500). -/
def lowHeld (c : Cell) (a : Nat) (low : Byte) : Cell := { c with holds := (c.holds.wr (2 * a) low).wr (2 * a + 1) 1#8 }

/-- The cell in which a pair has been written whole: its hold is free, and the bits that `rw` names are as written. -/
def mixPairWritten (c : Cell) (a rw : Nat) (low high : Byte) : Cell :=
  { c with
    holds := (c.holds.wr (2 * a) 0#8).wr (2 * a + 1) 0#8
    io := if rw = 0 then c.io else (c.io.wr a (low &&& maskByte rw 0)).wr (a + 1) (high &&& maskByte rw 1) }

section
variable {c : Cell} (a rw : Nat)

theorem holdWrite_low (low : Byte) : c.holdWrite (mixPair a rw 0) a low = (none, lowHeld c a low) := rfl

/-- A write of a pair's top byte takes its low byte as held, and frees the hold. -/
theorem holdWrite_high (b : Nat) {low : Byte} (high : Byte) (hhold : c.holds.rd (2 * a) = low)
    (hheld : c.holds.rd (2 * a + 1) = 1#8) :
    c.holdWrite (mixPair a rw 1) b high =
      (some [(a, low), (b, high)], { c with holds := (c.holds.wr (2 * a) 0#8).wr (2 * a + 1) 0#8 }) := by
  simp [Cell.holdWrite, mixPair, hhold, hheld, List.range_succ]

theorem putBytes_mixPair {b : Nat} (low high : Byte) (hb : b = a + 1) :
    c.putBytes (mixPair a rw 1) [(a, low), (b, high)] =
      { c with io := (c.io.wr a (low &&& maskByte rw 0)).wr b (high &&& maskByte rw 1) } := by
  simp [Cell.putBytes, mixPair, hb]

end

section
variable {c : Cell} {low : Byte}

theorem storeAudio_nodeGainLow : c.storeAudio (mixPair 0xEB62 0xFFFF 0) 0xEB62 low = lowHeld c 0xEB62 low := by
  simp [Cell.storeAudio, holdWrite_low]

theorem storeAudio_routeMoveLow : c.storeAudio (mixPair 0xEB68 0 0) 0xEB68 low = lowHeld c 0xEB68 low := by
  simp [Cell.storeAudio, Cell.mixWriteOf, holdWrite_low]

theorem storeAudio_nodeGainHigh (high : Byte) (hhold : c.holds.rd (2 * 0xEB62) = low)
    (hheld : c.holds.rd (2 * 0xEB62 + 1) = 1#8) (hsel : (c.io.rd 0xEB60).toNat % 128 < 96) :
    c.storeAudio (mixPair 0xEB62 0xFFFF 1) 0xEB63 high =
      queued (mixPairWritten c 0xEB62 0xFFFF low high)
        [.gain ((c.io.rd 0xEB60).toNat % 128) (signedOf 16 (low.toNat + 256 * high.toNat))] := by
  simp [Cell.storeAudio, holdWrite_high 0xEB62 0xFFFF _ high hhold hheld, putBytes_mixPair, Cell.mixWriteOf,
    Bytes.rd_wr_other, hsel, leOf, leNat, queued, Cell.queueMix, mixPairWritten]

theorem storeAudio_routeMoveHigh (high : Byte) (hhold : c.holds.rd (2 * 0xEB68) = low)
    (hheld : c.holds.rd (2 * 0xEB68 + 1) = 1#8) :
    let v := low.toNat + 256 * high.toNat
    c.storeAudio (mixPair 0xEB68 0 1) 0xEB69 high =
      queued (mixPairWritten c 0xEB68 0 low high) [.move (bitsOf v 15 12) (bitsOf v 10 8) (bitsOf v 6 4)] := by
  simp [Cell.storeAudio, holdWrite_high 0xEB68 0 _ high hhold hheld, Cell.mixWriteOf, leOf, leNat, queued,
    Cell.queueMix, mixPairWritten]

theorem lowHeld_held (hwf : c.holds.wf = true) (a : Nat) :
    (lowHeld c a low).holds.rd (2 * a) = low ∧ (lowHeld c a low).holds.rd (2 * a + 1) = 1#8 := by
  constructor
  · exact (Bytes.rd_wr_other _ _ _ _ (by omega)).trans (Bytes.rd_wr_same _ _ _ hwf)
  · exact Bytes.rd_wr_same _ _ _ (Bytes.wr_wf _ _ _ hwf)

end

/-- A pair's two bytes are the pair. -/
theorem bytes_of_half (v : Half) : (v.setWidth 8).toNat + 256 * ((v >>> 8).setWidth 8).toNat = v.toNat := by
  have := v.isLt
  simp only [BitVec.toNat_setWidth, BitVec.toNat_ushiftRight, Nat.shiftRight_eq_div_pow]
  omega

theorem signedOf_half (v : Half) : signedOf 16 v.toNat = v.toInt := by
  have := v.isLt
  rw [signedOf, BitVec.toInt_eq_toNat_cond]
  split <;> split <;> omega

section
variable {c : Cell} (v : Half) (hwf : c.holds.wf = true)
include hwf

/-- A write of NODE_GAIN waits for the mix tick, for the node selected (R288, R298). -/
theorem ioStore_nodeGain (hsel : (c.io.rd 0xEB60).toNat % 128 < 96) :
    (c.ioStore 0xEB62 (v.setWidth 8)).ioStore 0xEB63 ((v >>> 8).setWidth 8) =
      queued (mixPairWritten (lowHeld c 0xEB62 (v.setWidth 8)) 0xEB62 0xFFFF (v.setWidth 8) ((v >>> 8).setWidth 8))
        [.gain ((c.io.rd 0xEB60).toNat % 128) v.toInt] := by
  obtain ⟨hhold, hheld⟩ := lowHeld_held (low := v.setWidth 8) hwf 0xEB62
  rw [ioStore_audio _ _ locate_nodeGainLow (by decide) (by decide), storeAudio_nodeGainLow,
    ioStore_audio _ _ locate_nodeGainHigh (by decide) (by decide), storeAudio_nodeGainHigh _ hhold hheld hsel,
    bytes_of_half, signedOf_half]
  rfl

/-- A write of ROUTE_MOVE waits for the mix tick (R288, R299). -/
theorem ioStore_routeMove :
    (c.ioStore 0xEB68 (v.setWidth 8)).ioStore 0xEB69 ((v >>> 8).setWidth 8) =
      queued (mixPairWritten (lowHeld c 0xEB68 (v.setWidth 8)) 0xEB68 0 (v.setWidth 8) ((v >>> 8).setWidth 8))
        [.move (bitsOf v.toNat 15 12) (bitsOf v.toNat 10 8) (bitsOf v.toNat 6 4)] := by
  obtain ⟨hhold, hheld⟩ := lowHeld_held (low := v.setWidth 8) hwf 0xEB68
  rw [ioStore_audio _ _ locate_routeMoveLow (by decide) (by decide), storeAudio_routeMoveLow,
    ioStore_audio _ _ locate_routeMoveHigh (by decide) (by decide), storeAudio_routeMoveHigh _ hhold hheld,
    bytes_of_half]

end

/-- A write of BQ_APPLY asks for the outputs whose bits it sets, and the bits show until the mix tick (R300). -/
theorem ioStore_bqApply (c : Cell) (v : Byte) :
    c.ioStore 0xEB7B v =
      queued { c with io := c.io.orb 0xEB7B v }
        ((List.range 8).filterMap fun i => if v.toNat.testBit i then some (.apply i) else none) := by
  rw [ioStore_audio c v locate_bqApply (by decide) (by decide), ← foldl_queueMix]
  simp [Cell.storeAudio, byteReg, Cell.mixWriteOf, leOf, leNat]

/-! ### A mix tick: the writes accepted (R288, R298 to R300) -/

/-- What a mix tick leaves of the audio block up to the mixing itself. -/
structure MixKeeps (a b : Audio) : Prop where
  mixTicks : b.mixTicks = a.mixTicks
  mixWrites : b.mixWrites = a.mixWrites
  loopback : b.loopback = a.loopback
  next : ∀ o : Nat, (b.outs[o]?).map (·.next) = (a.outs[o]?).map (·.next)

theorem MixKeeps.refl (a : Audio) : MixKeeps a a := ⟨rfl, rfl, rfl, fun _ => rfl⟩

theorem MixKeeps.trans {a b d : Audio} (h : MixKeeps a b) (k : MixKeeps b d) : MixKeeps a d :=
  ⟨k.mixTicks.trans h.mixTicks, k.mixWrites.trans h.mixWrites, k.loopback.trans h.loopback,
    fun o => (k.next o).trans (h.next o)⟩

theorem setNode_keeps (a : Audio) (n : Nat) (x : Node) : MixKeeps a (a.setNode n x) := ⟨rfl, rfl, rfl, fun _ => rfl⟩

theorem retarget_keeps (a : Audio) (nodes : List Nat) : MixKeeps a (a.retarget nodes) := by
  refine List.foldlRecOn (motive := MixKeeps a) nodes _ (MixKeeps.refl a) fun b hb n _ => ?_
  extract_lets x t
  split
  · exact hb
  · exact hb.trans (setNode_keeps b _ _)

theorem move_keeps (a : Audio) (input src dst : Nat) : MixKeeps a (a.move input src dst) := by
  unfold Audio.move
  split
  · exact MixKeeps.refl a
  · exact (setNode_keeps a _ _).trans (setNode_keeps _ _ _)

/-- An element of a list changed in a way that a view does not show. -/
theorem map_getElem?_updateAt {α β : Type} (view : α → β) {f : α → α} (hf : ∀ x, view (f x) = view x) (l : List α)
    (n i : Nat) : ((updateAt l n f)[i]?).map view = (l[i]?).map view := by
  induction l generalizing n i with
  | nil => rfl
  | cons x t ih =>
    cases n with
    | zero => cases i <;> simp [updateAt, hf]
    | succ n => cases i <;> simp [updateAt, ih]

theorem updateOut_keeps (a : Audio) (o : Nat) {f : MixOut → MixOut} (hf : ∀ x, (f x).next = x.next) :
    MixKeeps a (updateOut a o f) :=
  ⟨rfl, rfl, rfl, fun i => map_getElem?_updateAt (·.next) hf a.outs o i⟩

theorem accept_keeps (a : Audio) (w : MixWrite) : MixKeeps a (a.accept w) := by
  cases w with
  | gain n v => exact setNode_keeps a n _
  | mute n b => exact setNode_keeps a n _
  | move i f t => exact move_keeps a i f t
  | limEn o b => exact updateOut_keeps a o fun _ => rfl
  | limThr o v => exact updateOut_keeps a o fun _ => rfl
  | limRel o v => exact updateOut_keeps a o fun _ => rfl
  | coef o k v => exact updateOut_keeps a o fun _ => rfl
  | apply o => exact updateOut_keeps a o fun _ => rfl
  | byte x v => exact MixKeeps.refl a

theorem acceptAll_keeps (a : Audio) (writes : List MixWrite) : MixKeeps a (a.acceptAll writes) := by
  refine MixKeeps.trans ?_ (retarget_keeps _ _)
  refine List.foldlRecOn (motive := fun p : Audio × List Nat => MixKeeps a p.1) writes _ (MixKeeps.refl a)
    fun p hp w _ => ?_
  cases w with
  | move i f t =>
    dsimp only
    exact (hp.trans (retarget_keeps p.1 p.2)).trans (accept_keeps _ _)
  | _ =>
    dsimp only
    exact hp.trans (accept_keeps p.1 _)

/-! ### A mix tick: the inputs taken (R304, R305) -/

/-- What the inputs of a mix tick leave of a cell. -/
structure InputKeeps (c d : Cell) : Prop where
  core : d.core = c.core
  mem : d.mem = c.mem
  beam : d.beam = c.beam
  eff : d.eff = c.eff
  audio : MixKeeps c.audio d.audio

theorem InputKeeps.refl (c : Cell) : InputKeeps c c := ⟨rfl, rfl, rfl, rfl, MixKeeps.refl _⟩

theorem InputKeeps.trans {c d e : Cell} (h : InputKeeps c d) (k : InputKeeps d e) : InputKeeps c e :=
  ⟨k.core.trans h.core, k.mem.trans h.mem, k.beam.trans h.beam, k.eff.trans h.eff, h.audio.trans k.audio⟩

theorem hostIn_keeps (c : Cell) : InputKeeps c c.hostIn.2 := by
  have hplays (ain : List (List (Int × Int))) (playing : Bool) (io : Bytes) :
      InputKeeps c { c with audio := { c.audio with ain := ain, playing := playing }, io := io } :=
    ⟨rfl, rfl, rfl, rfl, rfl, rfl, rfl, fun _ => rfl⟩
  unfold Cell.hostIn
  extract_lets a playing take
  split
  · exact InputKeeps.refl c
  · split
    · exact InputKeeps.refl c
    · split
      case h_1 f a' htake =>
        unfold take at htake
        split at htake
        · obtain ⟨rfl, rfl⟩ := Prod.mk.inj (Option.some.inj htake)
          exact hplays _ _ _
        · exact absurd htake (by simp)
      case h_2 => exact hplays _ _ _

theorem pinInTake_keeps (c : Cell) : InputKeeps c c.pinInTake.2 := by
  unfold Cell.pinInTake
  extract_lets cfg p n rx v left ramp out q
  split
  · exact InputKeeps.refl c
  · exact ⟨rfl, rfl, rfl, rfl, rfl, rfl, rfl, fun _ => rfl⟩

/-! ### A mix tick: the outputs (R287, R302, R308) -/

/-- Outputs 4 and 5 of a cell as a loopback frame: L in the low half, R in the high half (R308). -/
def loopbackFrame (c : Cell) : Word :=
  let z (o : Nat) : Int := (c.audio.outs[o]?).elim 0 (·.sample)
  BitVec.ofNat 32 (wordOf 16 (sample16 (z 4)) + 65536 * wordOf 16 (sample16 (z 5)))

/-- What a mix tick makes of a cell outside a nap; a loopback frame holds the samples that the tick delivers. -/
structure Mixed (c d : Cell) : Prop where
  core : d.core = c.core
  mem : d.mem = c.mem
  beam : d.beam = c.beam
  mixTicks : d.audio.mixTicks = c.audio.mixTicks + 1
  mixWrites : d.audio.mixWrites = []
  sample : ∀ o : Nat, (d.audio.outs[o]?).map (·.sample) = (c.audio.outs[o]?).map (·.next)
  pushed : c.audio.mixWrites = [] → c.eff.bit 0xEB98 7 = true → c.audio.loopback.length < 64 →
    d.audio.loopback = c.audio.loopback ++ [loopbackFrame d]
  held : c.audio.mixWrites = [] → c.eff.bit 0xEB98 7 = false → d.audio.loopback = c.audio.loopback

theorem Mixed.emit {c d : Cell} (h : Mixed c d) (e : Emit) : Mixed c (d.emit e) :=
  ⟨h.core, h.mem, h.beam, h.mixTicks, h.mixWrites, h.sample, h.pushed, h.held⟩

/-- Each output delivers its sample of the tick before. -/
theorem sample_of_ticked (outs : List MixOut) (f y : Nat → Int) (o : Nat) :
    ((outs.zipIdx.map fun q => q.1.tick (f q.2) (y q.2))[o]?).map (·.sample) = (outs[o]?).map (·.next) := by
  rw [getElem?_map_zipIdx, Option.map_map]
  rfl

theorem mixTick_napping {c : Cell} (since : Nat) (h : c.nap.napping = true) :
    c.mixTick since = { c with audio := { c.audio with mixTicks := c.audio.mixTicks + 1, packet := [] } } :=
  if_pos h

theorem mixTick_mixed {c : Cell} (since : Nat) (hnap : c.nap.napping = false) : Mixed c (c.mixTick since) := by
  unfold Cell.mixTick
  extract_lets m src writes ramped accepted eff fresh off started c1 h p c2 a byp x bus outs z frame packet lbOn lbFull
    word mixed c3
  have haccepted : MixKeeps ramped accepted := acceptAll_keeps ramped writes
  have hstarted : MixKeeps accepted started := by
    unfold started
    split
    · exact ⟨rfl, rfl, rfl, fun _ => rfl⟩
    · exact MixKeeps.refl accepted
  have hinputs : InputKeeps c1 c2 := (hostIn_keeps c1).trans (pinInTake_keeps h.2)
  have ha : MixKeeps ramped a := (haccepted.trans hstarted).trans hinputs.audio
  have hloopback : a.loopback = c.audio.loopback := ha.loopback
  have heff (hnone : c.audio.mixWrites = []) : lbOn = c.eff.bit 0xEB98 7 := by
    have : eff = c.eff := by simp only [eff, writes, hnone, List.foldl_nil]
    exact (congrArg (Bytes.bit · 0xEB98 7) hinputs.eff).trans (congrArg (Bytes.bit · 0xEB98 7) this)
  have hmixed : Mixed c c3 := {
    core := hinputs.core
    mem := hinputs.mem
    beam := hinputs.beam
    mixTicks := rfl
    mixWrites := ha.mixWrites
    sample := fun o => (sample_of_ticked a.outs (bus · false) (bus · true) o).trans (ha.next o)
    pushed := fun hnone hon hroom => by
      have hfull : ¬ lbFull = true := by simp only [lbFull, hloopback, decide_eq_true_eq, Nat.not_le, hroom]
      exact (if_pos ⟨(heff hnone).trans hon, hfull⟩).trans (congrArg (· ++ [word]) hloopback)
    held := fun hnone hoff => by
      have hlb : ¬ lbOn = true := by simp only [heff hnone, hoff, Bool.false_eq_true, not_false_iff]
      exact (if_neg fun hb => hlb hb.1).trans hloopback }
  rw [if_neg (by simp [hnap])]
  split
  · exact hmixed.emit _
  · exact hmixed

/-! ### What leaves the cell (R305 to R308) -/

/-- The bytes of a host-out frame (R306). -/
def frameBytes (w24 : Bool) (f : Int × Int) : List Byte :=
  if w24 then leBytes 4 (wordOf 32 f.1) ++ leBytes 4 (wordOf 32 f.2)
  else leBytes 2 (wordOf 16 (sample16 f.1)) ++ leBytes 2 (wordOf 16 (sample16 f.2))

section
variable {c : Cell}

/-- A host-out packet leaves after its 48th frame. -/
theorem audioPacket_leaves (hlen : c.audio.packet.length = 48) (htick : c.audio.mixTicks % 48 = 0)
    (hon : c.eff.bit 0xEB00 7 = true) :
    c.audioPacket =
      ({ c with audio := { c.audio with packet := [] } } : Cell).emit
        (.audio (c.audio.mixTicks / 48 - 1) c.audio.packetStamp (c.eff.bit 0xEB00 6)
          (c.audio.packet.flatMap (frameBytes (c.eff.bit 0xEB00 6)))) := by
  simp only [Cell.audioPacket, hlen, htick, hon, ne_eq, not_true, or_self, if_false]
  rfl

/-- The counts of a pin-in window start again. -/
def windowClosed (p : PinIn) : PinIn := { p with ticks := 0, empties := 0, fulls := 0 }

/-- The end of a pin-in window in which the queue was empty or full too often refuses the input. -/
theorem pinInWindow_refused (hticks : 48 ≤ c.audio.pinIn.ticks)
    (hbad : 2 < c.audio.pinIn.empties ∨ 2 < c.audio.pinIn.fulls) (hok : c.audio.pinIn.refused = false) :
    c.pinInWindow =
      Cell.raise { c with
        audio := { c.audio with pinIn :=
          { windowClosed c.audio.pinIn with refused := true, from_ := c.audio.pinIn.value, k := 0 } }
        io := c.io.setBit 0xEB89 1 true } 28 := by
  simp only [Cell.pinInWindow, Nat.not_lt.mpr hticks, if_false, Bool.or_eq_true, decide_eq_true_eq, hbad, hok,
    Bool.false_eq_true, not_false_iff, and_self, if_true]
  rfl

theorem pinInWindow_kept (hticks : 48 ≤ c.audio.pinIn.ticks)
    (hfine : ¬ ((2 < c.audio.pinIn.empties ∨ 2 < c.audio.pinIn.fulls) ∧ c.audio.pinIn.refused = false)) :
    c.pinInWindow = { c with audio := { c.audio with pinIn := windowClosed c.audio.pinIn } } := by
  simp only [Cell.pinInWindow, Nat.not_lt.mpr hticks, if_false, Bool.or_eq_true, decide_eq_true_eq,
    Bool.not_eq_true, hfine]
  rfl

/-- A PWM period starts by the output's sample at its start. -/
theorem pwmPeriod_starts {n : Nat} (hn : n < 2) (hon : c.eff.bit (0xEB92 + n) 7 = true) :
    c.pwmPeriod n =
      { c with audio := { c.audio with pwm := updateAt c.audio.pwm n fun _ => {
          length := max 64 (c.eff.rdN 0xEB90 2)
          high := (((c.audio.outs[2 + n]?).elim 0 (·.sample) + 8388608) * (max 64 (c.eff.rdN 0xEB90 2) : Nat) /
            16777216).toNat
          start := c.beam.ctime } } } := by
  simp only [Cell.pwmPeriod, Nat.not_le.mpr hn, hon, not_true, or_self, if_false]

/-! ### A read of LB_DATA (R6, R308) -/

theorem locate_lbData :
    locate 0xEB9C = some { reg := ⟨0xEB9C, 4, 1, 1, 0, 0, 0, .imm, true, false⟩, start := 0xEB9C, off := 0 } :=
  rfl

/-- The upper bytes of a loopback frame as a read of byte 0 latches them. -/
def frameLatched (latched : Bytes) (w : Word) : Bytes :=
  ((latched.wr 0xEB9D (byteOf w.toNat 1)).wr 0xEB9E (byteOf w.toNat 2)).wr 0xEB9F (byteOf w.toNat 3)

/-- A read of LB_DATA's byte 0 latches the other three and pops the frame. -/
theorem ioLoad_lbData {w : Word} {t : List Word} (h : c.audio.loopback = w :: t) :
    (c.ioLoad 0xEB9C).2 =
      { c with latched := frameLatched c.latched w, audio := { c.audio with loopback := t } } := by
  have hbyte {i : Nat} (hi : i < 4) : c.headByte (0xEB9C + i) = byteOf w.toNat i := by
    have hin : 0xEB9C ≤ 0xEB9C + i ∧ 0xEB9C + i < 0xEBA0 := by omega
    rw [Cell.headByte, if_pos hin, Cell.loopbackPop, h, Nat.add_sub_cancel_left]
  have h1 := hbyte (i := 1) (by decide)
  have h2 := hbyte (i := 2) (by decide)
  have h3 := hbyte (i := 3) (by decide)
  simp [Cell.ioLoad, Cell.ioLoadBase, locate_lbData, Cell.latchReg, Cell.readHead, Cell.loopbackPop, h, List.range_succ,
    h1, h2, h3, frameLatched]

end

theorem frameLatched_rd {latched : Bytes} (hwf : latched.wf = true) (w : Word) {i : Nat} (hlo : 1 ≤ i) (hhi : i < 4) :
    (frameLatched latched w).rd (0xEB9C + i) = BitVec.ofNat 8 (w.toNat / 256 ^ i) := by
  have h1 := Bytes.wr_wf latched 0xEB9D (byteOf w.toNat 1) hwf
  have h2 := Bytes.wr_wf _ 0xEB9E (byteOf w.toNat 2) h1
  obtain rfl | rfl | rfl : i = 1 ∨ i = 2 ∨ i = 3 := by omega
  · exact (Bytes.rd_wr_other _ _ _ _ (by decide)).trans
      ((Bytes.rd_wr_other _ _ _ _ (by decide)).trans (Bytes.rd_wr_same _ _ _ hwf))
  · exact (Bytes.rd_wr_other _ _ _ _ (by decide)).trans (Bytes.rd_wr_same _ _ _ h1)
  · exact Bytes.rd_wr_same _ _ _ h2

end Sys2Proof.AudioBlock
end

section
/-! PROOFS. Audio: the voices, the mixer and the outputs together. -/

namespace Sys2Proof.AudioBlock

open Sys2Proof.Machine Sys2Proof.DecodeAndPace

/-- A command that takes the beam to a voice's reload finds it in this frame, or does nothing. -/
theorem next_of_reload {s : State} {ch : Nat} {c : Cell} (h : s.runsOn ch c) (en : Nat) (v : Audio → Option Voice) :
    (∀ c1, Cell.passToChip (Cell.reloads en v) c.dotsLeft c = some c1 →
      (.next (s.cellEvent ch fun c => c.runToReload en v) : Host.Outcome State Fault Refusal) =
        .next (s.becomes ch c1)) ∧
    (Cell.passToChip (Cell.reloads en v) c.dotsLeft c = none →
      (.next (s.cellEvent ch fun c => c.runToReload en v) : Host.Outcome State Fault Refusal) =
        .next (s.becomes ch c)) :=
  ⟨fun _ hrun => next_of_cellEvent h (runToReload_found hrun), fun hrun => next_of_cellEvent h (runToReload_none hrun)⟩

/-- Settles O29: the voices by what a chip tick accepts and counts, the PCM voice by its triggers, the mixer's writes
by the queue that a mix tick empties, and each output by its own event. -/
theorem voicesMixerAndOutputs : Obligations.VoicesMixerAndOutputs := by
  unfold Obligations.VoicesMixerAndOutputs
  refine ⟨?sources, ?mixer⟩
  case sources =>
    intro s ch c h a fifo cfg t w early taken k counted reloads
    refine ⟨fun v _ => next_of_reload h _ _, next_of_reload h _ _, fun v _ => next_of_reload h _ _, ?counters,
      fun c1 hdirty hrun => next_of_cellEvent h (clickAccept_found hdirty hrun),
      fun hclean => next_of_cellEvent h (clickAccept_clean hclean),
      fun hwf hdirty => ⟨chipTick_click c hwf hdirty, rfl, rfl⟩,
      fun v hroom => next_of_cellEvent h ((ioStore_pcmData c v).trans (pcmPush_room v hroom)),
      fun v hfull => next_of_cellEvent h ((ioStore_pcmData c v).trans (pcmPush_full v hfull)), ?trigger, ?slow,
      fun hidle => next_of_cellEvent h (pcmSlows_idle hidle)⟩
    case counters =>
      intro _
      have hcounted (en per size : Nat) : ticked k en per size = fun x => counted x en per size :=
        funext fun x => ticked_eq k en per size x
      refine ⟨fun v hv => ?_, ?_, chipTick_shift c, fun v hv => ?_⟩
      · exact (chipTick_tone c hv).trans (congrArg (Option.map · _) (hcounted _ _ _))
      · exact (chipTick_noise c).trans (congrFun (hcounted _ _ _) _)
      · exact (chipTick_wave c hv).trans (congrArg (Option.map · _) (hcounted _ _ _))
    case trigger =>
      intro clocks hwaits hon hnap
      exact ⟨fun hearly => next_of_cellEvent h (pcmTriggered_early hwaits hon hnap hearly),
        fun hlate hfull => next_of_cellEvent h (pcmTriggered_sample hwaits hon hnap hlate hfull),
        fun hlate hdry => next_of_cellEvent h (pcmTriggered_underrun hwaits hon hnap hlate hdry)⟩
    case slow =>
      intro at_ due slow hat hon hnap hslow
      exact ⟨fun hpast => next_of_cellEvent h (pcmSlows_past hat hon hnap hslow hpast),
        fun x hahead hrun => next_of_cellEvent h (pcmSlows_found hat hon hnap hslow hahead hrun),
        fun hahead hrun => next_of_cellEvent h (pcmSlows_not_found hat hon hnap hslow hahead hrun)⟩
  case mixer =>
    intro s ch c h a p kept
    refine ⟨fun v hwf hsel => ⟨_, next_of_cellEvent h (ioStore_nodeGain v hwf hsel), ⟨rfl, rfl, rfl, rfl⟩, rfl⟩,
      fun v hwf => ⟨_, next_of_cellEvent h (ioStore_routeMove v hwf), ⟨rfl, rfl, rfl, rfl⟩, rfl, rfl⟩,
      fun v => next_of_cellEvent h (ioStore_bqApply c v),
      fun since hnap => next_of_cellEvent h (mixTick_napping since hnap), ?tick, ?packet,
      fun hticks hbad hok => next_of_cellEvent h (pinInWindow_refused hticks hbad hok),
      fun hticks hfine => next_of_cellEvent h (pinInWindow_kept hticks hfine),
      fun n hn hon => next_of_cellEvent h (pwmPeriod_starts hn hon), ?loopback⟩
    case tick =>
      intro since hnap
      have hm := mixTick_mixed since hnap
      exact ⟨_, next_of_cellEvent h rfl, hm.core, hm.mem, hm.beam, hm.mixTicks, hm.mixWrites, hm.sample,
        fun hnone hon hroom => ⟨_, hm.pushed hnone hon hroom⟩, hm.held⟩
    case packet =>
      rintro _ hlen htick hon rfl
      exact next_of_cellEvent h (audioPacket_leaves hlen htick hon)
    case loopback =>
      intro w t hlb hwf
      exact ⟨_, next_of_cellEvent h (ioLoad_lbData hlb), ⟨rfl, rfl, rfl, rfl⟩, rfl, rfl,
        fun i hlo hhi => frameLatched_rd hwf w hlo hhi⟩

end Sys2Proof.AudioBlock
end
